-- ==== Sys2Proof/Word.lean ====
section
/-! DEFINITION. The word types of the EZ6140: the sizes in which values cross the ports (R196, R197). -/

namespace Sys2Proof

/-- One byte on a port, in a DRAM slot or on a flash page. -/
abbrev Byte := BitVec 8

/-- A two-byte parameter or field, sent least significant byte first (R196). -/
abbrev Half := BitVec 16

/-- A four-byte parameter or field, sent least significant byte first (R196). -/
abbrev Word := BitVec 32

end Sys2Proof
end

