-- ==== Sys2Proof/Syntax.lean ====
section
/-! DEFINITION. The commands of the part: one constructor of `Instr` for each row of spec/opcode_table.json.
A command of a master carries the port it came on and its parameters in the sizes of R197. An event of the part's
own lines, timers and flash operations carries what the outside world decides of it. -/

namespace Sys2Proof

/-- The two ports. Port A is the AP's, Port B the radio module's. -/
inductive Port where
  | A
  | B
  deriving DecidableEq, Repr

/-- What every transaction of a command without data carries: its port, and how many bytes came after the
parameters. A command that takes no data answers BAD_PARAM when any did (R189). -/
structure Tx where
  /-- The port whose master sent the transaction. -/
  port : Port
  /-- Bytes sent after the last parameter byte. -/
  extra : Nat := 0
  deriving DecidableEq, Repr

/-- The keys that the turn controller acts on itself (R21). -/
inductive TurnKey where
  | fwd
  | back
  | home
  deriving DecidableEq, Repr

/-- The moments of a read that R188 and R193 tell apart: its sample, when its last parameter byte has arrived, or at the
end of the command byte when it takes none; and its deselect with all bytes clocked out. A deselect without a sample
before it is the whole transaction. -/
inductive ReadMoment where
  | sample
  | deselect
  deriving DecidableEq, Repr

/-- What every transaction of a read carries: its port, and which of its moments this is. -/
structure Rx where
  /-- The port whose master reads. -/
  port : Port
  moment : ReadMoment := .deselect
  deriving DecidableEq, Repr

/-- How a transaction was cut short (R189). -/
inductive AbortCause where
  | commandByte
  | width3
  | fewParameters
  | partialByte
  | shortRead (code : Byte)
  deriving DecidableEq, Repr

/-- A change of level at an input. The keys, the cover and the presence inputs are debounced (R20, R119, R191); the
two analog inputs are converted when a sample is taken (R71, R99). -/
inductive Input where
  | turnKey (k : TurnKey) (pressed : Bool)
  | powerKey (pressed : Bool)
  | cover (closed : Bool)
  | presence (p : Port) (high : Bool)
  | battery (code : BitVec 12)
  | temperature (quarters : Int)
  deriving DecidableEq, Repr

/-- What the ECC met in one 512-byte sector: a number of corrected bits, or more errors than it can correct (R159). -/
inductive Sector where
  | corrected (bits : Nat)
  | failed
  deriving DecidableEq, Repr

/-- The commands and events of the part. -/
inductive Instr where
  -- Ports and notices
  | status (rx : Rx)
  | identify (rx : Rx)
  | noticeRead (p : Port) (m : ReadMoment)
  | noticeMask (tx : Tx) (enables : Half) (master : Byte)
  -- Page store
  | slotWrite (p : Port) (slot : Byte) (offset : Word) (data : List Byte)
  | slotWriteRect (p : Port) (slot : Byte) (bc row bw h : Half) (data : List Byte)
  | slotPost (tx : Tx) (slot : Byte) (key : Word)
  | slotDiscard (tx : Tx) (slot : Byte)
  | slotRetain (tx : Tx) (slot flag : Byte)
  | slotRead (rx : Rx) (slot : Byte) (offset length : Word)
  | shownRead (rx : Rx) (offset length : Word)
  | slotTableRead (rx : Rx)
  -- Turning pages
  | turnListSet (tx : Tx) (n : Byte) (places : List Byte) (cursor : Byte)
  | turnSettings (tx : Tx) (lookahead mode : Byte)
  | turnStateRead (rx : Rx)
  -- Display updates
  | updateSubmit (tx : Tx) (slot : Byte) (x0 y0 w h : Half) (mode tag notify : Byte)
  | updateCancel (tx : Tx)
  | engineRead (rx : Rx)
  | ghostSet (tx : Tx) (limit : Byte)
  | ghostClear (tx : Tx)
  -- Waveforms and temperature
  | waveformLoad (tx : Tx) (slot : Byte)
  | temperatureRead (rx : Rx)
  -- Front light
  | lightSet (tx : Tx) (brightness : Half) (warmth : Byte) (rampStep : Half)
  | lightRead (rx : Rx)
  -- Battery
  | batterySettings (tx : Tx) (resistance : Half)
  | batteryRead (rx : Rx)
  -- Power
  | sleep (tx : Tx)
  | wake (tx : Tx)
  | powerOff (tx : Tx)
  | powerPolicy (tx : Tx) (cover restore sleepScreen : Byte)
  | alarmSet (tx : Tx) (seconds : Word)
  | sleepScreenStore (tx : Tx) (slot : Byte)
  -- Download spool
  | downloadOpen (tx : Tx) (title declared : Word)
  | chunkWrite (p : Port) (record : Byte) (offset : Word) (data : List Byte)
  | downloadSeal (tx : Tx) (record : Byte) (expected : Word)
  | downloadAbandon (tx : Tx) (record : Byte)
  | downloadClaim (tx : Tx) (record : Byte)
  | downloadRelease (tx : Tx) (record : Byte)
  | fetch (tx : Tx) (record : Byte) (offset : Word) (length : Half)
  | fetchData (rx : Rx)
  | directoryRead (rx : Rx)
  | spoolFormat (tx : Tx)
  | flashHealthRead (rx : Rx)
  -- Rights and peer requests
  | rightsSet (tx : Tx) (target : Byte) (mask : Word) (caps defer : Byte)
  | rightsStore (tx : Tx)
  | rightsRead (rx : Rx)
  | chipReset (tx : Tx)
  | peerRead (rx : Rx)
  | peerGrant (tx : Tx)
  | peerDeny (tx : Tx)
  | peerWithdraw (tx : Tx)
  -- Framing
  | unknownCommandCode (p : Port) (code : Byte)
  | aborted (p : Port) (cause : AbortCause)
  -- Lines and timers
  | portSelect (p : Port)
  | inputChange (input : Input)
  | keyPress (k : TurnKey)
  | keyRelease (k : TurnKey)
  | powerPress
  | powerRelease
  | powerHeld2s
  | powerHeld8s
  | powerHeld1s
  | coverChange (closed : Bool)
  | presenceChange (p : Port) (high : Bool)
  | chargerRise
  | chargerFall
  -- Power sequences and resets
  | entryToActive (ecc : List (Nat × List Sector))
  | coldStart
  | resetLineFall
  | resetLineRise
  -- Ticks, samples and expiries
  | secondTick
  | alarmExpiry (p : Port)
  | peerRequestExpiry (p : Port)
  | stallTick
  | frameBoundary
  | rampTick
  | temperatureSample
  | batterySample
  | holdEntry
  | offEntry
  -- Flash operations
  | readEnd (ecc : List Sector)
  | programEnd (ok : Bool)
  | eraseEnd (ok : Bool)
  | moveEnd (ecc : List Sector) (ok : Bool)
  | flashOperationTimeout (ecc : List Sector)
  | supplyLoss
  deriving DecidableEq, Repr

end Sys2Proof
end

