-- ==== Sys2Proof/Decode.lean ====
section
/-! DEFINITION. Decoding of table words. The rows of spec/opcode_table.json give no bits: a command of this part is a
serial transaction of a command byte, parameters and data (R188), which `Machine.commandOf` in Machine/Operands.lean
reads, or an event at a line. -/

namespace Sys2Proof

/-- The command that a word of table bits spells: no row gives bits, so no word spells one. -/
def decodeTableWord (_nbits _w : Nat) : Option Instr := none

end Sys2Proof
end

