-- ==== Sys2Proof/Config.lean ====
section
/-! DEFINITION. The fixed capacities of the part (00_scope, "Capacities and Fixed Values") and the FREE VALUES:
constants without a body for what the spec leaves open. Nothing in Lean can evaluate a free value, so a
theorem that holds of the model holds whatever the value is. -/

namespace Sys2Proof.Config

/-- Panel columns. -/
abbrev panelColumns : Nat := 1248
/-- Panel rows. -/
abbrev panelRows : Nat := 1664
/-- Bytes of one image row, two pixels a byte. -/
abbrev rowBytes : Nat := 624
/-- Bytes of a panel image: 1,664 rows of 624 bytes. -/
abbrev imageBytes : Nat := 1038336
/-- Bytes of a DRAM slot. -/
abbrev slotBytes : Nat := 1048576
/-- DRAM slots. -/
abbrev slotCount : Nat := 32
/-- The first system slot: page slots are 0 to 27 (R1). -/
abbrev pageSlots : Nat := 28
/-- The shown image. -/
abbrev shownSlot : Nat := 28
/-- The waveform store. -/
abbrev waveformSlot : Nat := 29
/-- The staging ring's slot. -/
abbrev stagingSlot : Nat := 30
/-- The sleep screen. -/
abbrev sleepSlot : Nat := 31
/-- Where the incoming waveform table lies in slot 29 (R64). -/
abbrev incomingOffset : Nat := 524288
/-- Bytes of a waveform table file (R65). -/
abbrev tableBytes : Nat := 53040
/-- Bytes of a flash page. -/
abbrev pageBytes : Nat := 4096
/-- Spare bytes of a flash page. -/
abbrev spareBytes : Nat := 256
/-- Pages of a flash block. -/
abbrev blockPages : Nat := 64
/-- Bytes of a flash block. -/
abbrev blockBytes : Nat := 262144
/-- The first spool block: blocks 0 to 7 are system blocks (R157). -/
abbrev firstSpool : Nat := 8
/-- NAND blocks. -/
abbrev nandBlocks : Nat := 1024
/-- The largest declared length of a download. -/
abbrev maxDeclared : Nat := 67108864
/-- Places of the retired list. -/
abbrev retiredPlaces : Nat := 40
/-- Staging entries of the ring. -/
abbrev ringPlaces : Nat := 64

/-- FREE VALUE. The byte that a read returns at a place the ECC could not correct ("An uncorrectable sector is
returned as it was read", R159), or that lies on a partly programmed page (R158). The first argument is the
model's counter `Part.fresh`, the second the place in the array. -/
opaque rawByte : Nat → Nat → Byte

/-- FREE VALUE. The number that the check bytes of a page's data spell: R157 and R158 give their place and say only
that they are never all 0xFF. -/
opaque checkCode : List (BitVec 8) → Nat

/-- FREE VALUE. Whether a partly programmed page reads ERASED (R158 does not say). -/
opaque tornErased : Nat → Nat → Bool

/-- FREE VALUE. Whether a move in progress has come to its program part: the spec gives the two parts and no event
between them (R100, R158). -/
opaque moveInProgram : Nat → Bool

/-- FREE VALUE. The drive codes of the table supplied with the part, one of NONE, DARKEN and LIGHTEN: R75 gives
the table's frame counts only. -/
opaque factoryCode : Nat → Fin 3

/-- FREE VALUE. The identifier of the table supplied with the part. -/
opaque factoryTableId : Word

/-- FREE VALUE. The reading an item would start from while no reading is held; R71 samples before any start, so no
run from reset meets it. -/
opaque unsampledTemperature : Int

/-- FREE VALUE. The next page that FLASH HEALTH READ reports after a replay that stopped at an entry whose CRC fails or
that found no valid snapshot (R173 gives the next page only for the other ends). -/
opaque unstatedNextPage : Nat → Nat

/-- FREE VALUE. The four bytes of DIRECTORY READ's running CRC where its presence bit says that it is absent: R196 lets
the presence bit override the value for absent, and R197 gives none. -/
opaque absentCrc : Word

end Sys2Proof.Config
end

