-- ==== Sys2Proof/Machine/Types.lean ====
section
/-! DEFINITION. The data each block of the part keeps, as the state tables of chapters 1 to 11 list it. -/

namespace Sys2Proof.Machine

/-- One value for each port. -/
structure Both (α : Type) where
  a : α
  b : α
  deriving DecidableEq, Repr

/-! ### Ports, results and notices (chapter 11) -/

/-- The power states (R111). -/
inductive PowerState where
  | off
  | boot
  | active
  | settling
  | hold
  deriving DecidableEq, Repr

/-- The battery states (R103). -/
inductive BatteryState where
  | normal
  | low
  | critical
  | cutoff
  deriving DecidableEq, Repr

/-- The result codes, and the two that are peer outcomes only (R190). -/
inductive ResultCode where
  | ok | clipped | absorbed | referred | woken | starting | aborted | denied | busy | badParam
  | badState | slotOwned | slotBusy | queueFull | emptyRegion | noWaveform | noRecord | noSpace | lowBattery | notWriter
  | outOfOrder | overrun | ringFull | short | worn | noRequest | atEnd | gone | expired | peerGone
  deriving DecidableEq, Repr

/-- The fifteen notice kinds, in the order of their priority (R192). -/
inductive NoticeKind where
  | booted | battery | powerKey | peerRequest | peerOutcome | turnStarved | renderAhead | homeKey
  | updateDone | download | fetchReady | ringSpace | flash | alarm | cover
  deriving DecidableEq, Repr

/-- A pending notice: its latest 8-byte detail and its occurrence count, 1 to 255 (R192). -/
structure Notice where
  detail : List Byte
  count : Nat
  deriving DecidableEq, Repr

/-- A port's notice unit: the pending records by priority, the per-kind enables (bit k - 1 for kind k) and the
master enable (R192, R194). -/
structure NoticeUnit where
  pending : Vector (Option Notice) 15
  enables : Half
  master : Bool
  deriving DecidableEq, Repr

/-- The sample of a read in progress (R188): the data that the part drives. For a NOTICE READ also the kind it returns
and the raises of that kind since (R193). -/
structure ReadSample where
  data : List Byte
  kind : Option NoticeKind
  raises : Nat
  deriving DecidableEq, Repr

/-- The transaction in progress on a port, by how it will be answered: that is settled by the power state at its
select (R190). -/
inductive Line where
  /-- Chip select is high. -/
  | deselected
  /-- Selected in OFF or while the reset line is low, or discarded since (R123, R124). -/
  | ignored
  /-- Selected in BOOT. -/
  | boot
  /-- Selected in HOLD: the transaction that woke the part (R116). -/
  | hold
  /-- Selected in ACTIVE or SETTLING. -/
  | taken
  deriving DecidableEq, Repr

/-- The outcome of a page read (R158, R159). -/
inductive Ecc where
  | corrected (bits : Nat)
  | uncorrectable
  | erased
  deriving DecidableEq, Repr

/-- A port's fetch buffer (R152). -/
inductive FetchBuffer where
  | empty
  /-- `queued` until the engine begins the page read. -/
  | waiting (record offset length : Nat) (queued : Bool)
  /-- `unread` until a FETCH DATA is taken. -/
  | ready (record offset length : Nat) (outcome : Ecc) (data : List Byte) (unread : Bool)
  deriving DecidableEq, Repr

/-- What each port keeps (chapter 11), with what the part drives on it: the two status bytes of the latest command
byte, the sample of a read in progress, and the data of the latest transaction. -/
structure PortUnit where
  line : Line
  status0 : Byte
  status1 : Byte
  data : List Byte
  lastResult : ResultCode
  lastValue : Word
  sample : Option ReadSample
  notices : NoticeUnit
  fetch : FetchBuffer
  deriving DecidableEq, Repr

/-! ### Rights (chapter 10) -/

/-- A rights record, coded as R196 codes it: the slot mask (bit s for slot s), the capability set and the deferrable
set (R178). -/
structure Rights where
  mask : Word
  caps : Byte
  defer : Byte
  deriving DecidableEq, Repr

/-- An outgoing peer request; its issuer is the port that holds it (R183). -/
structure PeerRequest where
  code : Byte
  params : List Byte
  age : Nat
  deriving DecidableEq, Repr

/-- The rights unit (chapter 10). -/
structure RightsUnit where
  records : Both Rights
  fromFlash : Bool
  writeOutstanding : Bool
  requests : Both (Option PeerRequest)
  deriving DecidableEq, Repr

/-! ### Inputs -/

/-- The levels at the part's inputs: the keys (true: pressed), COVER (true: closed), the presence inputs (true:
HIGH), CHG_DET, RESET_N (true: low), the code BAT_SENSE converts to and the temperature sensor's code. -/
structure Pins where
  fwd : Bool
  back : Bool
  home : Bool
  power : Bool
  cover : Bool
  presence : Both Bool
  charger : Bool
  resetLow : Bool
  batSense : BitVec 12
  tempSense : Int
  deriving DecidableEq, Repr

/-- A debouncer: its debounced level and the candidate whose timer runs (R20). -/
structure Debouncer where
  level : Bool
  candidate : Option Bool
  deriving DecidableEq, Repr

/-- The debouncers of the keys (R20), the cover (R119) and the presence inputs (R191). -/
structure Debouncers where
  fwd : Debouncer
  back : Debouncer
  home : Debouncer
  power : Debouncer
  cover : Debouncer
  presence : Both Debouncer
  deriving DecidableEq, Repr

/-! ### Page store (chapter 1) -/

/-- The states of a slot (R2). -/
inductive SlotState where
  | empty
  | filling
  | ready
  | lost
  deriving DecidableEq, Repr

/-- A slot table record (section 1.2). The row-written map is the ascending list of its marked rows. -/
structure Slot where
  state : SlotState
  key : Option Word
  writer : Option Port
  retain : Bool
  showing : Nat
  rows : List Nat
  deriving DecidableEq, Repr

/-- The page store: the slot table, the DRAM (address 1,048,576 x slot + offset) and the segments refreshed in HOLD
(R17, R18). -/
structure PageStore where
  slots : Vector Slot 32
  dram : List Host.Cell
  retained : Option (List Nat)
  deriving DecidableEq, Repr

/-! ### Turn controller (chapter 2) -/

/-- The update modes, strongest first (R41). -/
inductive Mode where
  | full
  | gray
  | quick
  deriving DecidableEq, Repr

/-- The reasons of TURN_STARVED (R29). -/
inductive StarveReason where
  | endOfList | notReady | lost | noWaveform | queue | sourceChanged | wake
  deriving DecidableEq, Repr

/-- The turn controller's state (section 2.2). -/
structure Turn where
  list : List Nat
  cursor : Option Nat
  backlog : Int
  lookahead : Nat
  mode : Mode
  deriving DecidableEq, Repr

/-! ### Update engine (chapters 3 and 4) -/

/-- Columns xs to xe - 1 and rows ys to ye - 1 (R40). -/
structure Rect where
  xs : Nat
  xe : Nat
  ys : Nat
  ye : Nat
  deriving DecidableEq, Repr

/-- The origin an entry is placed with (R43), which its follow-ups keep as their first origin (R46). -/
inductive FirstOrigin where
  | port (p : Port)
  | turn
  | power
  deriving DecidableEq, Repr

/-- A waiting update: an entry of the submission queue (R27, R42) or a follow-up (R46). `serial` is the model's own:
the number of the entry first placed, by which the follow-ups of one item are known to belong together (R28, R54). -/
structure Update where
  origin : FirstOrigin
  source : Nat
  rect : Rect
  mode : Mode
  tag : Byte
  notify : Bool
  serial : Nat
  deriving DecidableEq, Repr

/-- The clamp of the band (R72). -/
inductive Clamp where
  | none
  | cold
  | hot
  deriving DecidableEq, Repr

/-- The record of a RUNNING lane (R56). `update.mode` is the requested mode, `applied` the applied one. -/
structure Lane where
  update : Update
  followUp : Bool
  exclusions : List Rect
  applied : Mode
  promoted : Bool
  demoted : Bool
  band : Nat
  clamp : Clamp
  frames : Nat
  index : Nat
  followUps : List Update
  deriving DecidableEq, Repr

/-- How the last start step ended (R49). -/
inductive StartOutcome where
  | empty
  | blockedFollowUps
  | blockedPool
  | blockedNoLane
  | waveformPending
  deriving DecidableEq, Repr

/-- A drive code (R57). -/
inductive DriveCode where
  | none
  | darken
  | lighten
  deriving DecidableEq, Repr

/-- The update engine's state, with the ghost state of chapter 4. The follow-up pool is the count of follow-ups in
existence (`Engine.pool`). `panel` is what the panel outputs carried in the last frame: the pixels (1,248 y + x) that
received a code other than NONE. -/
structure Engine where
  queue : List Update
  release : List Update
  lanes : Vector (Option Lane) 8
  outcome : StartOutcome
  tiles : Vector Nat 192
  ghostLimit : Nat
  panel : List (Nat × DriveCode)
  nextSerial : Nat
  deriving DecidableEq, Repr

/-- The waveform and temperature unit's state (chapter 4). The two tables are bytes of slot 29; the active one is
present when the slot table gives slot 29 READY (R64). -/
structure Wave where
  replacementPending : Bool
  reprogram : Bool
  reading : Option Int
  age : Nat
  deriving DecidableEq, Repr

/-! ### Light, battery and power (chapters 5 to 7) -/

/-- The light controller's state (chapter 5). Its off-pending flag is the power controller's (R87). -/
structure Light where
  brightness : Nat
  warmth : Nat
  step : Nat
  ceiling : Nat
  warmTarget : Nat
  coolTarget : Nat
  warm : Nat
  cool : Nat
  deriving DecidableEq, Repr

/-- The record of the most recent battery sample (R98). -/
structure Sample where
  code : BitVec 12
  volts : Nat
  light : Nat
  panel : Nat
  flash : Nat
  compensated : Nat
  deriving DecidableEq, Repr

/-- The battery monitor's state (chapter 6). The mean is computed from the window (`Battery.mean`). -/
structure Battery where
  window : List Nat
  state : BatteryState
  resistance : Nat
  last : Option Sample
  deriving DecidableEq, Repr

/-- Why a boot was admitted (R125, R127). -/
inductive BootReason where
  | cold
  | resetLine
  | consentReset
  | powerKey
  | charger
  | alarm
  deriving DecidableEq, Repr

/-- Where a POWER press was delivered, as the rows of R118's table tell them apart. -/
inductive PressStart where
  | active
  | asleep
  | boot
  | offPending
  deriving DecidableEq, Repr

/-- The POWER press record (R118). The time held is known at the moments the rules name: 0, 2,000 and 8,000 ms. -/
structure PressRecord where
  start : PressStart
  held : Nat
  long : Bool
  deriving DecidableEq, Repr

/-- The power controller's state (chapter 7). -/
structure Power where
  state : PowerState
  asleep : Bool
  offPending : Bool
  /-- Forced OFF entry has begun and OFF is not yet entered (R123). -/
  forcedOff : Bool
  coverFlag : Bool
  restoreFlag : Bool
  sleepFlag : Bool
  timebase : Word
  /-- Off, or the seconds remaining; 0 when the expiry has come and is not yet taken. -/
  alarms : Both (Option Nat)
  /-- Expiries taken in BOOT, with their timebase, held for the entry to ACTIVE (R129). -/
  heldAlarms : Both (Option Word)
  /-- An expiry of Port A's alarm held until OFF is entered (R123). -/
  alarmForOff : Bool
  press : Option PressRecord
  /-- A POWER press delivered in OFF is being timed toward 1 s (R125). -/
  bootTiming : Bool
  coldPending : Bool
  /-- The reason of the boot in progress. -/
  bootReason : BootReason
  chargerRetry : Bool
  sleepWrite : Bool
  deriving DecidableEq, Repr

/-! ### Download spool (chapter 8) -/

/-- The states of a download record (R136). -/
inductive RecordState where
  | free | opened | stalled | sealing | sealed | corrupt | fault | claimed
  deriving DecidableEq, Repr

/-- A download record (R134). `expected` is the CRC-32 given at the seal (R147). -/
structure Record where
  state : RecordState
  title : Word
  writer : Port
  declared : Nat
  received : Nat
  programmed : Nat
  durable : Nat
  running : Option Word
  checkpoint : Word
  extent : List Nat
  reservation : Nat
  stall : Nat
  damaged : Nat
  seq : Word
  ending : Bool
  expected : Word
  deriving DecidableEq, Repr

/-- The states of a staging entry (R140). -/
inductive StagedState where
  | filling
  | full
  | programming
  deriving DecidableEq, Repr

/-- A staging entry (R140). While FILLING `data` holds its `fill` bytes, from FULL on all 4,096. The ring's data is kept
here and not in the DRAM cells of slot 30, in which R140 gives it no layout (DESIGN CHOICE, log entry 46). -/
structure Staged where
  record : Nat
  page : Nat
  data : List Byte
  fill : Nat
  crcAfter : Word
  state : StagedState
  deriving DecidableEq, Repr

/-- The spool controller's state (chapter 8). The fetch buffers are kept with their ports. -/
structure Spool where
  records : Vector Record 32
  ring : List Staged
  pointer : Nat
  arm : Bool
  nextSeq : Word
  deriving DecidableEq, Repr

/-! ### Flash engine and journal (chapter 9) -/

/-- What a page of the array holds when it is not erased: 4,096 programmed data bytes with the 256 spare bytes that hold
their ECC check bytes (R157), or what an operation that failed or was abandoned left (R158). -/
inductive Page where
  | programmed (data spare : List Byte)
  | torn
  deriving DecidableEq, Repr

/-- The identity area (R157, R195). -/
structure Identity where
  vendor : Half
  part : Half
  revision : Byte
  factoryBad : List Nat
  deriving DecidableEq, Repr

/-- The spool states (R162, R171). -/
inductive SpoolState where
  | ready
  | worn
  | faulted
  deriving DecidableEq, Repr

/-- A journal entry's content (R168). The counts and the checkpoint of an OPEN are those of a snapshot; the OPEN of a
DOWNLOAD OPEN carries 0 for both. -/
inductive JEntry where
  | opened (record : Byte) (title : Word) (writer : Port) (declared seq : Word) (positions : Half) (checkpoint : Word)
  | block (record : Byte) (position block : Half) (crc : Word)
  | sealed (record : Byte) (corrupt : Bool) (crc : Word) (last : Option (Half × Half))
  | freed (record : Byte)
  | claimed (record : Byte)
  | faulted (record : Byte)
  | replace (record : Byte) (position old new : Half)
  | retire (block : Half) (worn : Bool)
  | extent (record : Byte) (first : Half) (blocks : List Half)
  | snapBegin (generation : Word)
  | snapEnd (generation : Word) (count : Half)
  deriving DecidableEq, Repr

/-- What stands at a place of a journal page: an erased entry, an entry whose CRC fails, or an entry. -/
inductive JRead where
  | erased
  | bad
  | entry (e : JEntry)
  deriving DecidableEq, Repr

/-- An entry of the pending batch. `serial` names it to the blocks it holds (R161); `live` says that the record it
concerns has not become FREE since it was queued: an entry whose record has changes no record (R145, R169). -/
structure JItem where
  serial : Nat
  entry : JEntry
  live : Bool
  deriving DecidableEq, Repr

/-- A record as replay rebuilds it (R173). -/
structure JRecord where
  state : RecordState
  title : Word
  writer : Port
  declared : Nat
  seq : Word
  extent : List Nat
  /-- The checkpoint, in blocks and as a CRC. -/
  blocks : Nat
  checkpoint : Word
  running : Word
  /-- The outcome of its SEAL. -/
  corrupt : Bool
  deriving DecidableEq, Repr

/-- What a replay rebuilds (R172, R173). -/
structure Replay where
  records : Vector JRecord 32
  retired : List Nat
  worn : Bool
  deriving DecidableEq, Repr

/-- A compaction under way (R170, R174): its destination, its generation, whether the destination is erased, the
pages of entries still to program and the next page. -/
structure Compaction where
  dest : Nat
  generation : Word
  isErased : Bool
  pages : List (List JEntry)
  page : Nat
  format : Bool
  deriving DecidableEq, Repr

/-- The journal's state. `journaled` is what a replay of the active block would rebuild (R170). -/
structure Journal where
  active : Option Nat
  generation : Word
  nextPage : Nat
  batch : List JItem
  due : Bool
  compaction : Option Compaction
  journaled : Replay
  nextSerial : Nat
  deriving DecidableEq, Repr

/-- Why an erase-pending block is held (R161). -/
inductive Hold where
  /-- Not held. -/
  | free
  /-- Until the journal write of the entry with this serial completes. -/
  | entry (serial : Nat)
  /-- Until the format snapshot is written. -/
  | format
  /-- The change it records was made without an entry (R171). -/
  | unrecorded
  deriving DecidableEq, Repr

/-- A block of the erase-pending list. -/
structure ErasePending where
  block : Nat
  hold : Hold
  deriving DecidableEq, Repr

/-- The system writes (R166). -/
inductive SysKind where
  | rights
  | waveform
  | sleepScreen
  deriving DecidableEq, Repr

/-- A queued system write: its kind, its next operation and the rights image it copied. -/
structure SysJob where
  kind : SysKind
  step : Nat
  image : List Byte
  deriving DecidableEq, Repr

/-- A program-failure recovery (R163): the record, its extent position, the failing block X and page j, the
replacement Y once held, and how many pages are moved. -/
structure Recovery where
  record : Nat
  position : Nat
  failed : Nat
  page : Nat
  target : Option Nat
  moved : Nat
  deriving DecidableEq, Repr

/-- A scrub relocation that holds its target (R165), with the serial of its REPLACE entry once queued. -/
structure Scrub where
  record : Nat
  position : Nat
  old : Nat
  target : Nat
  moved : Nat
  replace : Option Nat
  deriving DecidableEq, Repr

/-- What an allocation finds (R143): a free block, an erase-pending block to erase first, held blocks only, or none. -/
inductive Allocation where
  | taken (block : Nat)
  | erase (block : Nat)
  | waits
  | nothing
  deriving DecidableEq, Repr

/-- An operation of the array (R158). -/
inductive Operation where
  | read (block page : Nat)
  | program (block page : Nat) (data : List Byte)
  | erase (block : Nat)
  | move (source target page : Nat)
  deriving DecidableEq, Repr

/-- What an operation is done for, by the classes of R160. -/
inductive Job where
  | journal (count : Nat)
  | compaction
  | system
  | fetch (p : Port)
  | staging (record page : Nat)
  | allocation (record : Nat)
  | replacement
  | recovery
  | scrubTarget
  | scrub
  | eraser
  deriving DecidableEq, Repr

/-- The operation in progress. It is `live` until what it was begun for is dropped (R152, R165, R174). `reads` names
the download record whose page it reads, with the record's open sequence (R159). -/
structure Running where
  operation : Operation
  job : Job
  live : Bool
  reads : Option (Nat × Word)
  deriving DecidableEq, Repr

/-- The flash engine's state (chapter 9). Requests follow from what waits: the batch, the system jobs, the fetch
buffers, the ring, the recovery, the scrub list and the erase-pending list (R160). -/
structure Flash where
  /-- The array by page, 64 x block + page; a page not listed is erased. -/
  nand : List (Nat × Page)
  identity : Identity
  factoryBad : List Nat
  free : List Nat
  erasePending : List ErasePending
  retired : List Nat
  scrubList : List Nat
  spool : SpoolState
  running : Option Running
  system : List SysJob
  recovery : Option Recovery
  scrub : Option Scrub
  fetchTurn : Port
  journal : Journal
  deriving DecidableEq, Repr

/-! ### Transactions (section 11.1) -/

/-- What a port's link sees of a transaction, from select to deselect (R188, R189): how many bits of the command byte
came, that byte, the bytes after it, whether the deselect fell part-way through a byte, and whether all bytes of a
read were clocked out. -/
structure Frame where
  bits : Nat
  command : Byte
  bytes : List Byte
  cutByte : Bool
  readAll : Bool
  deriving DecidableEq, Repr

/-- The capability a command needs (R180). -/
inductive Need where
  | none
  | slots
  | capability (bit : Nat)
  | system
  deriving DecidableEq, Repr

/-- How a command ends: its result code, the value the result carries (R190) and the bytes it returns. -/
structure Reply where
  code : ResultCode
  value : Word := 0
  data : List Byte := []
  deriving DecidableEq, Repr

/-- What the rights unit decides of a command (R181, R182). -/
inductive Verdict where
  | pass
  | refer
  | refuse (code : ResultCode)
  deriving DecidableEq, Repr

/-! ### The part -/

/-- Everything the spec gives the part. `fresh` is the model's own: the counter by which a free value is a new one
each time. -/
structure Part where
  supply : Bool
  pins : Pins
  debounce : Debouncers
  ports : Both PortUnit
  rights : RightsUnit
  store : PageStore
  turn : Turn
  engine : Engine
  wave : Wave
  light : Light
  battery : Battery
  power : Power
  spool : Spool
  flash : Flash
  fresh : Nat
  deriving DecidableEq, Repr

end Sys2Proof.Machine
end

