-- ==== Sys2Proof/Machine/Bytes.lean ====
section
/-! DEFINITION. Byte order (R196), the two CRCs (R66, R168) and the other arithmetic on bytes that the blocks share. -/

namespace Sys2Proof.Machine

/-- A two-byte field, least significant byte first (R196). -/
def leHalf (h : Half) : List Byte := [h.extractLsb' 0 8, h.extractLsb' 8 8]

/-- A four-byte field, least significant byte first (R196). -/
def leWord (w : Word) : List Byte :=
  [w.extractLsb' 0 8, w.extractLsb' 8 8, w.extractLsb' 16 8, w.extractLsb' 24 8]

/-- A number as a one-byte field. -/
def byteOf (n : Nat) : Byte := BitVec.ofNat 8 n

/-- A number as a two-byte field. -/
def le2 (n : Nat) : List Byte := leHalf (BitVec.ofNat 16 n)

/-- A number as a four-byte field. -/
def le4 (n : Nat) : List Byte := leWord (BitVec.ofNat 32 n)

/-- A signed one-byte field, in two's complement (R196). -/
def signedByte (i : Int) : Byte := BitVec.ofInt 8 i

/-- A one-byte field that is 0xFF when absent (R196). -/
def byteOrAbsent : Option Nat → Byte
  | none => 0xFF
  | some n => byteOf n

/-- A two-byte field that is 0xFFFF when absent (R196). -/
def halfOrAbsent : Option Nat → List Byte
  | none => [0xFF, 0xFF]
  | some n => le2 n

/-- A four-byte field that is 0xFFFFFFFF when absent (R196). -/
def wordOrAbsent : Option Word → List Byte
  | none => [0xFF, 0xFF, 0xFF, 0xFF]
  | some w => leWord w

/-- A flag as bit `i` of a byte. -/
def flagBit (i : Nat) (b : Bool) : Nat := if b then 2 ^ i else 0

/-- The byte at place `i`; places past the end read 0xFF. -/
def byteAt (bs : List Byte) (i : Nat) : Byte := bs.getD i 0xFF

/-- The two-byte field at place `i`. -/
def halfAt (bs : List Byte) (i : Nat) : Half := byteAt bs (i + 1) ++ byteAt bs i

/-- The four-byte field at place `i`. -/
def wordAt (bs : List Byte) (i : Nat) : Word :=
  byteAt bs (i + 3) ++ byteAt bs (i + 2) ++ byteAt bs (i + 1) ++ byteAt bs i

/-- `bs` with 0xFF after its last byte, to a length of `n`. -/
def padTo (n : Nat) (bs : List Byte) : List Byte := (bs ++ List.replicate n 0xFF).take n

/-- A flash page of `bs` with 0xFF after its last byte. -/
def padPage (bs : List Byte) : List Byte := padTo Config.pageBytes bs

/-- Page `i` of a run of bytes cut into flash pages. -/
def pageOf (bs : List Byte) (i : Nat) : List Byte :=
  padPage ((bs.drop (Config.pageBytes * i)).take Config.pageBytes)

/-- `f` applied `n` times. -/
def repeatTimes {α : Type} (f : α → α) : Nat → α → α
  | 0, a => a
  | n + 1, a => repeatTimes f n (f a)

/-- One bit of the reflected CRC-32 with polynomial 0xEDB88320 (R66). -/
def crc32Bit (c : Word) : Word := if c.getLsbD 0 then (c >>> 1) ^^^ 0xEDB88320 else c >>> 1

/-- One byte of the CRC-32. -/
def crc32Byte (c : Word) (b : Byte) : Word := repeatTimes crc32Bit 8 (c ^^^ b.setWidth 32)

/-- The CRC-32 of a run whose CRC-32 so far is `c`, continued over `bs` (R66, R139). -/
def crc32From (c : Word) (bs : List Byte) : Word := ~~~ (bs.foldl crc32Byte (~~~ c))

/-- The CRC-32 of R66: initial value 0xFFFFFFFF, final complement. -/
def crc32 (bs : List Byte) : Word := crc32From 0 bs

/-- One bit of the CRC-16 with polynomial 0x1021, not reflected (R168). -/
def crc16Bit (c : Half) : Half := if c.getLsbD 15 then (c <<< 1) ^^^ 0x1021 else c <<< 1

/-- One byte of the CRC-16. -/
def crc16Byte (c : Half) (b : Byte) : Half := repeatTimes crc16Bit 8 (c ^^^ (b.setWidth 16 <<< 8))

/-- The CRC-16 of R168: initial value 0xFFFF, no final complement. -/
def crc16 (bs : List Byte) : Half := bs.foldl crc16Byte 0xFFFF

/-- Both ports' values, read and changed by port. -/
def Both.get {α : Type} (x : Both α) : Port → α
  | .A => x.a
  | .B => x.b

/-- The value of one port replaced. -/
def Both.set {α : Type} (x : Both α) (p : Port) (v : α) : Both α :=
  match p with
  | .A => { x with a := v }
  | .B => { x with b := v }

/-- The value of one port changed. -/
def Both.modify {α : Type} (x : Both α) (p : Port) (f : α → α) : Both α := x.set p (f (x.get p))

/-- The same value for both ports. -/
def Both.same {α : Type} (v : α) : Both α := ⟨v, v⟩

/-- The other port: the peer's (chapter 10). -/
def peer : Port → Port
  | .A => .B
  | .B => .A

/-- The code of a port in a field (R196). -/
def portCode : Port → Nat
  | .A => 0
  | .B => 1

/-- The entry of a table at `i`; places past the end read the default. -/
def tableGet {α : Type} {n : Nat} (t : Vector α n) (i : Nat) (d : α) : α := t.toList.getD i d

/-- A table with the entry at `i` replaced. -/
def tableSet {α : Type} {n : Nat} (t : Vector α n) (i : Nat) (v : α) : Vector α n :=
  ⟨(t.toList.set i v).toArray, by simp⟩

/-- A table with every entry changed. -/
def tableMap {α : Type} {n : Nat} (f : α → α) (t : Vector α n) : Vector α n :=
  ⟨(t.toList.map f).toArray, by simp⟩

/-- A table with every entry changed by a function of its place. -/
def tableMapIdx {α : Type} {n : Nat} (f : Nat → α → α) (t : Vector α n) : Vector α n :=
  ⟨(t.toList.mapIdx f).toArray, by simp⟩

/-- A number in a strictly ascending list. -/
def insertAscending (n : Nat) : List Nat → List Nat
  | [] => [n]
  | m :: ms => if n < m then n :: m :: ms else if n = m then m :: ms else m :: insertAscending n ms

end Sys2Proof.Machine
end

