-- ==== Sys2Proof/Machine/JournalCode.lean ====
section
/-! DEFINITION. The 32-byte journal entries (R168) and the flash pages that hold them, and the contents of the array
as the part is delivered (R157, R75). R168 gives the size of an entry, its CRC-16 and what each kind carries; the
places of the fields within the 30 content bytes are the model's (DESIGN CHOICE, log entry 6). -/

namespace Sys2Proof.Machine

/-- The content bytes of an entry, without the padding. -/
def entryContent : JEntry → List Byte
  | .opened r t w d q n c =>
      [1, r] ++ leWord t ++ [byteOf (portCode w)] ++ leWord d ++ leWord q ++ leHalf n ++ leWord c
  | .block r k b c => [2, r] ++ leHalf k ++ leHalf b ++ leWord c
  | .sealed r x c none => [3, r, byteOf x.toNat] ++ leWord c ++ [0]
  | .sealed r x c (some (k, b)) => [3, r, byteOf x.toNat] ++ leWord c ++ [1] ++ leHalf k ++ leHalf b
  | .freed r => [4, r]
  | .claimed r => [5, r]
  | .faulted r => [6, r]
  | .replace r k o n => [7, r] ++ leHalf k ++ leHalf o ++ leHalf n
  | .retire b w => [8] ++ leHalf b ++ [byteOf w.toNat]
  | .extent r f bs => [9, r] ++ leHalf f ++ [byteOf bs.length] ++ bs.flatMap leHalf
  | .snapBegin g => [10] ++ leWord g
  | .snapEnd g n => [11] ++ leWord g ++ leHalf n

/-- The 32 bytes of an entry: 30 of content and the CRC-16 over them (R168). -/
def encodeEntry (e : JEntry) : List Byte :=
  let content := padTo 30 (entryContent e)
  content ++ leHalf (crc16 content)

/-- The entry whose 30 content bytes are given. -/
def parseContent (c : List Byte) : Option JEntry :=
  match (byteAt c 0).toNat with
  | 1 => some (.opened (byteAt c 1) (wordAt c 2) (if byteAt c 6 = 0 then .A else .B) (wordAt c 7) (wordAt c 11)
      (halfAt c 15) (wordAt c 17))
  | 2 => some (.block (byteAt c 1) (halfAt c 2) (halfAt c 4) (wordAt c 6))
  | 3 => some (.sealed (byteAt c 1) (byteAt c 2 ≠ 0) (wordAt c 3)
      (if byteAt c 7 = 0 then none else some (halfAt c 8, halfAt c 10)))
  | 4 => some (.freed (byteAt c 1))
  | 5 => some (.claimed (byteAt c 1))
  | 6 => some (.faulted (byteAt c 1))
  | 7 => some (.replace (byteAt c 1) (halfAt c 2) (halfAt c 4) (halfAt c 6))
  | 8 => some (.retire (halfAt c 1) (byteAt c 3 ≠ 0))
  | 9 => some (.extent (byteAt c 1) (halfAt c 2)
      ((List.range (min 12 (byteAt c 4).toNat)).map fun i => halfAt c (5 + 2 * i)))
  | 10 => some (.snapBegin (wordAt c 1))
  | 11 => some (.snapEnd (wordAt c 1) (halfAt c 5))
  | _ => none

/-- What stands in 32 bytes of a journal page (R168): all 0xFF is an erased entry, and a CRC-16 that does not match is
an entry whose CRC fails. -/
def parseEntry (bs : List Byte) : JRead :=
  if bs.all (· == 0xFF) then .erased
  else if crc16 (bs.take 30) = halfAt bs 30 then
    match parseContent (bs.take 30) with
    | some e => .entry e
    | none => .bad
  else .bad

/-- A journal page: the entries in order, the places after them erased (R168). -/
def journalPage (es : List JEntry) : List Byte := padPage (es.flatMap encodeEntry)

/-- The 128 places of a journal page. -/
def pageEntries (bs : List Byte) : List JRead :=
  (List.range 128).map fun i => parseEntry ((bs.drop (32 * i)).take 32)

/-! ### The array as delivered -/

/-- The frame counts of the table supplied with the part, by band: FULL, GRAY and QUICK (R75). -/
def factoryFrames : List (Nat × Nat × Nat) :=
  [(64, 48, 20), (64, 44, 18), (60, 40, 16), (56, 32, 14), (52, 28, 12), (48, 24, 10),
   (48, 24, 10), (44, 22, 10), (44, 20, 8), (40, 20, 8), (40, 18, 8), (40, 18, 8)]

/-- A byte of four drive codes of the supplied table (R197, "Waveform table file"). -/
def factorySequenceByte (i : Nat) : Byte :=
  byteOf ((Config.factoryCode (4 * i)).val + 4 * (Config.factoryCode (4 * i + 1)).val
    + 16 * (Config.factoryCode (4 * i + 2)).val + 64 * (Config.factoryCode (4 * i + 3)).val)

/-- Bytes 0 to 53,035 of the supplied table (R65): the header and the twelve band blocks. -/
def factoryBody : List Byte :=
  [1, 0, 12, 64] ++ leWord Config.factoryTableId
    ++ (List.range 12).flatMap fun k =>
        let f := factoryFrames.getD k (0, 0, 0)
        [byteOf f.1, byteOf f.2.1, byteOf f.2.2] ++ (List.range 4416).map fun i => factorySequenceByte (4416 * k + i)

/-- The table supplied with the part, with its CRC-32. -/
def factoryTable : List Byte := factoryBody ++ leWord (crc32 factoryBody)

/-- The 256 spare bytes that a program writes with a page's data: a free value that is never 0xFF throughout (R157,
R158; log entry 42). -/
def spareOf (data : List Byte) : List Byte :=
  (List.range Config.spareBytes).map fun i => byteOf (Config.checkCode data % (256 ^ Config.spareBytes - 1) / 256 ^ i)

/-- A page programmed with its data: the ECC check bytes go into the spare (R158). -/
def programmedPage (data : List Byte) : Page := .programmed data (spareOf data)

/-- The array as delivered: the supplied table in block 1, and a snapshot of generation 1 with no records in block 6,
with block 7 erased (R157). -/
def deliveredNand : List (Nat × Page) :=
  (List.range 13).map (fun i => (64 + i, programmedPage (pageOf factoryTable i)))
    ++ [(384, programmedPage (journalPage [.snapBegin 1, .snapEnd 1 2]))]

end Sys2Proof.Machine
end

