-- ==== Sys2Proof/Machine/Memory.lean ====
section
/-! DEFINITION. The DRAM as a list of cells and the NAND array as a list of pages, each in one canonical form:
addresses strictly rising, and nothing listed that reads as an unlisted place does. An unlisted DRAM byte reads 0xFF
(R3: every byte no write has reached); an unlisted flash page is erased (R157). -/

namespace Sys2Proof.Machine

/-- What an unlisted DRAM address reads as. -/
def Memory.unlisted : Byte := 0xFF

/-- One byte of the DRAM. -/
def Memory.read : List Host.Cell → Nat → Byte
  | [], _ => Memory.unlisted
  | (k, v) :: m, a => if k = a then v else Memory.read m a

/-- One byte of the DRAM written, keeping the canonical form. -/
def Memory.write : List Host.Cell → Nat → Byte → List Host.Cell
  | [], a, v => if v = Memory.unlisted then [] else [(a, v)]
  | (k, w) :: m, a, v =>
      if a < k then (if v = Memory.unlisted then (k, w) :: m else (a, v) :: (k, w) :: m)
      else if a = k then (if v = Memory.unlisted then m else (a, v) :: m)
      else (k, w) :: Memory.write m a v

/-- A run of bytes written from an address on. -/
def Memory.writeRun (m : List Host.Cell) (a : Nat) : List Byte → List Host.Cell
  | [] => m
  | b :: bs => Memory.writeRun (Memory.write m a b) (a + 1) bs

/-- Every byte from `lo` up to but not including `hi` set to 0xFF. -/
def Memory.clear (m : List Host.Cell) (lo hi : Nat) : List Host.Cell :=
  m.filter fun c => decide (c.1 < lo) || decide (hi ≤ c.1)

/-- A run of `n` bytes read from an address on. -/
def Memory.readRun (m : List Host.Cell) (a n : Nat) : List Byte :=
  (List.range n).map fun i => Memory.read m (a + i)

/-- Every address of the list is above `lo`, the addresses rise strictly, and no cell holds 0xFF. -/
def Memory.risesFrom : Nat → List Host.Cell → Bool
  | _, [] => true
  | lo, (k, v) :: m => decide (lo ≤ k) && v != Memory.unlisted && Memory.risesFrom (k + 1) m

/-- The canonical form of the DRAM. -/
def Memory.wf (m : List Host.Cell) : Bool := Memory.risesFrom 0 m

/-- What a flash page holds; none when it is erased. -/
def Nand.page : List (Nat × Page) → Nat → Option Page
  | [], _ => none
  | (k, v) :: m, a => if k = a then some v else Nand.page m a

/-- A flash page left holding `v`. -/
def Nand.put : List (Nat × Page) → Nat → Page → List (Nat × Page)
  | [], a, v => [(a, v)]
  | (k, w) :: m, a, v =>
      if a < k then (a, v) :: (k, w) :: m
      else if a = k then (a, v) :: m
      else (k, w) :: Nand.put m a v

/-- The array's address of a page of a block. -/
def Nand.address (block page : Nat) : Nat := Config.blockPages * block + page

/-- A block erased: every byte of its 64 pages 0xFF (R157). -/
def Nand.eraseBlock (m : List (Nat × Page)) (block : Nat) : List (Nat × Page) :=
  m.filter fun c => decide (c.1 / Config.blockPages ≠ block)

/-- A block whose erase failed or was abandoned part-way (R158). -/
def Nand.tearBlock (m : List (Nat × Page)) (block : Nat) : List (Nat × Page) :=
  (List.range Config.blockPages).foldl (fun m p => Nand.put m (Nand.address block p) .torn) m

/-- The page addresses rise strictly. -/
def Nand.risesFrom : Nat → List (Nat × Page) → Bool
  | _, [] => true
  | lo, (k, _) :: m => decide (lo ≤ k) && Nand.risesFrom (k + 1) m

/-- The canonical form of the array. -/
def Nand.wf (m : List (Nat × Page)) : Bool := Nand.risesFrom 0 m

end Sys2Proof.Machine
end

