-- ==== Sys2Proof/Machine/Defaults.lean ====
section
/-! DEFINITION. The values every block takes at a reset kind (R19, R38, R63, R83, R96, R109, R133, R155, R176, R178,
R190, R192). OFF entry takes most of them too; what it keeps, Machine/Power.lean says. -/

namespace Sys2Proof.Machine

/-- A slot in EMPTY (R2, R19). -/
def emptySlot : Slot :=
  { state := .empty, key := none, writer := none, retain := false, showing := 0, rows := [] }

/-- A record in FREE: its other fields have no meaning (R134). -/
def freeRecord : Record :=
  { state := .free, title := 0, writer := .A, declared := 0, received := 0, programmed := 0, durable := 0,
    running := none, checkpoint := 0, extent := [], reservation := 0, stall := 0, damaged := 0, seq := 0,
    ending := false, expected := 0 }

/-- A record that a replay has not found (R173). -/
def freeJRecord : JRecord :=
  { state := .free, title := 0, writer := .A, declared := 0, seq := 0, extent := [], blocks := 0, checkpoint := 0,
    running := 0, corrupt := false }

/-- A replay before its first entry. -/
def emptyReplay : Replay :=
  { records := Vector.replicate 32 freeJRecord, retired := [], worn := false }

/-- No notice pending, every kind enabled and the master enable on (R192). -/
def defaultNotices : NoticeUnit :=
  { pending := Vector.replicate 15 none, enables := 0x7FFF, master := true }

/-- A port after a reset kind: last result OK, value 0 (R190), fetch buffer EMPTY (R155). -/
def defaultPort : PortUnit :=
  { line := .deselected, status0 := 0, status1 := 0, data := [], lastResult := .ok, lastValue := 0, sample := none,
    notices := defaultNotices, fetch := .empty }

/-- The factory default rights (R178). -/
def defaultRecords : Both Rights :=
  { a := { mask := 0x0FFFFFFF, caps := 0xEF, defer := 0x00 },
    b := { mask := 0x0C000000, caps := 0x32, defer := 0x4C } }

/-- The rights unit after a reset kind and at OFF entry (R178). -/
def defaultRights : RightsUnit :=
  { records := defaultRecords, fromFlash := false, writeOutstanding := false, requests := Both.same none }

/-- A key's debouncer after a reset kind: RELEASED, and timing a key that is held (R20). -/
def keyDebouncer (pressed : Bool) : Debouncer :=
  { level := false, candidate := if pressed then some true else none }

/-- A debouncer whose level is taken from the input (R119, R191). -/
def levelDebouncer (level : Bool) : Debouncer := { level := level, candidate := none }

/-- The debouncers after a reset kind. -/
def defaultDebouncers (p : Pins) : Debouncers :=
  { fwd := keyDebouncer p.fwd, back := keyDebouncer p.back, home := keyDebouncer p.home,
    power := keyDebouncer p.power, cover := levelDebouncer p.cover,
    presence := ⟨levelDebouncer p.presence.a, levelDebouncer p.presence.b⟩ }

/-- The page store with every slot EMPTY and no DRAM content (R19). -/
def defaultStore : PageStore :=
  { slots := Vector.replicate 32 emptySlot, dram := [], retained := none }

/-- The turn controller's defaults (R38). -/
def defaultTurn : Turn := { list := [], cursor := none, backlog := 0, lookahead := 2, mode := .quick }

/-- The update engine's defaults, every tile count 15 and the ghost limit 6 (R63, R83). -/
def defaultEngine : Engine :=
  { queue := [], release := [], lanes := Vector.replicate 8 none, outcome := .empty, tiles := Vector.replicate 192 15,
    ghostLimit := 6, panel := [], nextSerial := 0 }

/-- The waveform unit's defaults (R83). -/
def defaultWave : Wave := { replacementPending := false, reprogram := false, reading := none, age := 0 }

/-- The light's defaults (R94, R96). -/
def defaultLight : Light :=
  { brightness := 0, warmth := 50, step := 32, ceiling := 1000, warmTarget := 0, coolTarget := 0, warm := 0, cool := 0 }

/-- The battery monitor's defaults (R109). -/
def defaultBattery : Battery := { window := [], state := .normal, resistance := 200, last := none }

/-- The power controller's defaults, the boot reason pending as given (R133). -/
def defaultPower (cold : Bool) : Power :=
  { state := .off, asleep := false, offPending := false, forcedOff := false, coverFlag := true, restoreFlag := true,
    sleepFlag := true, timebase := 0, alarms := Both.same none, heldAlarms := Both.same none, alarmForOff := false,
    press := none, bootTiming := false, coldPending := cold, bootReason := .cold, chargerRetry := false,
    sleepWrite := false }

/-- The spool controller's defaults (R155). -/
def defaultSpool : Spool :=
  { records := Vector.replicate 32 freeRecord, ring := [], pointer := 8, arm := false, nextSeq := 0 }

/-- The journal before BOOT (R176). -/
def defaultJournal : Journal :=
  { active := none, generation := 0, nextPage := 0, batch := [], due := false, compaction := none,
    journaled := emptyReplay, nextSerial := 0 }

/-- The flash engine's defaults over an array and an identity area (R157, R176). -/
def defaultFlash (nand : List (Nat × Page)) (identity : Identity) : Flash :=
  { nand := nand, identity := identity, factoryBad := identity.factoryBad, free := [], erasePending := [],
    retired := [], scrubList := [], spool := .ready, running := none, system := [], recovery := none, scrub := none,
    fetchTurn := .A, journal := defaultJournal }

/-- Every block at its default: the part in OFF, with what a reset kind does not reach (the inputs, the array, the
identity area, the model's counter) and the boot reason pending as given (R128). -/
def defaultPart (pins : Pins) (nand : List (Nat × Page)) (identity : Identity) (cold : Bool) (fresh : Nat) : Part :=
  { supply := true, pins := pins, debounce := defaultDebouncers pins, ports := Both.same defaultPort,
    rights := defaultRights, store := defaultStore, turn := defaultTurn, engine := defaultEngine, wave := defaultWave,
    light := defaultLight, battery := defaultBattery, power := defaultPower cold, spool := defaultSpool,
    flash := defaultFlash nand identity, fresh := fresh }

/-- The inputs at rest: no key pressed, the cover open, both masters unpowered, no charger, RESET_N high, and both
analog inputs at 0 (log entry 2). -/
def restingPins : Pins :=
  { fwd := false, back := false, home := false, power := false, cover := false, presence := Both.same false,
    charger := false, resetLow := false, batSense := 0, tempSense := 0 }

/-- The identity area of the modelled part (log entry 3). -/
def modelIdentity : Identity := { vendor := 0, part := 0, revision := 0, factoryBad := [] }

end Sys2Proof.Machine
end

