-- ==== Sys2Proof/Machine/State.lean ====
section
/-! DEFINITION. The state of the machine: the part and the commands that wait for it. -/

namespace Sys2Proof.Machine

/-- The part as the spec gives it, and the queue of waiting commands, first in, first out. The queue is the model's
own: commands of the two masters and events of the lines arrive in it in the order they are taken. -/
structure State where
  part : Part
  pending : List Instr
  deriving DecidableEq, Repr

/-- No command of this part stops with a fault: the spec answers every command with a result code and describes every
event, and an address outside a slot is refused with BAD_PARAM. The type has no constructor. -/
inductive Fault where
  deriving DecidableEq, Repr

/-- Why the model gives a command no meaning. -/
inductive Refusal where
  /-- Raised by `exec` for a command not yet modelled. Safe: the machine stops. No arm raises it. -/
  | notModelled (mnemonic : String)
  deriving DecidableEq, Repr

/-- The machine right after a cold start of a part as delivered (R128, R157): OFF, every block at its default, the boot
reason pending COLD, the inputs at rest, no command waiting. -/
def State.reset : State :=
  { part := defaultPart restingPins deliveredNand modelIdentity true 0, pending := [] }

end Sys2Proof.Machine
end

