-- ==== Sys2Proof/Machine/Ops.lean ====
section
/-! DEFINITION. The named operations over the part's registers, tables and buffers: each is the one place where its
piece of state is read or changed. -/

namespace Sys2Proof.Machine

/-! ### Ports and notices -/

/-- A port's unit. -/
def port (s : Part) (p : Port) : PortUnit := s.ports.get p

/-- A port's unit changed. -/
def modifyPort (p : Port) (f : PortUnit → PortUnit) (s : Part) : Part := { s with ports := s.ports.modify p f }

/-- Both ports' units changed alike. -/
def modifyPorts (f : PortUnit → PortUnit) (s : Part) : Part := { s with ports := ⟨f s.ports.a, f s.ports.b⟩ }

/-- The place of a kind, 0 to 14; its priority number is one more (R192). -/
def kindIndex : NoticeKind → Nat
  | .booted => 0
  | .battery => 1
  | .powerKey => 2
  | .peerRequest => 3
  | .peerOutcome => 4
  | .turnStarved => 5
  | .renderAhead => 6
  | .homeKey => 7
  | .updateDone => 8
  | .download => 9
  | .fetchReady => 10
  | .ringSpace => 11
  | .flash => 12
  | .alarm => 13
  | .cover => 14

/-- The kinds in the order of their priority (R192). -/
def allKinds : List NoticeKind :=
  [.booted, .battery, .powerKey, .peerRequest, .peerOutcome, .turnStarved, .renderAhead, .homeKey, .updateDone,
   .download, .fetchReady, .ringSpace, .flash, .alarm, .cover]

/-- A kind's record, none when it is not pending. -/
def notice (u : NoticeUnit) (k : NoticeKind) : Option Notice := tableGet u.pending (kindIndex k) none

/-- A kind's record replaced. -/
def setNotice (k : NoticeKind) (v : Option Notice) (u : NoticeUnit) : NoticeUnit :=
  { u with pending := tableSet u.pending (kindIndex k) v }

/-- Whether a kind is enabled: bit k - 1 of the enables (R194). -/
def kindEnabled (u : NoticeUnit) (k : NoticeKind) : Bool := u.enables.getLsbD (kindIndex k)

/-- The record of a raise over the record there was (R192). -/
def raised (old : Option Notice) (detail : List Byte) : Notice :=
  match old with
  | none => { detail := padTo 8 detail, count := 1 }
  | some n => { detail := padTo 8 detail, count := min 255 (n.count + 1) }

/-- A raise of a sampled kind is counted until the deselect (R193). -/
def countRaise (k : NoticeKind) (x : ReadSample) : ReadSample :=
  if x.kind = some k then { x with raises := x.raises + 1 } else x

/-- A kind raised in a port's unit (R192, R193). -/
def raiseIn (k : NoticeKind) (detail : List Byte) (u : PortUnit) : PortUnit :=
  { u with
    notices := setNotice k (some (raised (notice u.notices k) detail)) u.notices
    sample := u.sample.map (countRaise k) }

/-- A kind raised on a port (R192). -/
def raise (p : Port) (k : NoticeKind) (detail : List Byte) (s : Part) : Part := modifyPort p (raiseIn k detail) s

/-- A kind raised on both ports. -/
def raiseBoth (k : NoticeKind) (detail : List Byte) (s : Part) : Part :=
  raise .B k detail (raise .A k detail s)

/-- A pending kind cleared in a port's unit; a sample of it counts raises from then on (R185, R193; log entry 13). -/
def clearIn (k : NoticeKind) (u : PortUnit) : PortUnit :=
  { u with
    notices := setNotice k none u.notices
    sample := u.sample.map fun x => if x.kind = some k then { x with raises := 0 } else x }

/-- A pending kind cleared on a port (R185). -/
def clearNotice (p : Port) (k : NoticeKind) (s : Part) : Part := modifyPort p (clearIn k) s

/-- All records of a port cleared; the enables stay (R124, R192). -/
def clearAllIn (u : PortUnit) : PortUnit :=
  { u with notices := { u.notices with pending := Vector.replicate 15 none }, sample := none }

/-! ### Slots and DRAM -/

/-- A slot's record. -/
def slot (s : Part) (i : Nat) : Slot := tableGet s.store.slots i emptySlot

/-- A slot's record replaced. -/
def setSlot (i : Nat) (v : Slot) (s : Part) : Part :=
  { s with store := { s.store with slots := tableSet s.store.slots i v } }

/-- A slot's record changed. -/
def modifySlot (i : Nat) (f : Slot → Slot) (s : Part) : Part := setSlot i (f (slot s i)) s

/-- The DRAM address of a byte of a slot. -/
def dramAddress (i offset : Nat) : Nat := Config.slotBytes * i + offset

/-- The DRAM replaced. -/
def setDram (m : List Host.Cell) (s : Part) : Part := { s with store := { s.store with dram := m } }

/-- One byte of a slot, whatever its state. -/
def cell (s : Part) (i offset : Nat) : Byte := Memory.read s.store.dram (dramAddress i offset)

/-- One byte of a slot's content as seen (R3): 0xFF in EMPTY and LOST and in unmarked rows. -/
def seen (s : Part) (i offset : Nat) : Byte :=
  let v := slot s i
  match v.state with
  | .empty | .lost => 0xFF
  | .filling | .ready =>
      if (offset / Config.rowBytes) ∈ v.rows then cell s i offset else 0xFF

/-- `n` bytes of a slot's content as seen, from an offset on. -/
def seenRun (s : Part) (i offset n : Nat) : List Byte := (List.range n).map fun k => seen s i (offset + k)

/-- The level of a pixel in an image byte: the even column in bits 0 to 3 (R197, "Slot pixel packing"). -/
def pixelLevel (b : Byte) (x : Nat) : Nat := if x % 2 = 0 then b.toNat % 16 else b.toNat / 16

/-- The byte of an image that holds a pixel. -/
def pixelOffset (x y : Nat) : Nat := Config.rowBytes * y + x / 2

/-- A pixel's level in a slot's content as seen. -/
def level (s : Part) (i x y : Nat) : Nat := pixelLevel (seen s i (pixelOffset x y)) x

/-- A READY slot of which every row is marked: a system slot that holds an image (R5). -/
def imageSlot : Slot := { emptySlot with state := .ready, rows := List.range Config.panelRows }

/-- Whether the waveform store holds an active table (R64). -/
def tableHeld (s : Part) : Bool := decide ((slot s Config.waveformSlot).state = .ready)

/-! ### Download records -/

/-- A download record. -/
def record (s : Part) (r : Nat) : Record := tableGet s.spool.records r freeRecord

/-- A download record replaced. -/
def setRecord (r : Nat) (v : Record) (s : Part) : Part :=
  { s with spool := { s.spool with records := tableSet s.spool.records r v } }

/-- A download record changed. -/
def modifyRecord (r : Nat) (f : Record → Record) (s : Part) : Part := setRecord r (f (record s r)) s

/-- The records with their indexes. -/
def records (s : Part) : List (Nat × Record) := s.spool.records.toList.zipIdx.map fun x => (x.2, x.1)

/-! ### The other blocks -/

/-- The flash engine changed. -/
def modifyFlash (f : Flash → Flash) (s : Part) : Part := { s with flash := f s.flash }

/-- The journal changed. -/
def modifyJournal (f : Journal → Journal) (s : Part) : Part := modifyFlash (fun x => { x with journal := f x.journal }) s

/-- The power controller changed. -/
def modifyPower (f : Power → Power) (s : Part) : Part := { s with power := f s.power }

/-- The spool controller changed. -/
def modifySpool (f : Spool → Spool) (s : Part) : Part := { s with spool := f s.spool }

/-- The update engine changed. -/
def modifyEngine (f : Engine → Engine) (s : Part) : Part := { s with engine := f s.engine }

/-- The turn controller changed. -/
def modifyTurn (f : Turn → Turn) (s : Part) : Part := { s with turn := f s.turn }

/-- The light controller changed. -/
def modifyLight (f : Light → Light) (s : Part) : Part := { s with light := f s.light }

/-- The waveform unit changed. -/
def modifyWave (f : Wave → Wave) (s : Part) : Part := { s with wave := f s.wave }

/-- The rights unit changed. -/
def modifyRights (f : RightsUnit → RightsUnit) (s : Part) : Part := { s with rights := f s.rights }

/-- A free value has been taken: the next one is a new one. -/
def stepFresh (s : Part) : Part := { s with fresh := s.fresh + 1 }

/-- Whether the part runs at all: it is supplied and RESET_N is high (R128). -/
def alive (s : Part) : Bool := s.supply && !s.pins.resetLow

/-- What the part does while it runs, and nothing while it is unsupplied or held in reset. -/
def whileRunning (f : Part → Part) (s : Part) : Part := if alive s then f s else s

/-- The answer of a command that completes: the next state, with the queue as it is. -/
def done (f : Part → Part) (s : State) : Host.Outcome State Fault Refusal := .next { s with part := f s.part }

end Sys2Proof.Machine
end

