-- ==== Sys2Proof/Machine/Operands.lean ====
section
/-! DEFINITION. The operand forms: the codes of R190 and R196, the command table of R197 with the capabilities of
R180, the framing of R188 and R189, and the regions and byte runs that parameters name (R8, R9, R40). -/

namespace Sys2Proof.Machine

/-! ### Codes -/

/-- A mode parameter (R196); none names no mode. -/
def modeOf (b : Byte) : Option Mode :=
  match b.toNat with
  | 0 => some .full
  | 1 => some .gray
  | 2 => some .quick
  | _ => none

/-- The code of a mode (R196). -/
def modeCode : Mode → Nat
  | .full => 0
  | .gray => 1
  | .quick => 2

/-- A flag parameter that must be 0 or 1. -/
def flagOf (b : Byte) : Option Bool :=
  match b.toNat with
  | 0 => some false
  | 1 => some true
  | _ => none

/-- The code of a port parameter (R196). -/
def portOf (b : Byte) : Option Port :=
  match b.toNat with
  | 0 => some .A
  | 1 => some .B
  | _ => none

/-- The value of a result code in status byte 0 (R190). -/
def resultValue : ResultCode → Nat
  | .ok => 0
  | .clipped => 1
  | .absorbed => 2
  | .referred => 3
  | .woken => 4
  | .starting => 5
  | .aborted => 6
  | .denied => 7
  | .busy => 8
  | .badParam => 9
  | .badState => 10
  | .slotOwned => 11
  | .slotBusy => 12
  | .queueFull => 13
  | .emptyRegion => 14
  | .noWaveform => 15
  | .noRecord => 16
  | .noSpace => 17
  | .lowBattery => 18
  | .notWriter => 19
  | .outOfOrder => 20
  | .overrun => 21
  | .ringFull => 22
  | .short => 23
  | .worn => 24
  | .noRequest => 25
  | .atEnd => 26
  | .gone => 27
  | .expired => 28
  | .peerGone => 29

/-- The code of a power state (R190); OFF has none, since nothing is driven there. -/
def powerCode : PowerState → Nat
  | .off => 0
  | .boot => 1
  | .active => 2
  | .settling => 3
  | .hold => 4

/-- The code of a battery state (R196). -/
def batteryCode : BatteryState → Nat
  | .normal => 0
  | .low => 1
  | .critical => 2
  | .cutoff => 3

/-- The code of a spool state (R195). -/
def spoolCode : SpoolState → Nat
  | .ready => 0
  | .worn => 1
  | .faulted => 2

/-- The code of a slot state (R197, "Slot table entry"). -/
def slotStateCode : SlotState → Nat
  | .empty => 0
  | .filling => 1
  | .ready => 2
  | .lost => 3

/-- The code of a record state (R197, "Directory record"). -/
def recordStateCode : RecordState → Nat
  | .free => 0
  | .opened => 1
  | .stalled => 2
  | .sealing => 3
  | .sealed => 4
  | .corrupt => 5
  | .fault => 6
  | .claimed => 7

/-- The code of a first origin (R197, "Engine state"). -/
def originCode : FirstOrigin → Nat
  | .port .A => 0
  | .port .B => 1
  | .turn => 2
  | .power => 3

/-- The port of an origin, absent for TURN and POWER (R46). -/
def originPort : FirstOrigin → Option Port
  | .port p => some p
  | _ => none

/-- The code of a clamp. -/
def clampCode : Clamp → Nat
  | .none => 0
  | .cold => 1
  | .hot => 2

/-- The code of a start-step outcome (R197, "Engine state"). -/
def outcomeCode : StartOutcome → Nat
  | .empty => 0
  | .blockedFollowUps => 1
  | .blockedPool => 2
  | .blockedNoLane => 3
  | .waveformPending => 4

/-- The code of a starvation reason (R197, "Notice record"). -/
def starveCode : StarveReason → Nat
  | .endOfList => 0
  | .notReady => 1
  | .lost => 2
  | .noWaveform => 3
  | .queue => 4
  | .sourceChanged => 5
  | .wake => 6

/-- The code of a boot reason (R197, "Notice record"). -/
def bootReasonCode : BootReason → Nat
  | .cold => 0
  | .resetLine => 1
  | .consentReset => 2
  | .powerKey => 3
  | .charger => 4
  | .alarm => 5

/-- The ECC outcome of a fetch in FETCH_READY; a page of a spool block that reads ERASED reports a correction count of
0 (R158, R197). -/
def eccCode : Ecc → Nat
  | .corrected n => n
  | .uncorrectable => 0xFE
  | .erased => 0

/-! ### The command table -/

/-- The code of a command (R197); none for an event. -/
def commandCode : Instr → Option Nat
  | .status _ => some 0x00
  | .identify _ => some 0x01
  | .noticeRead _ _ => some 0x02
  | .noticeMask _ _ _ => some 0x03
  | .slotWrite _ _ _ _ => some 0x04
  | .slotWriteRect _ _ _ _ _ _ _ => some 0x05
  | .slotPost _ _ _ => some 0x06
  | .slotDiscard _ _ => some 0x07
  | .slotRetain _ _ _ => some 0x08
  | .slotRead _ _ _ _ => some 0x09
  | .shownRead _ _ _ => some 0x0A
  | .slotTableRead _ => some 0x0B
  | .turnListSet _ _ _ _ => some 0x0C
  | .turnSettings _ _ _ => some 0x0D
  | .turnStateRead _ => some 0x0E
  | .updateSubmit _ _ _ _ _ _ _ _ _ => some 0x0F
  | .updateCancel _ => some 0x10
  | .engineRead _ => some 0x11
  | .ghostSet _ _ => some 0x12
  | .ghostClear _ => some 0x13
  | .waveformLoad _ _ => some 0x14
  | .temperatureRead _ => some 0x15
  | .lightSet _ _ _ _ => some 0x16
  | .lightRead _ => some 0x17
  | .batterySettings _ _ => some 0x18
  | .batteryRead _ => some 0x19
  | .sleep _ => some 0x1A
  | .wake _ => some 0x1B
  | .powerOff _ => some 0x1C
  | .powerPolicy _ _ _ _ => some 0x1D
  | .alarmSet _ _ => some 0x1E
  | .sleepScreenStore _ _ => some 0x1F
  | .downloadOpen _ _ _ => some 0x20
  | .chunkWrite _ _ _ _ => some 0x21
  | .downloadSeal _ _ _ => some 0x22
  | .downloadAbandon _ _ => some 0x23
  | .downloadClaim _ _ => some 0x24
  | .downloadRelease _ _ => some 0x25
  | .fetch _ _ _ _ => some 0x26
  | .fetchData _ => some 0x27
  | .directoryRead _ => some 0x28
  | .spoolFormat _ => some 0x29
  | .flashHealthRead _ => some 0x2A
  | .rightsSet _ _ _ _ _ => some 0x2B
  | .rightsStore _ => some 0x2C
  | .rightsRead _ => some 0x2D
  | .chipReset _ => some 0x2E
  | .peerRead _ => some 0x2F
  | .peerGrant _ => some 0x30
  | .peerDeny _ => some 0x31
  | .peerWithdraw _ => some 0x32
  | .unknownCommandCode _ code => some code.toNat
  | _ => none

/-- The parameter bytes of a command, as they are sent (R197). -/
def commandParams : Instr → List Byte
  | .noticeMask _ e m => leHalf e ++ [m]
  | .slotWrite _ i o _ => [i] ++ leWord o
  | .slotWriteRect _ i c y w h _ => [i] ++ leHalf c ++ leHalf y ++ leHalf w ++ leHalf h
  | .slotPost _ i k => [i] ++ leWord k
  | .slotDiscard _ i => [i]
  | .slotRetain _ i f => [i, f]
  | .slotRead _ i o l => [i] ++ leWord o ++ leWord l
  | .shownRead _ o l => leWord o ++ leWord l
  | .turnListSet _ n ps c => [n] ++ ps ++ [c]
  | .turnSettings _ l m => [l, m]
  | .updateSubmit _ i x y w h m t n => [i] ++ leHalf x ++ leHalf y ++ leHalf w ++ leHalf h ++ [m, t, n]
  | .ghostSet _ l => [l]
  | .waveformLoad _ i => [i]
  | .lightSet _ b t r => leHalf b ++ [t] ++ leHalf r
  | .batterySettings _ r => leHalf r
  | .powerPolicy _ c r z => [c, r, z]
  | .alarmSet _ n => leWord n
  | .sleepScreenStore _ i => [i]
  | .downloadOpen _ k d => leWord k ++ leWord d
  | .chunkWrite _ r o _ => [r] ++ leWord o
  | .downloadSeal _ r c => [r] ++ leWord c
  | .downloadAbandon _ r => [r]
  | .downloadClaim _ r => [r]
  | .downloadRelease _ r => [r]
  | .fetch _ r o l => [r] ++ leWord o ++ leHalf l
  | .rightsSet _ p m c d => [p] ++ leWord m ++ [c, d]
  | _ => []

/-- The number of parameter bytes of each code (R197); none names no command. -/
def paramCount (code : Nat) : Option Nat :=
  match code with
  | 0x03 => some 3
  | 0x04 => some 5
  | 0x05 => some 9
  | 0x06 => some 5
  | 0x07 => some 1
  | 0x08 => some 2
  | 0x09 => some 9
  | 0x0A => some 8
  | 0x0C => some 30
  | 0x0D => some 2
  | 0x0F => some 12
  | 0x12 => some 1
  | 0x14 => some 1
  | 0x16 => some 5
  | 0x18 => some 2
  | 0x1D => some 3
  | 0x1E => some 4
  | 0x1F => some 1
  | 0x20 => some 8
  | 0x21 => some 5
  | 0x22 => some 5
  | 0x23 => some 1
  | 0x24 => some 1
  | 0x25 => some 1
  | 0x26 => some 7
  | 0x2B => some 7
  | _ => if code ≤ 0x32 then some 0 else none

/-- The reads: the commands that return data (R188, R197). -/
def isReadCode (code : Nat) : Bool :=
  code ∈ [0x00, 0x01, 0x02, 0x09, 0x0A, 0x0B, 0x0E, 0x11, 0x15, 0x17, 0x19, 0x27, 0x28, 0x2A, 0x2D, 0x2F]

/-- The commands whose parameters data bytes follow (R197). -/
def takesData (code : Nat) : Bool := code ∈ [0x04, 0x05, 0x21]

/-- The capability each command needs (R180). -/
def needOf (code : Nat) : Need :=
  if code ∈ [0x04, 0x05, 0x06, 0x07, 0x08] then .slots
  else if code ∈ [0x0C, 0x0D] then .capability 0
  else if code ∈ [0x0F, 0x10, 0x12, 0x13] then .capability 1
  else if code = 0x16 then .capability 2
  else if code ∈ [0x18, 0x1A, 0x1B, 0x1C, 0x1D, 0x1E] then .capability 3
  else if code ∈ [0x20, 0x21, 0x22, 0x23] then .capability 4
  else if code ∈ [0x26, 0x27, 0x28] then .capability 5
  else if code ∈ [0x24, 0x25] then .capability 6
  else if code ∈ [0x14, 0x1F, 0x29, 0x2B, 0x2C, 0x2E] then .system
  else .none

/-- The commands taken in BOOT (R127, R190). -/
def takenInBoot (code : Nat) : Bool := code ∈ [0x00, 0x01, 0x02]

/-- The commands that an orderly OFF in progress does not refuse: the reads, FETCH, NOTICE MASK, POWER POLICY and the
PEER commands (R121). -/
def takenWhileOffPending (code : Nat) : Bool :=
  isReadCode code || code ∈ [0x03, 0x1D, 0x26, 0x30, 0x31, 0x32]

/-- The command of a code with its parameter bytes and data, on a port (R197). -/
def buildCommand (p : Port) (code : Nat) (b data : List Byte) : Instr :=
  let tx : Tx := { port := p, extra := data.length }
  match code with
  | 0x00 => .status ⟨p, .deselect⟩
  | 0x01 => .identify ⟨p, .deselect⟩
  | 0x02 => .noticeRead p .deselect
  | 0x03 => .noticeMask tx (halfAt b 0) (byteAt b 2)
  | 0x04 => .slotWrite p (byteAt b 0) (wordAt b 1) data
  | 0x05 => .slotWriteRect p (byteAt b 0) (halfAt b 1) (halfAt b 3) (halfAt b 5) (halfAt b 7) data
  | 0x06 => .slotPost tx (byteAt b 0) (wordAt b 1)
  | 0x07 => .slotDiscard tx (byteAt b 0)
  | 0x08 => .slotRetain tx (byteAt b 0) (byteAt b 1)
  | 0x09 => .slotRead ⟨p, .deselect⟩ (byteAt b 0) (wordAt b 1) (wordAt b 5)
  | 0x0A => .shownRead ⟨p, .deselect⟩ (wordAt b 0) (wordAt b 4)
  | 0x0B => .slotTableRead ⟨p, .deselect⟩
  | 0x0C => .turnListSet tx (byteAt b 0) ((b.drop 1).take 28) (byteAt b 29)
  | 0x0D => .turnSettings tx (byteAt b 0) (byteAt b 1)
  | 0x0E => .turnStateRead ⟨p, .deselect⟩
  | 0x0F => .updateSubmit tx (byteAt b 0) (halfAt b 1) (halfAt b 3) (halfAt b 5) (halfAt b 7) (byteAt b 9)
      (byteAt b 10) (byteAt b 11)
  | 0x10 => .updateCancel tx
  | 0x11 => .engineRead ⟨p, .deselect⟩
  | 0x12 => .ghostSet tx (byteAt b 0)
  | 0x13 => .ghostClear tx
  | 0x14 => .waveformLoad tx (byteAt b 0)
  | 0x15 => .temperatureRead ⟨p, .deselect⟩
  | 0x16 => .lightSet tx (halfAt b 0) (byteAt b 2) (halfAt b 3)
  | 0x17 => .lightRead ⟨p, .deselect⟩
  | 0x18 => .batterySettings tx (halfAt b 0)
  | 0x19 => .batteryRead ⟨p, .deselect⟩
  | 0x1A => .sleep tx
  | 0x1B => .wake tx
  | 0x1C => .powerOff tx
  | 0x1D => .powerPolicy tx (byteAt b 0) (byteAt b 1) (byteAt b 2)
  | 0x1E => .alarmSet tx (wordAt b 0)
  | 0x1F => .sleepScreenStore tx (byteAt b 0)
  | 0x20 => .downloadOpen tx (wordAt b 0) (wordAt b 4)
  | 0x21 => .chunkWrite p (byteAt b 0) (wordAt b 1) data
  | 0x22 => .downloadSeal tx (byteAt b 0) (wordAt b 1)
  | 0x23 => .downloadAbandon tx (byteAt b 0)
  | 0x24 => .downloadClaim tx (byteAt b 0)
  | 0x25 => .downloadRelease tx (byteAt b 0)
  | 0x26 => .fetch tx (byteAt b 0) (wordAt b 1) (halfAt b 5)
  | 0x27 => .fetchData ⟨p, .deselect⟩
  | 0x28 => .directoryRead ⟨p, .deselect⟩
  | 0x29 => .spoolFormat tx
  | 0x2A => .flashHealthRead ⟨p, .deselect⟩
  | 0x2B => .rightsSet tx (byteAt b 0) (wordAt b 1) (byteAt b 5) (byteAt b 6)
  | 0x2C => .rightsStore tx
  | 0x2D => .rightsRead ⟨p, .deselect⟩
  | 0x2E => .chipReset tx
  | 0x2F => .peerRead ⟨p, .deselect⟩
  | 0x30 => .peerGrant tx
  | 0x31 => .peerDeny tx
  | 0x32 => .peerWithdraw tx
  | c => .unknownCommandCode p (byteOf c)

/-- The command that a transaction spells, from its select to its deselect (R188, R189). Bits 0 to 5 of the command
byte are the code and bits 6 and 7 the width. A read whose data was not clocked out in whole bytes to its end is cut
short as a read, so that a cut STATUS is still known as one (R190). A code that names no command gives BAD_PARAM, also
where the deselect falls part-way through a byte (DESIGN CHOICE, log entry 14). -/
def commandOf (p : Port) (f : Frame) : Instr :=
  let code := f.command.toNat % 64
  if f.bits < 8 then .aborted p .commandByte
  else if f.command.toNat / 64 = 3 then .aborted p .width3
  else
    match paramCount code with
    | none => .unknownCommandCode p (byteOf code)
    | some n =>
        if f.bytes.length < n then .aborted p .fewParameters
        else if isReadCode code && (f.cutByte || !f.readAll) then .aborted p (.shortRead (byteOf code))
        else if f.cutByte then .aborted p .partialByte
        else buildCommand p code (f.bytes.take n) (f.bytes.drop n)

/-- The port a command came on. -/
def commandPort : Instr → Port
  | .noticeMask tx _ _ | .slotPost tx _ _ | .slotDiscard tx _ | .slotRetain tx _ _ | .turnListSet tx _ _ _
  | .turnSettings tx _ _ | .updateSubmit tx _ _ _ _ _ _ _ _ | .updateCancel tx | .ghostSet tx _ | .ghostClear tx
  | .waveformLoad tx _ | .lightSet tx _ _ _ | .batterySettings tx _ | .sleep tx | .wake tx | .powerOff tx
  | .powerPolicy tx _ _ _ | .alarmSet tx _ | .sleepScreenStore tx _ | .downloadOpen tx _ _ | .downloadSeal tx _ _
  | .downloadAbandon tx _ | .downloadClaim tx _ | .downloadRelease tx _ | .fetch tx _ _ _ | .spoolFormat tx
  | .rightsSet tx _ _ _ _ | .rightsStore tx | .chipReset tx | .peerGrant tx | .peerDeny tx | .peerWithdraw tx =>
      tx.port
  | .status rx | .identify rx | .slotRead rx _ _ _ | .shownRead rx _ _ | .slotTableRead rx | .turnStateRead rx | .engineRead rx
  | .temperatureRead rx | .lightRead rx | .batteryRead rx | .fetchData rx | .directoryRead rx | .flashHealthRead rx
  | .rightsRead rx | .peerRead rx => rx.port
  | .noticeRead p _ | .slotWrite p _ _ _ | .slotWriteRect p _ _ _ _ _ _ | .chunkWrite p _ _ _ | .unknownCommandCode p _
  | .aborted p _ | .portSelect p => p
  | _ => .A

/-- Whether an instruction is the sample of a read, which its deselect follows (R188). -/
def isSample : Instr → Bool
  | .status rx | .identify rx | .slotRead rx _ _ _ | .shownRead rx _ _ | .slotTableRead rx | .turnStateRead rx | .engineRead rx
  | .temperatureRead rx | .lightRead rx | .batteryRead rx | .fetchData rx | .directoryRead rx | .flashHealthRead rx
  | .rightsRead rx | .peerRead rx => decide (rx.moment = .sample)
  | .noticeRead _ m => decide (m = .sample)
  | _ => false

/-- Data bytes sent to a command that takes none (R189). Bytes clocked on a read past its parameters are the bytes it
returns, and those past the end of its data are ignored (DESIGN CHOICE, log entry 14). -/
def strayData : Instr → Nat
  | .noticeMask tx _ _ | .slotPost tx _ _ | .slotDiscard tx _ | .slotRetain tx _ _ | .turnListSet tx _ _ _
  | .turnSettings tx _ _ | .updateSubmit tx _ _ _ _ _ _ _ _ | .updateCancel tx | .ghostSet tx _ | .ghostClear tx
  | .waveformLoad tx _ | .lightSet tx _ _ _ | .batterySettings tx _ | .sleep tx | .wake tx | .powerOff tx
  | .powerPolicy tx _ _ _ | .alarmSet tx _ | .sleepScreenStore tx _ | .downloadOpen tx _ _ | .downloadSeal tx _ _
  | .downloadAbandon tx _ | .downloadClaim tx _ | .downloadRelease tx _ | .fetch tx _ _ _ | .spoolFormat tx
  | .rightsSet tx _ _ _ _ | .rightsStore tx | .chipReset tx | .peerGrant tx | .peerDeny tx | .peerWithdraw tx =>
      tx.extra
  | _ => 0

/-! ### Regions and byte runs -/

/-- The whole panel (R27). -/
def wholePanel : Rect := { xs := 0, xe := Config.panelColumns, ys := 0, ye := Config.panelRows }

/-- Whether a submitted region is empty (R40). -/
def regionEmpty (x0 y0 w h : Nat) : Bool :=
  decide (w = 0) || decide (h = 0) || decide (Config.panelColumns ≤ x0) || decide (Config.panelRows ≤ y0)

/-- The normalized rectangle of a region (R40). -/
def normalize (x0 y0 w h : Nat) : Rect :=
  { xs := x0 / 8 * 8
    xe := min ((x0 + w + 7) / 8 * 8) Config.panelColumns
    ys := y0
    ye := min (y0 + h) Config.panelRows }

/-- Whether the rectangle of a region was clamped at the right or bottom edge (R40). -/
def regionClamped (x0 y0 w h : Nat) : Bool :=
  decide (Config.panelColumns < x0 + w) || decide (Config.panelRows < y0 + h)

/-- Where each byte of a SLOT WRITE lands; none is a dropped byte (R8). -/
def runPlaces (offset : Nat) (data : List Byte) : List (Option Nat × Byte) :=
  data.zipIdx.map fun (b, i) => (if offset + i < Config.imageBytes then some (offset + i) else none, b)

/-- Where each byte of a SLOT WRITE RECT lands; none is a dropped byte (R9). -/
def rectPlaces (bc y bw h : Nat) (data : List Byte) : List (Option Nat × Byte) :=
  data.zipIdx.map fun (b, i) =>
    let col := bc + i % bw
    let row := y + i / bw
    (if i < bw * h ∧ col < Config.rowBytes ∧ row < Config.panelRows then some (Config.rowBytes * row + col) else none, b)

end Sys2Proof.Machine
end

