-- ==== Sys2Proof/Machine/Light.lean ====
section
/-! DEFINITION. The light controller (chapter 5): request, targets, ceiling and ramp. -/

namespace Sys2Proof.Machine

/-- The light level of a brightness (R85). -/
def lightLevel (brightness : Nat) : Nat := brightness * brightness / 1000

/-- The level under the ceiling (R85). -/
def limitedLevel (l : Light) : Nat := min (lightLevel l.brightness) l.ceiling

/-- The warm share of the limited level, rounded with halves up (R86). -/
def warmShare (l : Light) : Nat := (limitedLevel l * l.warmth + 50) / 100

/-- The cool share (R86). -/
def coolShare (l : Light) : Nat := limitedLevel l - warmShare l

/-- The duty of a share (R86). -/
def shareDuty (share : Nat) : Nat := share * 4095 / 1000

/-- The largest sum of applied duties under a ceiling (R88, R90). -/
def dutyLimit (ceiling : Nat) : Nat := ceiling * 4095 / 1000

/-- The ceiling of a battery state (R88). -/
def ceilingOf : BatteryState → Nat
  | .normal => 1000
  | .low => 400
  | .critical => 0
  | .cutoff => 0

/-- Whether the targets follow the request: in ACTIVE with no orderly OFF entry in progress (R87). -/
def lit (p : Power) : Bool := decide (p.state = .active) && !p.offPending

/-- The targets recomputed (R87). -/
def retarget (on : Bool) (l : Light) : Light :=
  if on then { l with warmTarget := shareDuty (warmShare l), coolTarget := shareDuty (coolShare l) }
  else { l with warmTarget := 0, coolTarget := 0 }

/-- The part's targets recomputed from its request, ceiling, power state and off-pending flag (R87). -/
def recomputeLight (s : Part) : Part := modifyLight (retarget (lit s.power)) s

/-- A battery state's ceiling taken: the targets follow, and a drop cuts each channel above its target (R88). -/
def takeCeiling (ceiling : Nat) (on : Bool) (l : Light) : Light :=
  let l' := retarget on { l with ceiling := ceiling }
  if ceiling < l.ceiling then { l' with warm := min l'.warm l'.warmTarget, cool := min l'.cool l'.coolTarget } else l'

/-- One channel moved toward its target by at most the step (R89). -/
def rampToward (step applied target : Nat) : Nat :=
  if applied < target then applied + min step (target - applied) else applied - min step (applied - target)

/-- One ramp tick of both channels (R89). -/
def rampLight (l : Light) : Light :=
  { l with warm := rampToward l.step l.warm l.warmTarget, cool := rampToward l.step l.cool l.coolTarget }

/-- A request replaced, each value clamped into its range (R84). -/
def takeRequest (brightness warmth step : Nat) (l : Light) : Light :=
  { l with brightness := min brightness 1000, warmth := min warmth 100, step := min (max step 1) 4095 }

/-- The light at OFF entry and at the beginning of a forced one: duties, targets and request at their defaults, the
ceiling as the battery state has it (R94, R96, R123). -/
def darkLight (l : Light) : Light := { defaultLight with ceiling := l.ceiling }

/-- Whether either applied duty differs from its target (R95). -/
def ramping (l : Light) : Bool := decide (l.warm ≠ l.warmTarget) || decide (l.cool ≠ l.coolTarget)

/-- The level of a PWM output in a step, 0 to 4,095, of its period: high for as many steps as the applied duty (R91),
which are the first ones of the period (DESIGN CHOICE, log entry 44). -/
def pwmHigh (duty step : Nat) : Bool := decide (step < duty)

/-- The level of LED_WARM in a step of a PWM period that begins now (R91). -/
def ledWarm (s : Part) (step : Nat) : Bool := pwmHigh s.light.warm step

/-- The level of LED_COOL in a step of a PWM period that begins now (R91). -/
def ledCool (s : Part) (step : Nat) : Bool := pwmHigh s.light.cool step

/-- The current the light draws, as the battery monitor counts it (R92, R100). -/
def lightCurrent (l : Light) : Nat := (l.warm + l.cool) * 30 / 4095

/-- LIGHT SET's effect (R84). -/
def setLight (brightness : Half) (warmth : Byte) (step : Half) (s : Part) : Part × Option Reply :=
  (recomputeLight (modifyLight (takeRequest brightness.toNat warmth.toNat step.toNat) s), some { code := .ok })

/-- The bytes of LIGHT READ (R95, R197). -/
def lightBytes (s : Part) : List Byte :=
  let l := s.light
  le2 l.brightness ++ [byteOf l.warmth] ++ le2 l.step ++ le2 (lightLevel l.brightness) ++ le2 (limitedLevel l)
    ++ le2 (warmShare l) ++ le2 (coolShare l) ++ le2 l.ceiling ++ [byteOf (batteryCode s.battery.state)]
    ++ le2 l.warmTarget ++ le2 l.coolTarget ++ le2 l.warm ++ le2 l.cool
    ++ [byteOf (flagBit 0 (ramping l) + flagBit 1 s.power.offPending)]

end Sys2Proof.Machine
end

