-- ==== Sys2Proof/Machine/Waveform.lean ====
section
/-! DEFINITION. The waveform tables, temperature bands, drive codes and ghost tiles (chapter 4). -/

namespace Sys2Proof.Machine

/-! ### The table file (R65, R66, R197) -/

/-- One byte of the active table: slot 29 from offset 0 (R64). -/
def activeByte (s : Part) (i : Nat) : Byte := cell s Config.waveformSlot i

/-- One byte of the incoming place (R64). -/
def incomingByte (s : Part) (i : Nat) : Byte := cell s Config.waveformSlot (Config.incomingOffset + i)

/-- Where band block k begins in a file. -/
def bandOffset (k : Nat) : Nat := 8 + 4419 * k

/-- The frame count of a mode in a band, by the file's bytes (R65). -/
def frameCountIn (file : Nat → Byte) (band : Nat) (m : Mode) : Nat := (file (bandOffset band + modeCode m)).toNat

/-- The two bits of frame position f in a sequence beginning at `start`. -/
def codeIn (file : Nat → Byte) (start f : Nat) : Nat := (file (start + f / 4)).toNat / 4 ^ (f % 4) % 4

/-- The drive code of a two-bit value; 3 is invalid and a validated table holds none (R66). -/
def driveOf (n : Nat) : DriveCode :=
  match n with
  | 1 => .darken
  | 2 => .lighten
  | _ => .none

/-- The table identifier of a file (R65). -/
def tableId (file : Nat → Byte) : Word := file 7 ++ file 6 ++ file 5 ++ file 4

/-- No two-bit code of a byte is the invalid one. -/
def codesValid (b : Byte) : Bool := (List.range 4).all fun i => decide (b.toNat / 4 ^ i % 4 ≠ 3)

/-- One band block is valid: its three frame counts in 1 to 64, its 276 sequences without the invalid code (R66). -/
def bandValid (bs : List Byte) (k : Nat) : Bool :=
  ((List.range 3).all fun i =>
      let n := (byteAt bs (bandOffset k + i)).toNat
      decide (1 ≤ n) && decide (n ≤ 64))
    && ((bs.drop (bandOffset k + 3)).take 4416).all codesValid

/-- The checks of R66 on a file's bytes. -/
def tableValid (bs : List Byte) : Bool :=
  decide (bs.length = Config.tableBytes)
    && decide (crc32 (bs.take 53036) = wordAt bs 53036)
    && decide (halfAt bs 0 = 1) && decide (byteAt bs 2 = 12) && decide (byteAt bs 3 = 64)
    && (List.range 12).all (bandValid bs)

/-- The file replaced at a place of slot 29. -/
def placeTable (offset : Nat) (bs : List Byte) (s : Part) : Part :=
  setDram (Memory.writeRun s.store.dram (dramAddress Config.waveformSlot offset) bs) s

/-- The bytes of the incoming place. -/
def incomingTable (s : Part) : List Byte := (List.range Config.tableBytes).map (incomingByte s)

/-- Activation of the incoming table (R69). -/
def activateTable (s : Part) : Part :=
  modifyWave (fun w => { w with replacementPending := false })
    (setSlot Config.waveformSlot imageSlot (placeTable 0 (incomingTable s) s))

/-! ### Temperature (section 4.4) -/

/-- A sensor value clamped into −160 to +400 (R71). -/
def clampTemperature (c : Int) : Int := max (-160) (min c 400)

/-- A temperature sample of the input as it stands (R71). -/
def sampleTemperature (s : Part) : Part :=
  modifyWave (fun w => { w with reading := some (clampTemperature s.pins.tempSense), age := 0 }) s

/-- The band of a reading (R72). -/
def bandOf (c : Int) : Nat := if c < 0 then 0 else if 192 ≤ c then 11 else (c / 16).toNat

/-- The clamp of a reading (R72). -/
def clampOf (c : Int) : Clamp := if c < 0 then .cold else if 192 ≤ c then .hot else .none

/-- The reading an item starts from (R72). -/
def startReading (s : Part) : Int := s.wave.reading.getD Config.unsampledTemperature

/-! ### Modes and drive (section 4.5) -/

/-- A level as QUICK takes it: black below 8, white from 8 on (R73). -/
def threshold (n : Nat) : Nat := if 8 ≤ n then 15 else 0

/-- Whether a pixel is driven in a mode, from its old level to its source level (R73). -/
def driven (m : Mode) (o n : Nat) : Bool :=
  match m with
  | .full => true
  | .gray => decide (o ≠ n)
  | .quick => decide (threshold o ≠ threshold n)

/-- The target level of a pixel (R74). -/
def targetLevel (m : Mode) (o n : Nat) : Nat :=
  match m with
  | .full => n
  | .gray => n
  | .quick => if threshold o = threshold n then o else threshold n

/-- Where the sequence for a mode, an old level and a new level begins in a band block (R73, R197). -/
def sequenceOffset (m : Mode) (o n : Nat) : Nat :=
  match m with
  | .full => 3 + 16 * n
  | .gray => 259 + 16 * (16 * o + n)
  | .quick => 4355 + 16 * (2 * (threshold o / 15) + threshold n / 15)

/-- The drive code of a pixel in frame position f (R73). -/
def driveCode (file : Nat → Byte) (m : Mode) (band f o n : Nat) : DriveCode :=
  if driven m o n then driveOf (codeIn file (bandOffset band + sequenceOffset m o n) f) else .none

/-! ### Ghost tiles (section 4.6) -/

/-- Whether a rectangle touches tile (c, r) (R76). -/
def touches (q : Rect) (c r : Nat) : Bool :=
  decide (q.xs / 104 ≤ c) && decide (c ≤ (q.xe - 1) / 104) && decide (q.ys / 104 ≤ r) && decide (r ≤ (q.ye - 1) / 104)

/-- Whether tile (c, r) lies wholly inside a rectangle (R76). -/
def inside (q : Rect) (c r : Nat) : Bool :=
  decide (q.xs ≤ 104 * c) && decide (104 * c + 104 ≤ q.xe) && decide (q.ys ≤ 104 * r) && decide (104 * r + 104 ≤ q.ye)

/-- The tile counts with each touched tile changed; tile (c, r) stands at place 12 r + c (R197, "Unit state"). -/
def changeTiles (q : Rect) (f : Bool → Nat → Nat) (t : Vector Nat 192) : Vector Nat 192 :=
  tableMapIdx (fun i n => if touches q (i % 12) (i / 12) then f (inside q (i % 12) (i / 12)) n else n) t

/-- The counts after a lane of an applied mode completes (R77). -/
def completeTiles (m : Mode) (q : Rect) : Vector Nat 192 → Vector Nat 192 :=
  changeTiles q fun whole n => if m = .full && whole then 0 else min 15 (n + 1)

/-- The largest count among the tiles a rectangle touches (R79). -/
def largestCount (q : Rect) (t : Vector Nat 192) : Nat :=
  (t.toList.zipIdx.map fun (n, i) => if touches q (i % 12) (i / 12) then n else 0).foldl max 0

/-- Promotion: the requested mode is not FULL and a touched tile is at or above the limit (R79). -/
def promotes (s : Part) (q : Rect) (m : Mode) : Bool :=
  decide (m ≠ .full) && decide (s.engine.ghostLimit ≤ largestCount q s.engine.tiles)

/-- Demotion: the mode is FULL, requested or promoted, and the battery is CRITICAL (R79). -/
def demotes (s : Part) (q : Rect) (m : Mode) : Bool :=
  (decide (m = .full) || promotes s q m) && decide (s.battery.state = .critical)

/-- The applied mode of an item (R79). -/
def appliedMode (s : Part) (q : Rect) (m : Mode) : Mode :=
  if demotes s q m then .gray else if promotes s q m then .full else m

/-- GHOST SET's effect (R80). -/
def setGhostLimit (limit : Byte) (s : Part) : Part × Option Reply :=
  (modifyEngine (fun e => { e with ghostLimit := min (max limit.toNat 1) 15 }) s, some { code := .ok })

/-- GHOST CLEAR's effect (R80). -/
def clearGhosts (s : Part) : Part × Option Reply :=
  (modifyEngine (fun e => { e with tiles := Vector.replicate 192 15 }) s, some { code := .ok })

/-- The bytes of TEMPERATURE READ (R81, R197). -/
def temperatureBytes (s : Part) : List Byte :=
  let w := s.wave
  let held := tableHeld s
  let band := w.reading.map bandOf
  let frames := fun m => match band with
    | some k => if held then some (frameCountIn (activeByte s) k m) else none
    | none => none
  [byteOf (flagBit 0 w.reading.isSome + flagBit 1 held + flagBit 2 w.replacementPending + flagBit 3 w.reprogram)]
    ++ leHalf (BitVec.ofInt 16 (w.reading.getD 0))
    ++ wordOrAbsent (w.reading.map fun _ => BitVec.ofNat 32 w.age)
    ++ [byteOrAbsent band, byteOrAbsent (w.reading.map fun c => clampCode (clampOf c))]
    ++ wordOrAbsent (if held then some (tableId (activeByte s)) else none)
    ++ [byteOrAbsent (frames .full), byteOrAbsent (frames .gray), byteOrAbsent (frames .quick)]
    ++ wordOrAbsent (if w.replacementPending then some (tableId (incomingByte s)) else none)
    ++ [byteOf s.engine.ghostLimit] ++ s.engine.tiles.toList.map byteOf

end Sys2Proof.Machine
end

