-- ==== Sys2Proof/Machine/Engine.lean ====
section
/-! DEFINITION. The update engine (chapter 3): rectangles, the submission queue, the release list, the lanes, the frame
boundary and abort. -/

namespace Sys2Proof.Machine

/-! ### Rectangles -/

/-- Whether a rectangle covers no pixel. -/
def Rect.void (q : Rect) : Bool := decide (q.xe ≤ q.xs) || decide (q.ye ≤ q.ys)

/-- The intersection of two rectangles; none when they share no pixel (R52). -/
def Rect.meet (a b : Rect) : Option Rect :=
  let q : Rect := { xs := max a.xs b.xs, xe := min a.xe b.xe, ys := max a.ys b.ys, ye := min a.ye b.ye }
  if q.void then none else some q

/-- Whether `a` contains every pixel of `b` (R41). -/
def Rect.contains (a b : Rect) : Bool :=
  decide (a.xs ≤ b.xs) && decide (b.xe ≤ a.xe) && decide (a.ys ≤ b.ys) && decide (b.ye ≤ a.ye)

/-- What is left of a rectangle outside another, as disjoint rectangles. -/
def Rect.minus (a b : Rect) : List Rect :=
  match a.meet b with
  | none => [a]
  | some i =>
      [{ a with ye := i.ys }, { a with ys := i.ye }, { i with xs := a.xs, xe := i.xs }, { i with xs := i.xe, xe := a.xe }].filter
        fun q => !q.void

/-- What is left of a rectangle outside a list of others (R52, R56). -/
def Rect.minusAll (a : Rect) (bs : List Rect) : List Rect :=
  bs.foldl (fun left b => left.flatMap fun q => q.minus b) [a]

/-- The pixels of a rectangle, row by row. -/
def Rect.pixels (q : Rect) : List (Nat × Nat) :=
  (List.range (q.ye - q.ys)).flatMap fun dy => (List.range (q.xe - q.xs)).map fun dx => (q.xs + dx, q.ys + dy)

/-- The pixels of a lane's driven area: its rectangle less the union of its exclusions (R56). -/
def drivenPixels (l : Lane) : List (Nat × Nat) := (l.update.rect.minusAll l.exclusions).flatMap Rect.pixels

/-! ### The queue and the follow-ups -/

/-- The lanes with their indexes. -/
def laneList (e : Engine) : List (Nat × Option Lane) := e.lanes.toList.zipIdx.map fun x => (x.2, x.1)

/-- The running lanes with their indexes, ascending. -/
def runningLanes (e : Engine) : List (Nat × Lane) :=
  (laneList e).filterMap fun x => x.2.map fun l => (x.1, l)

/-- Whether any lane is RUNNING. -/
def anyLane (e : Engine) : Bool := e.lanes.toList.any Option.isSome

/-- A lane replaced. -/
def setLane (i : Nat) (v : Option Lane) (e : Engine) : Engine := { e with lanes := tableSet e.lanes i v }

/-- The follow-up pool: the follow-ups in existence, attached or released (R46). -/
def Engine.pool (e : Engine) : Nat :=
  e.release.length + ((runningLanes e).map fun x => x.2.followUps.length).sum

/-- The ordinary places in use (R43). -/
def ordinaryPlaces (e : Engine) : Nat := (e.queue.filter fun u => decide (u.origin ≠ .power)).length

/-- Whether the queue has room for a TURN entry (R27). -/
def roomForTurn (e : Engine) : Bool :=
  decide (ordinaryPlaces e < 16) || e.queue.any fun u => decide (u.origin = .turn)

/-- Whether an update is TURN-origin and of another item than `keep`. -/
def otherTurn (keep : Option Nat) (u : Update) : Bool := decide (u.origin = .turn) && decide (keep ≠ some u.serial)

/-- The waiting TURN-origin update removed, but for the item `keep` (R28, R45, R54). -/
def removeTurn (keep : Option Nat) (e : Engine) : Engine :=
  { e with
    queue := e.queue.filter fun u => !otherTurn keep u
    release := e.release.filter fun u => !otherTurn keep u
    lanes := tableMap (Option.map fun l => { l with followUps := l.followUps.filter fun u => !otherTurn keep u }) e.lanes }

/-- An update joined to the queue's tail, with the next serial (R43). -/
def enqueue (u : Update) (e : Engine) : Engine :=
  { e with queue := e.queue ++ [{ u with serial := e.nextSerial }], nextSerial := e.nextSerial + 1 }

/-- A TURN entry placed from a slot, the waiting TURN-origin update removed first (R27, R28). -/
def placeTurn (source : Nat) (mode : Mode) (e : Engine) : Engine :=
  enqueue { origin := .turn, source := source, rect := wholePanel, mode := mode, tag := 0, notify := false, serial := 0 }
    (removeTurn none e)

/-- A POWER entry placed from a slot, a waiting POWER entry removed first (R36, R43, R113). -/
def placePower (source : Nat) (e : Engine) : Engine :=
  enqueue { origin := .power, source := source, rect := wholePanel, mode := .full, tag := 0, notify := false, serial := 0 }
    { e with queue := e.queue.filter fun u => decide (u.origin ≠ .power) }

/-! ### Notices of the engine -/

/-- The detail of TURN_STARVED (R29, R197). -/
def starveDetail (t : Turn) (d : Int) (reason : StarveReason) (blocked : Option Nat) : List Byte :=
  [signedByte d, byteOf (starveCode reason), byteOrAbsent t.cursor, byteOrAbsent blocked, signedByte t.backlog]

/-- TURN_STARVED raised on Port A (R29). -/
def starve (d : Int) (reason : StarveReason) (blocked : Option Nat) (s : Part) : Part :=
  raise .A .turnStarved (starveDetail s.turn d reason blocked) s

/-- UPDATE_DONE of an item whose notify flag is set (R59). -/
def raiseDone (u : Update) (outcome flags : Nat) (mode frames : Option Nat) (s : Part) : Part :=
  match originPort u.origin with
  | some p =>
      if u.notify then
        raise p .updateDone
          [u.tag, byteOf outcome, byteOf flags, byteOf u.source, byteOrAbsent mode, byteOrAbsent frames] s
      else s
  | none => s

/-- The flags of UPDATE_DONE for a completed lane (R59, R197). -/
def doneFlags (l : Lane) : Nat :=
  flagBit 0 l.followUp + flagBit 1 l.promoted + flagBit 2 l.demoted + flagBit 3 (decide (l.clamp = .cold))
    + flagBit 4 (decide (l.clamp = .hot))

/-! ### Completion (R58) -/

/-- The level of a pixel in the shown image. -/
def shownLevel (s : Part) (x y : Nat) : Nat := pixelLevel (cell s Config.shownSlot (pixelOffset x y)) x

/-- A pixel's level placed in an image byte (R197, "Slot pixel packing"). -/
def withLevel (b : Byte) (x n : Nat) : Byte :=
  if x % 2 = 0 then byteOf (b.toNat / 16 * 16 + n) else byteOf (n * 16 + b.toNat % 16)

/-- One pixel of the shown image set to its target level (R74); the levels it is computed from are those of `s`. -/
def showPixel (s : Part) (l : Lane) (m : List Host.Cell) (xy : Nat × Nat) : List Host.Cell :=
  let a := dramAddress Config.shownSlot (pixelOffset xy.1 xy.2)
  let n := targetLevel l.applied (shownLevel s xy.1 xy.2) (level s l.update.source xy.1 xy.2)
  Memory.write m a (withLevel (Memory.read m a) xy.1 n)

/-- The shown image after a lane's completion (R58, step 1). -/
def showLane (l : Lane) (s : Part) : Part := setDram ((drivenPixels l).foldl (showPixel s l) s.store.dram) s

/-- A lane completes (R58). -/
def completeLane (i : Nat) (l : Lane) (s : Part) : Part :=
  let s := showLane l s
  let s := modifyEngine (fun e => { e with tiles := completeTiles l.applied l.update.rect e.tiles }) s
  let s := modifySlot l.update.source (fun v => { v with showing := v.showing - 1 }) s
  let s := modifyEngine (fun e => { e with release := e.release ++ l.followUps }) s
  let s := raiseDone l.update 0 (doneFlags l) (some (modeCode l.applied)) (some l.frames) s
  modifyEngine (setLane i none) s

/-- Step 1 of a boundary: every lane whose frames are all driven completes, in ascending order (R48). -/
def completions (s : Part) : Part :=
  (runningLanes s.engine).foldl
    (fun s x => if x.2.frames ≤ x.2.index then completeLane x.1 x.2 s else s) s

/-- Step 2: a pending replacement is activated when no lane runs (R48, R69). -/
def activation (s : Part) : Part :=
  if s.wave.replacementPending && !anyLane s.engine then activateTable s else s

/-! ### The start step (R49 to R55) -/

/-- The running lanes an item meets, with the intersections, ascending (R52). -/
def meetings (q : Rect) (e : Engine) : List (Nat × Lane × Rect) :=
  (runningLanes e).filterMap fun x => (q.meet x.2.update.rect).map fun r => (x.1, x.2, r)

/-- The lowest-index IDLE lane (R55). -/
def idleLane (e : Engine) : Option Nat := ((laneList e).find? fun x => x.2.isNone).map Prod.fst

/-- One follow-up attached to each lane met (R54). -/
def attach (u : Update) (ms : List (Nat × Lane × Rect)) (e : Engine) : Engine :=
  ms.foldl
    (fun e m => setLane m.1 (some { m.2.1 with followUps := m.2.1.followUps ++ [{ u with rect := m.2.2 }] }) e) e

/-- The head of the release list or of the queue leaves it. -/
def dropHead (released : Bool) (e : Engine) : Engine :=
  if released then { e with release := e.release.tail } else { e with queue := e.queue.tail }

/-- An item discarded at the source check (R50). -/
def discard (released : Bool) (u : Update) (s : Part) : Part :=
  let s := modifyEngine (dropHead released) s
  let s := raiseDone u 1 (flagBit 0 released) none none s
  if u.origin = .turn then starve 0 .sourceChanged (some u.source) s else s

/-- The lane record of an item that starts (R51, R55, R56). -/
def laneOf (released : Bool) (u : Update) (ms : List (Nat × Lane × Rect)) (s : Part) : Lane :=
  let c := startReading s
  let applied := appliedMode s u.rect u.mode
  { update := u, followUp := released, exclusions := ms.map fun m => m.2.2, applied := applied,
    promoted := promotes s u.rect u.mode, demoted := demotes s u.rect u.mode, band := bandOf c, clamp := clampOf c,
    frames := frameCountIn (activeByte s) (bandOf c) applied, index := 0, followUps := [] }

/-- An item committed: its follow-ups attached, itself out of its collection, and a lane taken unless it is fully
covered (R54, R55). -/
def commit (released : Bool) (u : Update) (ms : List (Nat × Lane × Rect)) (covered : Bool) (s : Part) : Part :=
  let lane := laneOf released u ms s
  let s := modifyEngine (fun e => attach u ms (dropHead released e)) s
  let s := if u.origin = .turn && !ms.isEmpty then modifyEngine (removeTurn (some u.serial)) s else s
  if covered then s
  else
    match idleLane s.engine with
    | some i =>
        modifySlot u.source (fun v => { v with showing := v.showing + 1 }) (modifyEngine (setLane i (some lane)) s)
    | none => s

/-- One item considered at the head of its collection (R49, R50, R53): the part after it, and the cause if it is
blocked. -/
def consider (released : Bool) (u : Update) (s : Part) : Part × Option StartOutcome :=
  if (slot s u.source).state ≠ .ready then (discard released u s, none)
  else
    let ms := meetings u.rect s.engine
    let covered := (u.rect.minusAll (ms.map fun m => m.2.2)).isEmpty
    if ms.any fun m => decide (4 ≤ m.2.1.followUps.length) then (s, some .blockedFollowUps)
    else if 32 < s.engine.pool - (if released then 1 else 0) + ms.length then (s, some .blockedPool)
    else if !covered && (idleLane s.engine).isNone then (s, some .blockedNoLane)
    else (commit released u ms covered s, none)

/-- The head that the start step takes: of the release list while it is not empty, then of the queue (R49). -/
def head (e : Engine) : Option (Bool × Update) :=
  match e.release with
  | u :: _ => some (true, u)
  | [] =>
      match e.queue with
      | u :: _ => some (false, u)
      | [] => none

/-- Items considered until both collections are empty or one is blocked (R49). -/
def startItems : Nat → Part → Part
  | 0, s => s
  | n + 1, s =>
      match head s.engine with
      | none => modifyEngine (fun e => { e with outcome := .empty }) s
      | some (released, u) =>
          match consider released u s with
          | (s, some cause) => modifyEngine (fun e => { e with outcome := cause }) s
          | (s, none) => startItems n s

/-- Step 3: the start step, not made while a replacement is pending (R49). Every item considered leaves its collection
or ends the step, so their number bounds it. -/
def startStep (s : Part) : Part :=
  if s.wave.replacementPending then modifyEngine (fun e => { e with outcome := .waveformPending }) s
  else startItems (s.engine.release.length + s.engine.queue.length + 1) s

/-! ### Drive (R57) -/

/-- The codes a lane gives its pixels in its next frame. -/
def laneCodes (s : Part) (l : Lane) : List (Nat × DriveCode) :=
  (drivenPixels l).filterMap fun xy =>
    let c := driveCode (activeByte s) l.applied l.band l.index (shownLevel s xy.1 xy.2) (level s l.update.source xy.1 xy.2)
    if c = .none then none else some (Config.panelColumns * xy.2 + xy.1, c)

/-- Step 4: every running lane drives one frame (R57). -/
def drive (s : Part) : Part :=
  let codes := (runningLanes s.engine).flatMap fun x => laneCodes s x.2
  modifyEngine
    (fun e => { e with panel := codes, lanes := tableMap (Option.map fun l => { l with index := l.index + 1 }) e.lanes }) s

/-- A frame boundary (R48). -/
def boundary (s : Part) : Part := drive (startStep (activation (completions s)))

/-! ### Abort (R60) -/

/-- All the engine's work aborted: the tiles touched by the aborted lanes at 15, every lane IDLE, every collection
empty, every showing count 0 (R60). -/
def abortEngine (s : Part) : Part :=
  let tiles := (runningLanes s.engine).foldl (fun t x => changeTiles x.2.update.rect (fun _ _ => 15) t) s.engine.tiles
  let s := modifyEngine
    (fun e => { e with queue := [], release := [], lanes := Vector.replicate 8 none, tiles := tiles, panel := [] }) s
  { s with store := { s.store with slots := tableMap (fun v => { v with showing := 0 }) s.store.slots } }

/-! ### The commands of the engine -/

/-- How strong a requested mode is: FULL, GRAY, QUICK (R41). -/
def atLeastAsStrong (a b : Mode) : Bool := decide (modeCode a ≤ modeCode b)

/-- Whether a waiting entry covers a submission (R41). -/
def covers (e u : Update) : Bool :=
  decide (e.origin = u.origin) && decide (e.source = u.source) && e.rect.contains u.rect && atLeastAsStrong e.mode u.mode

/-- The first covering entry takes the submission's notify (R41): the queue, and the covering entry's tag. -/
def absorb (u : Update) : List Update → Option (List Update × Byte)
  | [] => none
  | e :: es =>
      if covers e u then some ({ e with notify := e.notify || u.notify } :: es, e.tag)
      else (absorb u es).map fun x => (e :: x.1, x.2)

/-- Whether a port's slot mask holds a slot (R178). -/
def maskHolds (s : Part) (p : Port) (i : Nat) : Bool := (s.rights.records.get p).mask.getLsbD i

/-- UPDATE SUBMIT's checks and placement (R39 to R42). -/
def submitUpdate (p : Port) (source : Byte) (x0 y0 w h : Half) (mode tag notify : Byte) (s : Part) :
    Part × Option Reply :=
  let i := source.toNat
  match modeOf mode, flagOf notify with
  | some m, some n =>
      if Config.pageSlots ≤ i then (s, some { code := .badParam })
      else if !maskHolds s p i then (s, some { code := .denied })
      else if s.power.asleep then (s, some { code := .badState })
      else if regionEmpty x0.toNat y0.toNat w.toNat h.toNat then (s, some { code := .emptyRegion })
      else if !tableHeld s then (s, some { code := .noWaveform })
      else
        let u : Update :=
          { origin := .port p, source := i, rect := normalize x0.toNat y0.toNat w.toNat h.toNat, mode := m, tag := tag,
            notify := n, serial := 0 }
        match absorb u s.engine.queue with
        | some (queue, t) =>
            (modifyEngine (fun e => { e with queue := queue }) s, some { code := .absorbed, value := t.setWidth 32 })
        | none =>
            if 16 ≤ ordinaryPlaces s.engine then (s, some { code := .queueFull })
            else
              (modifyEngine (enqueue u) s,
                some { code := if regionClamped x0.toNat y0.toNat w.toNat h.toNat then .clipped else .ok })
  | _, _ => (s, some { code := .badParam })

/-- UPDATE CANCEL's effect: the port's entries removed from the queue and counted (R44). -/
def cancelUpdates (p : Port) (s : Part) : Part × Option Reply :=
  let mine := fun u : Update => decide (u.origin = .port p)
  (modifyEngine (fun e => { e with queue := e.queue.filter fun u => !mine u }) s,
    some { code := .ok, value := BitVec.ofNat 32 (s.engine.queue.filter mine).length })

/-! ### ENGINE READ (R62, R197) -/

/-- A rectangle's four fields. -/
def rectBytes (q : Rect) : List Byte := le2 q.xs ++ le2 q.xe ++ le2 q.ys ++ le2 q.ye

/-- An update's port field. -/
def updatePort (u : Update) : Byte := byteOrAbsent ((originPort u.origin).map portCode)

/-- A lane record of 22 bytes. -/
def laneBytes : Option Lane → List Byte
  | none => padTo 22 [0]
  | some l =>
      [1, byteOf (originCode l.update.origin + if l.followUp then 4 else 0), updatePort l.update, byteOf l.update.source]
        ++ rectBytes l.update.rect
        ++ [byteOf l.exclusions.length, byteOf (modeCode l.applied), byteOf (flagBit 0 l.promoted + flagBit 1 l.demoted),
            byteOf l.band, byteOf (clampCode l.clamp), byteOf l.frames, byteOf l.index, l.update.tag,
            byteOf l.update.notify.toNat, byteOf l.followUps.length]

/-- A queue place of 15 bytes. -/
def queueBytes (u : Update) : List Byte :=
  [byteOf (originCode u.origin), updatePort u, byteOf u.source] ++ rectBytes u.rect
    ++ [byteOf (modeCode u.mode), u.tag, byteOf u.notify.toNat, byteOf (decide (u.origin = .power)).toNat]

/-- A release place of 13 bytes. -/
def releaseBytes (u : Update) : List Byte :=
  [byteOf (originCode u.origin), updatePort u, byteOf u.source] ++ rectBytes u.rect ++ [byteOf (modeCode u.mode), u.tag]

/-- The 852 bytes of ENGINE READ. -/
def engineBytes (s : Part) : List Byte :=
  let e := s.engine
  e.lanes.toList.flatMap laneBytes
    ++ [byteOf e.queue.length] ++ padTo 255 (e.queue.flatMap queueBytes)
    ++ [byteOf e.release.length] ++ padTo 416 (e.release.flatMap releaseBytes)
    ++ [byteOf e.pool, byteOf (outcomeCode e.outcome), byteOf s.wave.replacementPending.toNat]

end Sys2Proof.Machine
end

