-- ==== Sys2Proof/Machine/Battery.lean ====
section
/-! DEFINITION. The battery monitor (chapter 6): a sample, its load estimate, the window, the mean and the state. What a
change to CUTOFF begins is in Machine/Power.lean. -/

namespace Sys2Proof.Machine

/-- The mean of the window; none while it is empty (R102). -/
def mean (b : Battery) : Option Nat :=
  if b.window.isEmpty then none else some (b.window.sum / b.window.length)

/-- The voltage of a code, in mV (R99). -/
def voltageOf (code : BitVec 12) : Nat := code.toNat * 5000 / 4096

/-- The panel part of the load estimate (R100). -/
def panelLoad (s : Part) : Nat := if anyLane s.engine then 45 else 0

/-- Whether an operation counts as a program or an erase. Whether a move has come to its program is a free value: the
spec gives no event between a move's two parts (R100, R158; log entry 4). -/
def countsAsWrite (fresh : Nat) : Operation → Bool
  | .read _ _ => false
  | .program _ _ _ => true
  | .erase _ => true
  | .move _ _ _ => Config.moveInProgram fresh

/-- The flash part of the load estimate (R100). -/
def flashLoad (s : Part) : Nat :=
  match s.flash.running with
  | none => 0
  | some r => if countsAsWrite s.fresh r.operation then 25 else 0

/-- The compensated value (R101). -/
def compensate (volts current resistance : Nat) : Nat := volts + current * resistance / 1000

/-- The record of a sample taken now (R98 to R101). -/
def sampleNow (s : Part) : Sample :=
  let v := voltageOf s.pins.batSense
  let l := lightCurrent s.light
  let p := panelLoad s
  let f := flashLoad s
  { code := s.pins.batSense, volts := v, light := l, panel := p, flash := f,
    compensated := compensate v (l + p + f) s.battery.resistance }

/-- A value joins the window's tail; of nine the oldest leaves (R102). -/
def joinWindow (v : Nat) (w : List Nat) : List Nat :=
  let w := w ++ [v]
  w.drop (w.length - 8)

/-- The state that a mean gives after the state held before (R103). -/
def stateOfMean (m : Nat) (p : BatteryState) : BatteryState :=
  if m < 3300 then .cutoff
  else if m < 3450 then .critical
  else if m < 3550 then (if p = .critical then .critical else .low)
  else if m < 3650 then (if p = .low ∨ p = .critical then .low else .normal)
  else .normal

/-- The state after a sample: outside OFF, CUTOFF is kept (R103). -/
def settledState (off : Bool) (m : Nat) (p : BatteryState) : BatteryState :=
  if p = .cutoff ∧ !off then .cutoff else stateOfMean m p

/-- The detail of BATTERY (R105, R197); its charger-level byte is 1 for CHG_DET high and 0 for low (DESIGN CHOICE, log
entry 47). -/
def batteryDetail (new old : BatteryState) (m n : Nat) (charger : Bool) : List Byte :=
  [byteOf (batteryCode new), byteOf (batteryCode old)] ++ le2 m ++ [byteOf n, byteOf charger.toNat]

/-- Whether a change of battery state raises BATTERY: in BOOT, ACTIVE, SETTLING and HOLD (R105), but not while a forced
OFF entry waits for OFF (R123). -/
def raisesBattery (p : Power) : Bool := decide (p.state ≠ .off) && !p.forcedOff

/-- A change of battery state handed to the light and to the ports (R104, R105). -/
def takeBatteryState (new old : BatteryState) (s : Part) : Part :=
  if new = old then s
  else
    let s := modifyLight (takeCeiling (ceilingOf new) (lit s.power)) s
    if raisesBattery s.power then
      raiseBoth .battery
        (batteryDetail new old ((mean s.battery).getD 0) s.battery.window.length s.pins.charger) s
    else s

/-- A sample: converted, compensated, placed in the window, the mean computed and the state settled (R98). -/
def takeSample (s : Part) : Part :=
  let x := sampleNow s
  let w := joinWindow x.compensated s.battery.window
  let old := s.battery.state
  let b : Battery := { s.battery with window := w, last := some x }
  let new := settledState (decide (s.power.state = .off)) ((mean b).getD 0) old
  stepFresh (takeBatteryState new old { s with battery := { b with state := new } })

/-- BATTERY SETTINGS' effect (R107). -/
def setResistance (r : Half) (s : Part) : Part × Option Reply :=
  ({ s with battery := { s.battery with resistance := min r.toNat 1000 } }, some { code := .ok })

/-- The sampling period's code in a power state (R98, R197). -/
def periodCode : PowerState → Nat
  | .boot | .active | .settling => 0
  | .hold => 1
  | .off => 2

/-- The bytes of BATTERY READ (R108, R197); the charger-level byte is 1 for CHG_DET high and 0 for low (DESIGN CHOICE, log
entry 47). -/
def batteryBytes (s : Part) : List Byte :=
  let b := s.battery
  let of := fun f : Sample → Nat => b.last.map f
  halfOrAbsent (mean b) ++ [byteOf (batteryCode b.state), byteOf b.window.length]
    ++ halfOrAbsent (of fun x => x.code.toNat) ++ halfOrAbsent (of fun x => x.volts) ++ halfOrAbsent (of fun x => x.compensated)
    ++ [byteOrAbsent (of fun x => x.light + x.panel + x.flash), byteOrAbsent (of fun x => x.light),
        byteOrAbsent (of fun x => x.panel), byteOrAbsent (of fun x => x.flash)]
    ++ le2 b.resistance ++ [byteOf (periodCode s.power.state), byteOf s.pins.charger.toNat]

end Sys2Proof.Machine
end

