-- ==== Sys2Proof/Machine/Turn.lean ====
section
/-! DEFINITION. The turn controller (chapter 2): turns, the backlog and its service, render-ahead and wake restore. -/

namespace Sys2Proof.Machine

/-- The list entry `d` steps from the cursor; none when no entry exists there (R23). -/
def entryAt (t : Turn) (d : Int) : Option Nat :=
  match t.cursor with
  | none => none
  | some i => if 0 ≤ (i : Int) + d then t.list[((i : Int) + d).toNat]? else none

/-- The slot at the cursor (R23). -/
def cursorSlot (t : Turn) : Option Nat := entryAt t 0

/-- Whether a slot is READY. -/
def isReady (s : Part) (i : Nat) : Bool := decide ((slot s i).state = .ready)

/-- The cursor moved `d` steps. -/
def moveCursor (d : Int) (t : Turn) : Turn := { t with cursor := t.cursor.map fun i => ((i : Int) + d).toNat }

/-- The backlog replaced. -/
def setBacklog (n : Int) (t : Turn) : Turn := { t with backlog := n }

/-- Why the entry `d` steps on cannot be turned to, with its slot; none when it is READY (R26, tests 1 to 3). -/
def stepFailure (d : Int) (s : Part) : Option (StarveReason × Option Nat) :=
  match entryAt s.turn d with
  | none => some (.endOfList, none)
  | some k =>
      match (slot s k).state with
      | .lost => some (.lost, some k)
      | .empty => some (.notReady, some k)
      | .filling => some (.notReady, some k)
      | .ready => none

/-- The entries counted ahead of the cursor in direction d (R33). -/
def aheadCount (d : Int) (s : Part) : Nat :=
  ((List.range s.turn.lookahead).takeWhile fun k => decide (stepFailure ((k + 1 : Nat) * d) s = none)).length

/-- The list entries beyond the cursor in direction d (R33). -/
def entriesBeyond (d : Int) (t : Turn) : Nat :=
  match t.cursor with
  | none => 0
  | some i => if 0 ≤ d then t.list.length - 1 - i else i

/-- RENDER_AHEAD evaluated in direction d at the cursor (R33). -/
def renderAhead (d : Int) (s : Part) : Part :=
  let n := aheadCount d s
  if n < s.turn.lookahead then
    raise .A .renderAhead
      [signedByte d, byteOf n, byteOrAbsent s.turn.cursor, byteOrAbsent (cursorSlot s.turn), byteOf s.turn.lookahead,
       byteOf (entriesBeyond d s.turn)] s
  else s

/-- A TURN entry submitted from the cursor slot (R27, R28). -/
def submitTurn (s : Part) : Part :=
  match cursorSlot s.turn with
  | some k => modifyEngine (placeTurn k s.turn.mode) s
  | none => s

/-- A turn whose step is READY (R26, tests 4 to 6). -/
def readyTurn (d : Int) (s : Part) : Part :=
  if !tableHeld s then starve d .noWaveform (entryAt s.turn d) s
  else if !roomForTurn s.engine then starve d .queue (entryAt s.turn d) s
  else renderAhead d (submitTurn (modifyTurn (moveCursor d) s))

/-- A turn in direction d, taken while the backlog is 0 (R26). -/
def turn (d : Int) (s : Part) : Part :=
  match stepFailure d s with
  | some (reason, blocked) => starve d reason blocked (modifyTurn (setBacklog d) s)
  | none => readyTurn d s

/-- A press added to a nonzero backlog, saturating at 8 in either direction (R30). -/
def addBacklog (d : Int) (t : Turn) : Turn := { t with backlog := max (-8) (min 8 (t.backlog + d)) }

/-- A FWD or BACK press in ACTIVE (R21, R26, R30). -/
def turnPress (d : Int) (s : Part) : Part :=
  if s.turn.backlog = 0 then turn d s else modifyTurn (addBacklog d) s

/-- The cursor stepped over READY entries while the backlog is nonzero (R31, step 3); the count bounds the steps. -/
def serveSteps (d : Int) : Nat → Part → Part
  | 0, s => s
  | n + 1, s =>
      match stepFailure d s with
      | some _ => s
      | none => serveSteps d n (modifyTurn (fun t => setBacklog (t.backlog - d) (moveCursor d t)) s)

/-- What remains of the backlog after a service is reported (R31, step 5). -/
def reportRemainder (d : Int) (s : Part) : Part :=
  if s.turn.backlog = 0 then s
  else
    match stepFailure d s with
    | some (reason, blocked) => starve d reason blocked s
    | none => s

/-- Backlog service (R31). -/
def backlogService (s : Part) : Part :=
  let d := s.turn.backlog.sign
  if d = 0 then s
  else if stepFailure d s ≠ none then s
  else if !tableHeld s then starve d .noWaveform (entryAt s.turn d) s
  else if !roomForTurn s.engine then starve d .queue (entryAt s.turn d) s
  else reportRemainder d (renderAhead d (submitTurn (serveSteps d s.turn.backlog.natAbs s)))

/-- A HOME press in ACTIVE (R22). -/
def homePress (s : Part) : Part :=
  raise .A .homeKey [byteOrAbsent s.turn.cursor, byteOrAbsent (cursorSlot s.turn)] s

/-- Wake restore (R36). -/
def wakeRestore (s : Part) : Part :=
  if !s.power.restoreFlag then s
  else
    match cursorSlot s.turn with
    | none => starve 0 .wake none s
    | some k =>
        if !isReady s k then starve 0 .wake (some k) s
        else if !tableHeld s then starve 0 .noWaveform (some k) s
        else modifyEngine (placePower k) s

/-- The turn state cleared at OFF entry: the debouncers run on (R38). -/
def clearTurn (s : Part) : Part := { s with turn := defaultTurn }

/-! ### Commands -/

/-- Whether TURN LIST SET's parameters are taken (R24). -/
def listValid (n : Nat) (places : List Byte) (cursor : Nat) : Bool :=
  let list := (places.take n).map BitVec.toNat
  decide (1 ≤ n) && decide (n ≤ 28) && decide (list.length = n) && (places.drop n).all (· == 0xFF)
    && list.all (fun k => decide (k < Config.pageSlots)) && decide list.Nodup && decide (cursor < n)

/-- TURN LIST SET's effect (R24). -/
def setTurnList (n : Byte) (places : List Byte) (cursor : Byte) (s : Part) : Part × Option Reply :=
  if listValid n.toNat places cursor.toNat then
    (modifyTurn (fun t => { t with list := (places.take n.toNat).map BitVec.toNat, cursor := some cursor.toNat, backlog := 0 }) s,
      some { code := .ok })
  else (s, some { code := .badParam })

/-- TURN SETTINGS' effect (R25). -/
def setTurnSettings (lookahead mode : Byte) (s : Part) : Part × Option Reply :=
  match modeOf mode with
  | some .gray => (modifyTurn (fun t => { t with lookahead := min (max lookahead.toNat 1) 8, mode := .gray }) s, some { code := .ok })
  | some .quick => (modifyTurn (fun t => { t with lookahead := min (max lookahead.toNat 1) 8, mode := .quick }) s, some { code := .ok })
  | _ => (s, some { code := .badParam })

/-- The waiting TURN-origin update: its indication and its source slot (R28, R37). -/
def waitingTurn (e : Engine) : Nat × Option Nat :=
  let isTurn := fun u : Update => decide (u.origin = .turn)
  match e.queue.find? isTurn with
  | some u => (1, some u.source)
  | none =>
      match (e.release ++ (runningLanes e).flatMap fun x => x.2.followUps).find? isTurn with
      | some u => (2, some u.source)
      | none => (0, none)

/-- The bytes of TURN STATE READ (R37, R197). -/
def turnBytes (s : Part) : List Byte :=
  let t := s.turn
  let w := waitingTurn s.engine
  [byteOf t.list.length] ++ padTo 28 (t.list.map byteOf)
    ++ [byteOrAbsent t.cursor, byteOrAbsent (cursorSlot t), signedByte t.backlog, byteOf t.lookahead, byteOf (modeCode t.mode),
        byteOf w.1, byteOrAbsent w.2]

end Sys2Proof.Machine
end

