-- ==== Sys2Proof/Machine/PageStore.lean ====
section
/-! DEFINITION. The page store (chapter 1): slot writes, posts, discards, retain flags, reads and the retention
computation. -/

namespace Sys2Proof.Machine

/-! ### Writing (R7 to R9) -/

/-- One data byte placed at an image offset: an unmarked row is first set to 0xFF, then the byte is placed and the row
marked (R4). -/
def placeByte (i : Nat) (x : List Host.Cell × List Nat) (offset : Nat) (b : Byte) : List Host.Cell × List Nat :=
  let row := offset / Config.rowBytes
  let base := dramAddress i (Config.rowBytes * row)
  let m := if row ∈ x.2 then x.1 else Memory.clear x.1 base (base + Config.rowBytes)
  (Memory.write m (dramAddress i offset) b, insertAscending row x.2)

/-- The data bytes of a write placed in order; a dropped byte changes nothing (R4, R8, R9). -/
def placeBytes (i : Nat) (places : List (Option Nat × Byte)) (x : List Host.Cell × List Nat) :
    List Host.Cell × List Nat :=
  places.foldl
    (fun x pb =>
      match pb.1 with
      | some offset => placeByte i x offset pb.2
      | none => x) x

/-- A taken write: the slot becomes FILLING by the port, and the bytes are placed (R7). -/
def takeWrite (p : Port) (i : Nat) (places : List (Option Nat × Byte)) (s : Part) : Part :=
  let v := slot s i
  let x := placeBytes i places (s.store.dram, v.rows)
  setSlot i { v with state := .filling, key := none, writer := some p, rows := x.2 } (setDram x.1 s)

/-- The checks of R7 in their order, and the write. -/
def slotWriteChecked (p : Port) (i : Nat) (paramsValid : Bool) (places : List (Option Nat × Byte)) (s : Part) :
    Part × Option Reply :=
  let v := slot s i
  if Config.pageSlots ≤ i then (s, some { code := .badParam })
  else if !maskHolds s p i then (s, some { code := .denied })
  else if !paramsValid then (s, some { code := .badParam })
  else if v.showing ≠ 0 then (s, some { code := .slotBusy })
  else if v.state = .filling ∧ v.writer = some (peer p) then (s, some { code := .slotOwned })
  else
    (takeWrite p i places s, some { code := if places.any (fun x => x.1.isNone) then .clipped else .ok })

/-- SLOT WRITE's effect (R8). -/
def writeRunTo (p : Port) (i : Byte) (offset : Word) (data : List Byte) (s : Part) : Part × Option Reply :=
  slotWriteChecked p i.toNat (decide (offset.toNat < Config.imageBytes) && !data.isEmpty) (runPlaces offset.toNat data) s

/-- SLOT WRITE RECT's effect (R9). -/
def writeRectTo (p : Port) (i : Byte) (bc y bw h : Half) (data : List Byte) (s : Part) : Part × Option Reply :=
  slotWriteChecked p i.toNat
    (decide (bc.toNat < Config.rowBytes) && decide (y.toNat < Config.panelRows) && decide (bw ≠ 0) && decide (h ≠ 0)
      && !data.isEmpty)
    (rectPlaces bc.toNat y.toNat bw.toNat h.toNat data) s

/-! ### Posting, discarding and retaining (R11 to R13) -/

/-- SLOT POST's effect, with the backlog service of every post taken (R11). -/
def postSlot (p : Port) (i : Byte) (key : Word) (s : Part) : Part × Option Reply :=
  let v := slot s i.toNat
  if Config.pageSlots ≤ i.toNat then (s, some { code := .badParam })
  else if !maskHolds s p i.toNat then (s, some { code := .denied })
  else if v.state = .filling ∧ v.writer = some p then
    (backlogService (setSlot i.toNat { v with state := .ready, key := some key } s), some { code := .ok })
  else (s, some { code := .badState })

/-- SLOT DISCARD's effect (R12). -/
def discardSlot (p : Port) (i : Byte) (s : Part) : Part × Option Reply :=
  let v := slot s i.toNat
  if Config.pageSlots ≤ i.toNat then (s, some { code := .badParam })
  else if !maskHolds s p i.toNat then (s, some { code := .denied })
  else if v.showing ≠ 0 then (s, some { code := .slotBusy })
  else (setSlot i.toNat { emptySlot with retain := v.retain } s, some { code := .ok })

/-- SLOT RETAIN's effect (R13). The slot mask is tested before the flag, as in the other slot commands: R13 gives no
order of the two (DESIGN CHOICE, log entry 45). -/
def retainSlot (p : Port) (i flag : Byte) (s : Part) : Part × Option Reply :=
  if Config.pageSlots ≤ i.toNat then (s, some { code := .badParam })
  else if !maskHolds s p i.toNat then (s, some { code := .denied })
  else
    match flagOf flag with
    | none => (s, some { code := .badParam })
    | some b => (modifySlot i.toNat (fun v => { v with retain := b }) s, some { code := .ok })

/-! ### Reading (R14 to R16) -/

/-- How many bytes a read of an image returns: a range past its end is shortened (R14). -/
def readLength (offset length : Nat) : Nat := min length (Config.imageBytes - offset)

/-- Whether a read's offset and length are taken (R14). -/
def rangeValid (offset length : Nat) : Bool := decide (offset < Config.imageBytes) && decide (length ≠ 0)

/-- The reply of a read of a slot's image (R14, R15). -/
def imageReply (i offset length : Nat) (s : Part) : Reply :=
  let n := readLength offset length
  { code := if n < length then .clipped else .ok, data := seenRun s i offset n }

/-- SLOT READ's reply (R14). -/
def slotReadReply (i : Byte) (offset length : Word) (s : Part) : Reply :=
  if i.toNat < Config.pageSlots && rangeValid offset.toNat length.toNat then
    imageReply i.toNat offset.toNat length.toNat s
  else { code := .badParam }

/-- SHOWN READ's reply (R15). -/
def shownReadReply (offset length : Word) (s : Part) : Reply :=
  if rangeValid offset.toNat length.toNat then imageReply Config.shownSlot offset.toNat length.toNat s
  else { code := .badParam }

/-- A slot table entry's ten bytes (R16, R197). -/
def slotBytes (v : Slot) : List Byte :=
  [byteOf (slotStateCode v.state), byteOrAbsent (v.writer.map portCode),
    byteOf (flagBit 0 v.retain + flagBit 1 v.key.isSome), byteOf v.showing]
    ++ leWord (v.key.getD 0) ++ le2 v.rows.length

/-- The 320 bytes of SLOT TABLE READ. -/
def slotTableBytes (s : Part) : List Byte := s.store.slots.toList.flatMap slotBytes

/-! ### Retention (R17, R18) -/

/-- Whether a slot holds a page that a segment can be retained for. -/
def holdsPage (v : Slot) : Bool := decide (v.state = .ready) || decide (v.state = .filling)

/-- Whether a slot keeps its segment through HOLD (R17). -/
def keepsSegment (s : Part) (i : Nat) : Bool :=
  let v := slot s i
  holdsPage v && (v.retain || decide (cursorSlot s.turn = some i) || decide (entryAt s.turn 1 = some i))

/-- The retained set (R17). -/
def retainedSegments (s : Part) : List Nat :=
  (List.range 8).filter fun k => decide (k = 7) || (List.range 4).any fun j => keepsSegment s (4 * k + j)

/-- A slot of a dropped segment (R17). -/
def dropSlot (v : Slot) : Slot := if holdsPage v then { emptySlot with state := .lost } else v

/-- The content of a dropped segment gone (R18). -/
def dropSegment (m : List Host.Cell) (k : Nat) : List Host.Cell :=
  Memory.clear m (dramAddress (4 * k) 0) (dramAddress (4 * k + 4) 0)

/-- The retention computation of HOLD entry (R17). -/
def computeRetention (s : Part) : Part :=
  let kept := retainedSegments s
  { s with store :=
    { slots := tableMapIdx (fun i v => if i / 4 ∈ kept then v else dropSlot v) s.store.slots
      dram := (((List.range 8).filter fun k => !decide (k ∈ kept)).foldl dropSegment s.store.dram)
      retained := some kept } }

/-- Full refresh restored on leaving HOLD (R18). -/
def restoreRefresh (s : Part) : Part := { s with store := { s.store with retained := none } }

/-- The page store at OFF entry: the DRAM unpowered and every slot EMPTY (R19). -/
def clearStore (s : Part) : Part := { s with store := defaultStore }

end Sys2Proof.Machine
end

