-- ==== Sys2Proof/Machine/Journal.lean ====
section
/-! DEFINITION. Page reads and their ECC outcome (R158, R159), the journal's batch, what its entries rebuild (R173),
the reading of a journal block (R172) and the snapshot of a compaction (R170). -/

namespace Sys2Proof.Machine

/-! ### Reading a page (R158, R159) -/

/-- Whether a sector holds more errors than the ECC corrects (R159). -/
def sectorFails : Sector → Bool
  | .corrected n => decide (8 < n)
  | .failed => true

/-- The bits corrected in a sector. -/
def sectorBits : Sector → Nat
  | .corrected n => n
  | .failed => 0

/-- The largest number of bits corrected in any sector (R159). -/
def worstSector (ecc : List Sector) : Nat := ((ecc.take 8).map sectorBits).foldl max 0

/-- Whether any of a page's eight sectors is uncorrectable (R159). -/
def anyFails (ecc : List Sector) : Bool := (ecc.take 8).any sectorFails

/-- Whether more than 8 bits of an erased page's spare bytes are wrong (R158): the report's ninth place. A report of the
eight sectors alone has none. -/
def spareFails (ecc : List Sector) : Bool := sectorFails (ecc.getD 8 (.corrected 0))

/-- The outcome of a page read (R158, R159). A programmed page never reads ERASED; whether a partly programmed page does
is a free value. -/
def readOutcome (page : Option Page) (fresh address : Nat) (ecc : List Sector) : Ecc :=
  if anyFails ecc then .uncorrectable
  else
    match page with
    | none => if spareFails ecc then .corrected (worstSector ecc) else .erased
    | some (.programmed _ _) => .corrected (worstSector ecc)
    | some .torn => if Config.tornErased fresh address then .erased else .corrected (worstSector ecc)

/-- Whether the sector that holds byte `i` is uncorrectable. -/
def byteFails (ecc : List Sector) (i : Nat) : Bool := sectorFails (ecc.getD (i / 512) (.corrected 0))

/-- The bytes of a page read: an uncorrectable sector, and a partly programmed page, give free values. -/
def readBytes (page : Option Page) (fresh address : Nat) (ecc : List Sector) : List Byte :=
  (List.range Config.pageBytes).map fun i =>
    if byteFails ecc i then Config.rawByte fresh (Config.pageBytes * address + i)
    else
      match page with
      | none => 0xFF
      | some (.programmed data _) => byteAt data i
      | some .torn => Config.rawByte fresh (Config.pageBytes * address + i)

/-- The ECC of a page in the operand of a BOOT; a page not listed has nothing to correct. -/
def eccOf (ecc : List (Nat × List Sector)) (address : Nat) : List Sector :=
  ((ecc.find? fun x => decide (x.1 = address)).map Prod.snd).getD []

/-! ### Queueing entries (R169) -/

/-- FLASH raised on both ports (R167). -/
def raiseFlash (detail : List Byte) (s : Part) : Part := raiseBoth .flash detail s

/-- The serial that the next queued entry takes. -/
def nextSerial (s : Part) : Nat := s.flash.journal.nextSerial

/-- An entry joined to the tail of a batch. -/
def appendEntry (e : JEntry) (j : Journal) : Journal :=
  { j with batch := j.batch ++ [{ serial := j.nextSerial, entry := e, live := true }], nextSerial := j.nextSerial + 1 }

/-- An entry queued with the journal (R169). -/
def queueEntry (e : JEntry) (s : Part) : Part := modifyJournal (appendEntry e) s

/-- The record that an entry concerns. -/
def entryRecord : JEntry → Option Byte
  | .opened r _ _ _ _ _ _ => some r
  | .block r _ _ _ => some r
  | .sealed r _ _ _ => some r
  | .freed r => some r
  | .claimed r => some r
  | .faulted r => some r
  | .replace r _ _ _ => some r
  | .extent r _ _ => some r
  | .retire _ _ => none
  | .snapBegin _ => none
  | .snapEnd _ _ => none

/-- A record becomes FREE: the entries of the batch that concern it change no record when they are written (R169). -/
def endItems (r : Nat) (j : Journal) : Journal :=
  { j with batch := j.batch.map fun i => if entryRecord i.entry = some (byteOf r) then { i with live := false } else i }

/-! ### What entries rebuild (R173) -/

/-- A record of a replay. -/
def jrecord (r : Replay) (i : Byte) : JRecord := tableGet r.records i.toNat freeJRecord

/-- A record of a replay replaced. -/
def setJRecord (i : Byte) (v : JRecord) (r : Replay) : Replay := { r with records := tableSet r.records i.toNat v }

/-- Whether a block may not be placed: it is factory-bad, in an extent or in the retired list (R173). -/
def isPlaced (bad : List Nat) (r : Replay) (b : Nat) : Bool :=
  decide (b ∈ bad) || decide (b ∈ r.retired) || r.records.toList.any fun v => decide (b ∈ v.extent)

/-- A block put at an extent position: over the one there, or as the next one. -/
def putExtent (k b : Nat) (extent : List Nat) : List Nat := if k = extent.length then extent ++ [b] else extent.set k b

/-- A block takes a position of a record, unless it is already placed (R173). -/
def takePosition (bad : List Nat) (i : Byte) (r : Replay) (kb : Nat × Nat) : Replay :=
  if isPlaced bad r kb.2 then r
  else setJRecord i { jrecord r i with extent := putExtent kb.1 kb.2 (jrecord r i).extent } r

/-- One entry applied to a replay (R173). -/
def applyEntry (bad : List Nat) (r : Replay) (e : JEntry) : Replay :=
  match e with
  | .opened i t w d q n c =>
      setJRecord i
        { state := .opened, title := t, writer := w, declared := d.toNat, seq := q, extent := [], blocks := n.toNat,
          checkpoint := c, running := c, corrupt := false } r
  | .extent i f bs =>
      if (jrecord r i).state = .free then r
      else (bs.zipIdx.map fun x => (f.toNat + x.2, x.1.toNat)).foldl (takePosition bad i) r
  | .block i k b c =>
      if (jrecord r i).state = .free then r
      else
        let r := takePosition bad i r (k.toNat, b.toNat)
        if (jrecord r i).blocks < k.toNat + 1 then setJRecord i { jrecord r i with blocks := k.toNat + 1, checkpoint := c } r else r
  | .sealed i x c last =>
      if (jrecord r i).state = .free then r
      else
        let r := setJRecord i { jrecord r i with state := if x then .corrupt else .sealed, corrupt := x, running := c } r
        match last with
        | none => r
        | some (k, b) => takePosition bad i r (k.toNat, b.toNat)
  | .freed i => setJRecord i freeJRecord r
  | .claimed i => if (jrecord r i).state = .free then r else setJRecord i { jrecord r i with state := .claimed } r
  | .faulted i => if (jrecord r i).state = .free then r else setJRecord i { jrecord r i with state := .fault } r
  | .replace i k o n =>
      if (jrecord r i).state = .free then r
      else if (jrecord r i).extent[k.toNat]? = some o.toNat then takePosition bad i r (k.toNat, n.toNat)
      else r
  | .retire b worn =>
      if worn then { r with worn := true }
      else if isPlaced bad r b.toNat then r else { r with retired := r.retired ++ [b.toNat] }
  | .snapBegin _ => r
  | .snapEnd _ _ => r

/-- A run of entries applied in order. -/
def replayEntries (bad : List Nat) (es : List JEntry) : Replay := es.foldl (applyEntry bad) emptyReplay

/-! ### Reading a journal block (R172) -/

/-- A journal page's places, as a BOOT reads it: a page that reads ERASED holds erased entries only (R158). -/
def journalPlaces (nand : List (Nat × Page)) (fresh : Nat) (ecc : List (Nat × List Sector)) (address : Nat) : List JRead :=
  if readOutcome (Nand.page nand address) fresh address (eccOf ecc address) = .erased then [.erased]
  else pageEntries (readBytes (Nand.page nand address) fresh address (eccOf ecc address))

/-- The entries of a page up to its first erased one, and whether an entry whose CRC fails ended them (R172). -/
def takeEntries : List JRead → List JEntry × Bool
  | [] => ([], false)
  | .erased :: _ => ([], false)
  | .bad :: _ => ([], true)
  | .entry e :: rest => (e :: (takeEntries rest).1, (takeEntries rest).2)

/-- The entries read from `page` on, and the page at which reading stopped: none when an entry's CRC failed, 64 after
the last page (R172). -/
def scanPages (places : Nat → List JRead) : Nat → Nat → List JEntry × Option Nat
  | 0, page => ([], some page)
  | n + 1, page =>
      match places page with
      | [] => ([], some page)
      | .erased :: _ => ([], some page)
      | x :: xs =>
          let t := takeEntries (x :: xs)
          if t.2 then (t.1, none)
          else
            let rest := scanPages places n (page + 1)
            (t.1 ++ rest.1, rest.2)

/-- What reading a journal block gives. -/
def scanBlock (nand : List (Nat × Page)) (fresh : Nat) (ecc : List (Nat × List Sector)) (block : Nat) :
    List JEntry × Option Nat :=
  scanPages (fun page => journalPlaces nand fresh ecc (Nand.address block page)) Config.blockPages 0

/-- The number of entries up to the first SNAP_END of a generation, with the count it carries. -/
def snapshotEnd (g : Word) : List JEntry → Nat → Option (Nat × Nat)
  | [], _ => none
  | .snapEnd g' n :: es, k => if g' = g then some (k + 1, n.toNat) else snapshotEnd g es (k + 1)
  | _ :: es, k => snapshotEnd g es (k + 1)

/-- The generation of the valid snapshot that entries begin with (R172). -/
def validSnapshot (es : List JEntry) : Option Word :=
  match es with
  | .snapBegin g :: _ =>
      match snapshotEnd g es 0 with
      | some (read, count) => if read = count then some g else none
      | none => none
  | _ => none

/-- The highest generation of any SNAP_BEGIN read, or 0 (R172). -/
def highestGeneration (es : List JEntry) : Word :=
  (es.map fun e => match e with
    | .snapBegin g => g
    | _ => 0).foldl (fun a b => if a < b then b else a) 0

/-- The journal block that a BOOT chooses, with its generation (R172). -/
def chooseJournal (six seven : List JEntry) : Option (Nat × Word) :=
  match validSnapshot six, validSnapshot seven with
  | some g, some h => if g < h then some (7, h) else some (6, g)
  | some g, none => some (6, g)
  | none, some h => some (7, h)
  | none, none => none

/-! ### The snapshot (R170) -/

/-- The snapshot's entries for one record. -/
def recordSnapshot (i : Nat) (v : JRecord) : List JEntry :=
  if v.state = .free then []
  else
    [.opened (byteOf i) v.title v.writer (BitVec.ofNat 32 v.declared) v.seq (BitVec.ofNat 16 v.extent.length) v.checkpoint]
      ++ ((List.range ((v.extent.length + 11) / 12)).map fun c =>
          .extent (byteOf i) (BitVec.ofNat 16 (12 * c)) (((v.extent.drop (12 * c)).take 12).map (BitVec.ofNat 16)))
      ++ (if v.state = .sealed ∨ v.state = .corrupt ∨ v.state = .claimed then [.sealed (byteOf i) v.corrupt v.running none] else [])
      ++ (if v.state = .claimed then [.claimed (byteOf i)] else [])
      ++ (if v.state = .fault then [.faulted (byteOf i)] else [])

/-- The snapshot's RETIRE entries. -/
def retireSnapshot (retired : List Nat) (worn : Bool) : List JEntry :=
  retired.map (fun b => .retire (BitVec.ofNat 16 b) false)
    ++ (if worn then [.retire (BitVec.ofNat 16 (retired.getLastD 0xFFFF)) true] else [])

/-- A whole snapshot of a generation. -/
def snapshotEntries (g : Word) (r : Replay) : List JEntry :=
  let body := (r.records.toList.zipIdx.flatMap fun x => recordSnapshot x.2 x.1) ++ retireSnapshot r.retired r.worn
  [.snapBegin g] ++ body ++ [.snapEnd g (BitVec.ofNat 16 (body.length + 2))]

/-- Entries cut into journal pages of 128. -/
def snapshotPages (es : List JEntry) : List (List JEntry) :=
  (List.range ((es.length + 127) / 128)).map fun c => (es.drop (128 * c)).take 128

/-- The journal block that is not active; block 6 when none is (R170, R174). -/
def otherBlock (active : Option Nat) : Nat := if active = some 6 then 7 else 6

/-- A compaction that begins now, over the journaled state (R170). -/
def beginCompaction (j : Journal) : Compaction :=
  { dest := otherBlock j.active, generation := j.generation + 1, isErased := false,
    pages := snapshotPages (snapshotEntries (j.generation + 1) j.journaled), page := 0, format := false }

end Sys2Proof.Machine
end

