-- ==== Sys2Proof/Machine/Spool.lean ====
section
/-! DEFINITION. The spool controller (chapter 8): records, reservations, the staging ring, allocation, the ends of a
download, fetches and the directory; with the retirement of blocks (R162), which cuts reservations. -/

namespace Sys2Proof.Machine

/-! ### Reservations (R138, R162) -/

/-- The blocks that a declared length needs (R134). -/
def blocksNeeded (declared : Nat) : Nat := (declared + 262143) / Config.blockBytes

/-- The total reservation (R138). -/
def totalReservation (s : Part) : Nat := (s.spool.records.toList.map Record.reservation).sum

/-- The blocks of the free pool and the erase-pending list together (R138). -/
def poolBlocks (s : Part) : Nat := s.flash.free.length + s.flash.erasePending.length

/-- The blocks available (R138). -/
def availableBlocks (s : Part) : Nat := poolBlocks s - totalReservation s

/-- Whether a record's reservation can be cut (R162). -/
def cuttable (v : Record) : Bool :=
  decide (0 < v.reservation) && (decide (v.state = .opened) || decide (v.state = .stalled) || decide (v.state = .sealing))

/-- The cuttable record with the highest open sequence (R162). -/
def highestOpen (s : Part) : Option Nat :=
  ((records s).foldl
    (fun best x =>
      if cuttable x.2 then
        match best with
        | none => some x
        | some y => if y.2.seq < x.2.seq then some x else best
      else best) none).map Prod.fst

/-- Reservations cut, highest open sequence first, until the total no longer exceeds the pool (R162). -/
def cutReservationsBy : Nat → Part → Part
  | 0, s => s
  | n + 1, s =>
      if totalReservation s ≤ poolBlocks s then s
      else
        match highestOpen s with
        | none => s
        | some r =>
            cutReservationsBy n
              (modifyRecord r (fun v => { v with reservation := v.reservation - (totalReservation s - poolBlocks s) }) s)

/-- Reservations cut over all 32 records. -/
def cutReservations (s : Part) : Part := cutReservationsBy 32 s

/-! ### Block lists (R161, R162) -/

/-- Blocks joined to the tail of the erase-pending list. -/
def pendBlocks (hold : Hold) (bs : List Nat) (f : Flash) : Flash :=
  { f with erasePending := f.erasePending ++ bs.map fun b => { block := b, hold := hold } }

/-- A block out of the erase-pending list. -/
def unpend (b : Nat) (f : Flash) : Flash := { f with erasePending := f.erasePending.filter fun e => decide (e.block ≠ b) }

/-- An erased block joins the free pool (R161). -/
def joinFree (b : Nat) (f : Flash) : Flash := { unpend b f with free := insertAscending b f.free }

/-- The oldest erase-pending block that is not held (R161). -/
def oldestUnheld (f : Flash) : Option Nat := (f.erasePending.find? fun e => decide (e.hold = .free)).map ErasePending.block

/-- The held marks that an entry ends (R161). -/
def endHolds (h : Hold) (f : Flash) : Flash :=
  { f with erasePending := f.erasePending.map fun e => if e.hold = h then { e with hold := .free } else e }

/-- Whether the retired list holds all the blocks it can (R162). -/
def retiredFull (s : Part) : Bool := decide (Config.retiredPlaces ≤ s.flash.retired.length)

/-- The spool made WORN, if it is READY (R162). -/
def wearOut (f : Flash) : Flash := { f with spool := if f.spool = .ready then .worn else f.spool }

/-- A spool block retired, the cause coded as R197 codes it: 0 PROGRAM, 1 ERASE. A retirement that finds the list full
lists no block, makes the spool WORN if it is not, and is reported with the WORN mark (R162). -/
def retire (b cause : Nat) (s : Part) : Part :=
  if retiredFull s then
    raiseFlash ([2] ++ le2 b) (queueEntry (.retire (BitVec.ofNat 16 b) true) (modifyFlash wearOut s))
  else
    let s := modifyFlash (fun f => { unpend b f with free := f.free.filter (fun x => decide (x ≠ b)), retired := f.retired ++ [b] }) s
    let s := queueEntry (.retire (BitVec.ofNat 16 b) false) s
    cutReservations (raiseFlash ([1] ++ le2 b ++ [byteOf cause, byteOf s.flash.retired.length]) s)

/-! ### Allocation (R143) -/

/-- The first free block at or after the allocation pointer, counting on from 8 after 1,023. -/
def firstFree (pointer : Nat) (free : List Nat) : Option Nat :=
  match free.find? fun b => decide (pointer ≤ b) with
  | some b => some b
  | none => free.head?

/-- A free block taken, and the pointer moved past it (R143, step 1). -/
def takeFree (b : Nat) (s : Part) : Part :=
  modifySpool (fun x => { x with pointer := if b = 1023 then 8 else b + 1 })
    (modifyFlash (fun f => { f with free := f.free.filter fun x => decide (x ≠ b) }) s)

/-- What stands in the pool for an allocation (R143, steps 1 to 4). -/
def findBlock (s : Part) : Allocation :=
  match firstFree s.spool.pointer s.flash.free with
  | some b => .taken b
  | none =>
      if s.flash.spool = .worn ∨ s.flash.erasePending.isEmpty then .nothing
      else
        match oldestUnheld s.flash with
        | some b => .erase b
        | none => .waits

/-- Whether a record may draw a block: on its own reservation, or on unreserved blocks (R138, R143). -/
def mayDraw (r : Nat) (s : Part) : Bool :=
  decide (0 < (record s r).reservation) || decide (totalReservation s < poolBlocks s)

/-- An allocation for a record (R143). -/
def allocate (r : Nat) (s : Part) : Allocation := if mayDraw r s then findBlock s else .nothing

/-- A record's reservation drawn on (R143). -/
def drawReservation (r : Nat) (s : Part) : Part := modifyRecord r (fun v => { v with reservation := v.reservation - 1 }) s

/-- A block joins a record's extent list as its next position (R143). -/
def extend (r b : Nat) (s : Part) : Part := modifyRecord r (fun v => { v with extent := v.extent ++ [b] }) s

/-! ### The staging ring (R140, R141) -/

/-- The staging ring changed. -/
def modifyRing (f : List Staged → List Staged) (s : Part) : Part := modifySpool (fun x => { x with ring := f x.ring }) s

/-- The occupancy of the ring. -/
def occupancy (s : Part) : Nat := s.spool.ring.length

/-- RING_SPACE after an event that brings an armed ring's occupancy from 32 or more to 31 or fewer (R141). -/
def ringSpace (before s : Part) : Part :=
  if s.spool.arm && decide (32 ≤ occupancy before) && decide (occupancy s ≤ 31) then
    raise .B .ringSpace [byteOf (occupancy s)] (modifySpool (fun x => { x with arm := false }) s)
  else s

/-- A record's entry for a page. -/
def stagedEntry (r page : Nat) (s : Part) : Option Staged :=
  s.spool.ring.find? fun e => decide (e.record = r) && decide (e.page = page)

/-- An entry's state replaced. -/
def setStaged (r page : Nat) (state : StagedState) (s : Part) : Part :=
  modifyRing (List.map fun e => if e.record = r ∧ e.page = page then { e with state := state } else e) s

/-- An entry leaves the ring. -/
def leaveRing (r page : Nat) (s : Part) : Part :=
  modifyRing (List.filter fun e => !(decide (e.record = r) && decide (e.page = page))) s

/-- A record's FILLING and FULL entries leave the ring (R144, R148). -/
def dropStaged (r : Nat) (s : Part) : Part :=
  modifyRing (List.filter fun e => decide (e.record ≠ r) || decide (e.state = .programming)) s

/-! ### FAULT (R144) -/

/-- The detail of DOWNLOAD (R197): the event is 0 STALLED, 1 SEALED, 2 CORRUPT, 3 FAULT. -/
def downloadDetail (r event : Nat) (title : Word) : List Byte := [byteOf r, byteOf event] ++ leWord title

/-- A record enters FAULT (R144). -/
def faultRecord (r : Nat) (s : Part) : Part :=
  let v := record s r
  let s := dropStaged r s
  let s := setRecord r { v with state := .fault, received := v.programmed, reservation := 0, running := none } s
  raiseBoth .download (downloadDetail r 3 v.title) (queueEntry (.faulted (byteOf r)) s)

/-! ### Fetches that end (R152) -/

/-- The data of a port's page read in progress will be discarded (R152). -/
def discardRead (p : Port) (s : Part) : Part :=
  modifyFlash
    (fun f => { f with running := f.running.map fun x => if x.job = .fetch p then { x with live := false } else x }) s

/-- A port's WAITING fetch ends with GONE, if it is on a record that becomes FREE (R152). -/
def endFetch (freed : Nat → Bool) (p : Port) (s : Part) : Part :=
  match (port s p).fetch with
  | .waiting r offset _ _ =>
      if freed r then
        raise p .fetchReady ([byteOf r] ++ le4 offset ++ [0, 0, 0xFD])
          (modifyPort p (fun u => { u with fetch := .empty }) (discardRead p s))
      else s
  | _ => s

/-- Both ports' WAITING fetches end with GONE where their record becomes FREE. -/
def endFetches (freed : Nat → Bool) (s : Part) : Part := endFetch freed .B (endFetch freed .A s)

/-! ### FREE (R148, R149, R165) -/

/-- A relocation for a record that becomes FREE ends: its target joins the erase-pending list, its head is removed, and a
move in progress changes nothing further (R165). -/
def endScrubOf (r : Nat) (s : Part) : Part :=
  match s.flash.scrub with
  | none => s
  | some x =>
      if x.record = r then
        modifyFlash
          (fun f =>
            { pendBlocks .free [x.target] f with
              scrub := none
              scrubList := f.scrubList.filter fun b => decide (b ≠ x.old)
              running := f.running.map fun o => if o.job = .scrub then { o with live := false } else o }) s
      else s

/-- A record becomes FREE by an abandon or a release: its STATE entry is queued, its blocks are held by it, and what
waits on the record ends (R148, R149). -/
def freeDownload (r : Nat) (s : Part) : Part :=
  let v := record s r
  let serial := nextSerial s
  let s := queueEntry (.freed (byteOf r)) (modifyJournal (endItems r) s)
  let s := modifyFlash (pendBlocks (.entry serial) v.extent) s
  endScrubOf r (endFetches (fun x => decide (x = r)) (setRecord r freeRecord s))

/-- A recovery whose record is ending: the target joins the erase-pending list, the failed block is retired or stays
in the extent, the entry leaves the ring and the abandon completes (R164). -/
def endRecovery (x : Recovery) (s : Part) : Part :=
  let s := modifyFlash (fun f => { pendBlocks .free x.target.toList f with recovery := none }) s
  let listed := !retiredFull s
  let s := if listed then modifyRecord x.record (fun v => { v with extent := v.extent.eraseIdx x.position }) s else s
  let s := retire x.failed 0 s
  freeDownload x.record (leaveRing x.record (64 * x.position + x.page) s)

/-! ### Commands (R137, R139, R146, R148, R149) -/

/-- The lowest-index FREE record (R137). -/
def lowestFree (s : Part) : Option Nat :=
  ((records s).find? fun x => decide (x.2.state = .free)).map Prod.fst

/-- The record that a DOWNLOAD OPEN sets up (R137). -/
def openedRecord (p : Port) (title declared seq : Word) : Record :=
  { freeRecord with
    state := .opened, title := title, writer := p, declared := declared.toNat, running := some 0, checkpoint := 0,
    reservation := blocksNeeded declared.toNat, seq := seq }

/-- DOWNLOAD OPEN's checks and effect (R137). -/
def openDownload (p : Port) (title declared : Word) (s : Part) : Part × Option Reply :=
  if declared.toNat = 0 ∨ Config.maxDeclared < declared.toNat then (s, some { code := .badParam })
  else if s.flash.spool = .faulted then (s, some { code := .badState })
  else if s.flash.spool = .worn then (s, some { code := .worn })
  else if s.battery.state = .critical ∨ s.battery.state = .cutoff then (s, some { code := .lowBattery })
  else
    match lowestFree s with
    | none => (s, some { code := .noRecord })
    | some r =>
        if availableBlocks s < blocksNeeded declared.toNat then (s, some { code := .noSpace })
        else
          let seq := s.spool.nextSeq
          let s := setRecord r (openedRecord p title declared seq) s
          let s := modifySpool (fun x => { x with nextSeq := seq + 1 }) s
          (queueEntry (.opened (byteOf r) title p declared seq 0 0) s,
            some { code := .ok, value := BitVec.ofNat 32 r })

/-- The record's FILLING entry. -/
def fillingEntry (r : Nat) (ring : List Staged) : Option Staged :=
  ring.find? fun e => decide (e.record = r) && decide (e.state = .filling)

/-- A staging entry holding the bytes given, FULL when they are 4,096, with the running CRC at its last byte (R140). -/
def stagedOf (r page : Nat) (data : List Byte) (crc : Word) : Staged :=
  { record := r, page := page, data := data, fill := data.length,
    crcAfter := if data.length = Config.pageBytes then crc else 0,
    state := if data.length = Config.pageBytes then .full else .filling }

/-- The room in a record's FILLING entry. -/
def fillingRoom (r : Nat) (ring : List Staged) : Nat :=
  match fillingEntry r ring with
  | some e => Config.pageBytes - e.fill
  | none => 0

/-- The ring after an accepted chunk: its bytes go first into the FILLING entry, the rest into a new entry (R139). -/
def stageChunk (r received : Nat) (running : Word) (data : List Byte) (ring : List Staged) : List Staged :=
  let room := fillingRoom r ring
  let head := data.take room
  let tail := data.drop room
  let grown := ring.map fun e =>
    if e.record = r ∧ e.state = .filling then stagedOf r e.page (e.data ++ head) (crc32From running head) else e
  if tail.isEmpty then grown
  else grown ++ [stagedOf r ((received + head.length) / Config.pageBytes) tail (crc32From running data)]

/-- A record after an accepted chunk (R139). -/
def takeChunk (data : List Byte) (v : Record) : Record :=
  { v with
    received := v.received + data.length, running := some (crc32From (v.running.getD 0) data), stall := 0,
    state := .opened }

/-- Whether a record takes chunks and seals: OPEN or STALLED and not ending (R139, R146). -/
def takesChunks (v : Record) : Bool := (decide (v.state = .opened) || decide (v.state = .stalled)) && !v.ending

/-- CHUNK WRITE's checks and effect (R139). -/
def writeChunk (p : Port) (r : Byte) (offset : Word) (data : List Byte) (s : Part) : Part × Option Reply :=
  let i := r.toNat
  let v := record s i
  if 31 < i ∨ data.isEmpty ∨ Config.pageBytes < data.length then (s, some { code := .badParam })
  else if s.flash.spool = .faulted ∨ v.state = .free then (s, some { code := .badState })
  else if v.writer ≠ p then (s, some { code := .notWriter })
  else if !takesChunks v then (s, some { code := .badState })
  else if offset.toNat ≠ v.received then (s, some { code := .outOfOrder, value := BitVec.ofNat 32 v.received })
  else if v.declared < v.received + data.length then (s, some { code := .overrun })
  else if fillingRoom i s.spool.ring < data.length ∧ Config.ringPlaces ≤ occupancy s then
    (modifySpool (fun x => { x with arm := true }) s, some { code := .ringFull })
  else
    (setRecord i (takeChunk data v) (modifyRing (stageChunk i v.received (v.running.getD 0) data) s), some { code := .ok })

/-- The flash pages that a length fills (R134). -/
def pagesOf (n : Nat) : Nat := (n + 4095) / Config.pageBytes

/-- The last extent position and its block where that block has no BLOCK entry: its 64th page was not programmed (R147). -/
def lastBlock (v : Record) : Option (Half × Half) :=
  if pagesOf v.received % 64 = 0 then none
  else
    let k := v.extent.length - 1
    some (BitVec.ofNat 16 k, BitVec.ofNat 16 (v.extent.getD k 0))

/-- The seal comparison (R147). -/
def compareSeal (r : Nat) (s : Part) : Part :=
  let v := record s r
  let crc := v.running.getD 0
  queueEntry (.sealed (byteOf r) (decide (crc ≠ v.expected)) crc (lastBlock v)) s

/-- A SEALING record's FILLING entry made FULL, its bytes from its fill on 0xFF (R146). -/
def sealEntry (r : Nat) (crc : Word) (e : Staged) : Staged :=
  if e.record = r ∧ e.state = .filling then { e with data := padPage e.data, crcAfter := crc, state := .full } else e

/-- Whether the ring holds an entry of a record. -/
def hasStaged (r : Nat) (s : Part) : Bool := s.spool.ring.any fun e => decide (e.record = r)

/-- DOWNLOAD SEAL's checks and effect (R146, R147). -/
def sealDownload (p : Port) (r : Byte) (expected : Word) (s : Part) : Part × Option Reply :=
  let i := r.toNat
  let v := record s i
  if 31 < i then (s, some { code := .badParam })
  else if s.flash.spool = .faulted ∨ v.state = .free then (s, some { code := .badState })
  else if v.writer ≠ p then (s, some { code := .notWriter })
  else if !takesChunks v then (s, some { code := .badState })
  else if v.received < v.declared then (s, some { code := .short })
  else
    let s := setRecord i { v with state := .sealing, expected := expected } s
    let s := modifyRing (List.map (sealEntry i (v.running.getD 0))) s
    (if hasStaged i s then s else compareSeal i s, some { code := .ok })

/-- Whether an entry of a record is PROGRAMMING (R148). -/
def programming (r : Nat) (s : Part) : Bool :=
  s.spool.ring.any fun e => decide (e.record = r) && decide (e.state = .programming)

/-- The abandon that a recovery's record waits for, completed (R148, R164). -/
def finishAbandon (s : Part) : Part :=
  match s.flash.recovery with
  | some x => if (record s x.record).ending then endRecovery x s else s
  | none => s

/-- An abandon that was taken (R148): it completes at once, or, while an entry of the record is PROGRAMMING, the ending
flag is set. The operation in progress then runs to its end first, whichever it is; with none in progress the record's
recovery ends at once (R164). -/
def abandonRecord (r : Nat) (s : Part) : Part :=
  let s := dropStaged r s
  if !programming r s then freeDownload r s
  else
    let s := modifyRecord r (fun v => { v with ending := true }) s
    if s.flash.running.isSome then s else finishAbandon s

/-- DOWNLOAD ABANDON's checks and effect (R148). -/
def abandonDownload (p : Port) (r : Byte) (s : Part) : Part × Option Reply :=
  let i := r.toNat
  let v := record s i
  if 31 < i then (s, some { code := .badParam })
  else if s.flash.spool = .faulted ∨ v.state = .free then (s, some { code := .badState })
  else if v.writer ≠ p then (s, some { code := .notWriter })
  else if !(takesChunks v || (decide (v.state = .fault) && !v.ending)) then (s, some { code := .badState })
  else (abandonRecord i s, some { code := .ok })

/-- DOWNLOAD CLAIM's checks and effect (R149). -/
def claimDownload (r : Byte) (s : Part) : Part × Option Reply :=
  let i := r.toNat
  let v := record s i
  if 31 < i then (s, some { code := .badParam })
  else if s.flash.spool = .faulted then (s, some { code := .badState })
  else if v.state = .sealed ∨ v.state = .corrupt then
    (queueEntry (.claimed (byteOf i)) (setRecord i { v with state := .claimed } s), some { code := .ok })
  else (s, some { code := .badState })

/-- DOWNLOAD RELEASE's checks and effect (R149). -/
def releaseDownload (r : Byte) (s : Part) : Part × Option Reply :=
  let i := r.toNat
  let v := record s i
  if 31 < i then (s, some { code := .badParam })
  else if s.flash.spool = .faulted then (s, some { code := .badState })
  else if v.state = .sealed ∨ v.state = .corrupt ∨ v.state = .claimed ∨ v.state = .fault then
    (freeDownload i s, some { code := .ok })
  else (s, some { code := .badState })

/-! ### Fetch (R151, R152) -/

/-- Whether a record can be fetched from (R151). -/
def fetchable (v : Record) : Bool :=
  decide (v.state = .opened) || decide (v.state = .stalled) || decide (v.state = .sealing) || decide (v.state = .sealed)
    || decide (v.state = .corrupt) || decide (v.state = .claimed)

/-- FETCH's checks and effect (R151, R152). -/
def startFetch (p : Port) (r : Byte) (offset : Word) (length : Half) (s : Part) : Part × Option Reply :=
  let i := r.toNat
  let o := offset.toNat
  let n := length.toNat
  let v := record s i
  if 31 < i ∨ n = 0 ∨ Config.pageBytes < n ∨ o / Config.pageBytes ≠ (o + n - 1) / Config.pageBytes then
    (s, some { code := .badParam })
  else if s.flash.spool = .faulted ∨ !fetchable v then (s, some { code := .badState })
  else if v.programmed ≤ o then (s, some { code := .atEnd })
  else
    let n' := min n (v.programmed - o)
    (modifyPort p (fun u => { u with fetch := .waiting i o n' true }) (discardRead p s),
      some (if n' < n then { code := .clipped, value := BitVec.ofNat 32 n' } else { code := .ok }))

/-- Whether the fetch-ready flag is set (R152). -/
def fetchReadyFlag (u : PortUnit) : Bool :=
  match u.fetch with
  | .ready _ _ _ _ _ unread => unread
  | _ => false

/-- FETCH DATA's reply and effect (R152). -/
def fetchHeld (p : Port) (s : Part) : Part × Option Reply :=
  match (port s p).fetch with
  | .ready r o n e data _ =>
      if s.flash.spool = .faulted then (s, some { code := .badState })
      else
        (modifyPort p (fun u => { u with fetch := .ready r o n e data false }) s,
          some { code := .ok, value := BitVec.ofNat 32 n, data := data })
  | _ => (s, some { code := .badState })

/-! ### Stalls and the directory (R150, R153) -/

/-- One record's stall tick (R150). -/
def stallRecord (v : Record) : Record :=
  if v.state = .opened then
    if 3 ≤ v.stall + 1 then { v with stall := v.stall + 1, state := .stalled } else { v with stall := v.stall + 1 }
  else v

/-- An 8-second tick of the stall counters (R150). Records that become STALLED in one tick raise DOWNLOAD in ascending
index order (DESIGN CHOICE, log entry 49). -/
def stallTick (s : Part) : Part :=
  (List.range 32).foldl
    (fun s r =>
      let v := record s r
      let v' := stallRecord v
      let s := setRecord r v' s
      if v.state = .opened ∧ v'.state = .stalled then raiseBoth .download (downloadDetail r 0 v.title) s else s) s

/-- A directory record's 38 bytes (R153, R197). -/
def directoryRecord (i : Nat) (v : Record) : List Byte :=
  let free := decide (v.state = .free)
  [byteOf i, byteOf (recordStateCode v.state), byteOrAbsent (if free then none else some (portCode v.writer)),
    byteOf (flagBit 0 v.ending + flagBit 1 v.running.isNone)]
    ++ leWord (if free then 0 else v.title) ++ le4 v.declared ++ le4 v.received ++ le4 v.programmed ++ le4 v.durable
    ++ leWord (v.running.getD Config.absentCrc) ++ leWord v.checkpoint ++ le2 v.extent.length ++ le2 v.reservation
    ++ [byteOf v.stall, byteOf v.damaged]

/-- The 1,219 bytes of DIRECTORY READ. -/
def directoryBytes (s : Part) : List Byte :=
  ((records s).flatMap fun x => directoryRecord x.1 x.2) ++ [byteOf (spoolCode s.flash.spool)] ++ le2 (availableBlocks s)

/-- DIRECTORY READ's reply (R153). -/
def directoryReply (s : Part) : Reply :=
  if s.flash.spool = .faulted then { code := .badState } else { code := .ok, data := directoryBytes s }

end Sys2Proof.Machine
end

