-- ==== Sys2Proof/Machine/Flash.lean ====
section
/-! DEFINITION. The flash engine (chapter 9): the arbiter's choice, the ends of operations, journal writes and compaction,
recovery, scrubbing, system writes, journal failure and SPOOL FORMAT. -/

namespace Sys2Proof.Machine

/-! ### Beginning an operation (R158, R160) -/

/-- Whether the engine may begin an operation: outside OFF, HOLD and BOOT, with the part running and no forced OFF entry
begun (R123, R158, R160). -/
def engineRuns (s : Part) : Bool :=
  alive s && !s.power.forcedOff && (decide (s.power.state = .active) || decide (s.power.state = .settling))

/-- An operation begun that reads no page of a download record. -/
def beginOperation (o : Operation) (j : Job) (s : Part) : Part :=
  modifyFlash (fun f => { f with running := some { operation := o, job := j, live := true, reads := none } }) s

/-- A read or a move begun on a page of a download record (R159). -/
def beginReading (r : Nat) (o : Operation) (j : Job) (s : Part) : Part :=
  modifyFlash (fun f => { f with running := some { operation := o, job := j, live := true, reads := some (r, (record s r).seq) } }) s

/-- Whether the engine is idle. -/
def engineIdle (s : Part) : Bool := s.flash.running.isNone

/-- The next operation of a compaction. -/
def compactionOperation (c : Compaction) : Operation :=
  if c.isErased then .program c.dest c.page (journalPage (c.pages.getD c.page [])) else .erase c.dest

/-- A compaction's next operation begun. -/
def beginCompactionStep (c : Compaction) (s : Part) : Part :=
  beginOperation (compactionOperation c) .compaction (modifyJournal (fun j => { j with compaction := some c }) s)

/-- Class 1: a compaction's step, or a journal write, or the compaction that is due before one (R160, R169, R170). -/
def serveJournal (s : Part) : Part :=
  let j := s.flash.journal
  match j.compaction with
  | some c => beginCompactionStep c s
  | none =>
      if j.batch.isEmpty then s
      else
        match j.active with
        | none => s
        | some b =>
            if j.due then beginCompactionStep (beginCompaction j) s
            else
              let items := j.batch.take 128
              beginOperation (.program b j.nextPage (journalPage (items.map JItem.entry))) (.journal items.length) s

/-- The bytes of page `i` of the waveform rewrite (R70). -/
def waveformPage (s : Part) (i : Nat) : List Byte :=
  padPage ((List.range (min 4096 (Config.tableBytes - 4096 * i))).map fun k => incomingByte s (4096 * i + k))

/-- The bytes of image page `i` of the sleep-screen rewrite (R131). -/
def sleepPage (s : Part) (i : Nat) : List Byte :=
  padPage (seenRun s Config.sleepSlot (4096 * i) (min 4096 (Config.imageBytes - 4096 * i)))

/-- The operation of a system write's step (R70, R131, R166). -/
def systemOperation (s : Part) (j : SysJob) : Operation :=
  match j.kind with
  | .rights => if j.step = 0 then .erase 0 else .program 0 0 (padPage j.image)
  | .waveform => if j.step = 0 then .erase 1 else .program 1 (j.step - 1) (waveformPage s (j.step - 1))
  | .sleepScreen =>
      if j.step < 4 then .erase (2 + j.step)
      else .program (2 + (j.step - 4) / 64) ((j.step - 4) % 64) (sleepPage s (j.step - 4))

/-- The number of operations of a system write. -/
def systemSteps : SysKind → Nat
  | .rights => 2
  | .waveform => 14
  | .sleepScreen => 258

/-- Class 2 (R160). -/
def serveSystem (s : Part) : Part :=
  match s.flash.system with
  | [] => s
  | j :: _ => beginOperation (systemOperation s j) .system s

/-- A fetch buffer whose page read waits in the queue: its record and its offset. -/
def queuedFetch : FetchBuffer → Option (Nat × Nat)
  | .waiting r o _ true => some (r, o)
  | _ => none

/-- The read of a fetch begun: the page lies where the record's extent has it at this moment (R134, R163, R165). -/
def markBegun (u : PortUnit) : PortUnit :=
  match u.fetch with
  | .waiting r o n _ => { u with fetch := .waiting r o n false }
  | _ => u

/-- A port's fetch read begun; the fetch turn passes to the other port (R160). -/
def beginFetch (p : Port) (r o : Nat) (s : Part) : Part :=
  beginReading r (.read ((record s r).extent.getD (o / Config.blockBytes) 0) (o / Config.pageBytes % 64)) (.fetch p)
    (modifyFlash (fun f => { f with fetchTurn := peer p }) (modifyPort p markBegun s))

/-- Class 3 (R160). -/
def serveFetch (s : Part) : Part :=
  let p := s.flash.fetchTurn
  match queuedFetch (port s p).fetch with
  | some (r, o) => beginFetch p r o s
  | none =>
      match queuedFetch (port s (peer p)).fetch with
      | some (r, o) => beginFetch (peer p) r o s
      | none => s

/-! ### Class 4: staging programs, allocation erases and recoveries (R142, R143, R163) -/

/-- The oldest FULL entry of the ring (R142). -/
def oldestFull (s : Part) : Option Staged := s.spool.ring.find? fun e => decide (e.state = .full)

/-- The oldest FULL entry of one record (R142). -/
def oldestFullOf (r : Nat) (s : Part) : Option Staged :=
  s.spool.ring.find? fun e => decide (e.record = r) && decide (e.state = .full)

/-- The program of an entry begun (R142). -/
def beginStaging (e : Staged) (s : Part) : Part :=
  beginOperation (.program ((record s e.record).extent.getD (e.page / 64) 0) (e.page % 64) e.data)
    (.staging e.record e.page) (setStaged e.record e.page .programming s)

/-- Whether an entry's page is the first of a position that has no block yet (R142). -/
def needsBlock (e : Staged) (s : Part) : Bool :=
  decide (e.page % 64 = 0) && decide ((record s e.record).extent.length ≤ e.page / 64)

/-- A record's next block taken (R143). -/
def takeBlock (r b : Nat) (s : Part) : Part := extend r b (drawReservation r s)

/-- A staging program served: the part after it, and whether the record entered FAULT in place of an operation. -/
def serveStaging (s : Part) : Part × Bool :=
  match oldestFull s with
  | none => (s, false)
  | some e =>
      if !needsBlock e s then (beginStaging e s, false)
      else
        match allocate e.record s with
        | .taken b => (beginStaging e (takeBlock e.record b (takeFree b s)), false)
        | .erase b => (beginOperation (.erase b) (.allocation e.record) s, false)
        | .waits => (s, false)
        | .nothing => (faultRecord e.record s, true)

/-- A recovery's record. -/
def setRecovery (x : Option Recovery) (s : Part) : Part := modifyFlash (fun f => { f with recovery := x }) s

/-- A recovery that ends with its record in FAULT: the entry returns to FULL (R164). -/
def failRecovery (x : Recovery) (s : Part) : Part :=
  faultRecord x.record (setStaged x.record (64 * x.position + x.page) .full (setRecovery none s))

/-- A recovery's next move, or its program (R163, steps 2 and 3). -/
def beginRecoveryStep (x : Recovery) (y : Nat) (s : Part) : Part :=
  let s := setRecovery (some { x with target := some y }) s
  if x.moved < x.page then beginReading x.record (.move x.failed y x.moved) .recovery s
  else
    match stagedEntry x.record (64 * x.position + x.page) s with
    | some e => beginOperation (.program y x.page e.data) .recovery s
    | none => s

/-- A scrub relocation given up for a recovery: its target joins the erase-pending list, its block stays at the head of
the scrub list (R163). -/
def giveUpScrub (s : Part) : Part :=
  match s.flash.scrub with
  | none => s
  | some x => modifyFlash (fun f => { pendBlocks .free [x.target] f with scrub := none }) s

/-- Whether a scrub relocation's REPLACE entry is queued (R163). -/
def replaceQueued (s : Part) : Bool := (s.flash.scrub.bind Scrub.replace).isSome

/-- A recovery served (R163). -/
def serveRecovery (x : Recovery) (s : Part) : Part × Bool :=
  match x.target with
  | some y => (beginRecoveryStep x y s, false)
  | none =>
      if replaceQueued s then (s, false)
      else
        let s := giveUpScrub s
        match allocate x.record s with
        | .taken b => (beginRecoveryStep x b (drawReservation x.record (takeFree b s)), false)
        | .erase b => (beginOperation (.erase b) .replacement s, false)
        | .waits => (s, false)
        | .nothing => (failRecovery x s, true)

/-- Class 4 (R160): a recovery goes before new staging programs. -/
def serveSpool (s : Part) : Part × Bool :=
  match s.flash.recovery with
  | some x => serveRecovery x s
  | none => serveStaging s

/-! ### Classes 5 and 6 (R161, R165) -/

/-- The record and position that hold a block. -/
def blockOwner (b : Nat) (s : Part) : Option (Nat × Nat) :=
  ((records s).find? fun x => decide (b ∈ x.2.extent)).map fun x => (x.1, x.2.extent.idxOf b)

/-- The record and position of a block that is in an extent and not its last entry (R165). -/
def scrubbable (b : Nat) (s : Part) : Option (Nat × Nat) :=
  match blockOwner b s with
  | none => none
  | some (r, k) => if k + 1 < (record s r).extent.length then some (r, k) else none

/-- The head of the scrub list removed. -/
def dropScrubHead (s : Part) : Part := modifyFlash (fun f => { f with scrubList := f.scrubList.tail }) s

/-- A relocation that holds its target, and its first move begun (R165). -/
def beginScrub (r k old target : Nat) (s : Part) : Part :=
  beginReading r (.move old target 0) .scrub
    (modifyFlash
      (fun f => { f with scrub := some { record := r, position := k, old := old, target := target, moved := 0, replace := none } }) s)

/-- Scrub list heads taken until one is relocated or none is left (R165). A head whose target's erase failed is taken up
again here (DESIGN CHOICE, log entry 50). -/
def serveScrubHeads : Nat → Part → Part
  | 0, s => s
  | n + 1, s =>
      match s.flash.scrubList with
      | [] => s
      | b :: _ =>
          match scrubbable b s with
          | none => serveScrubHeads n (dropScrubHead s)
          | some (r, k) =>
              if poolBlocks s ≤ totalReservation s then serveScrubHeads n (dropScrubHead s)
              else
                match findBlock s with
                | .taken t => beginScrub r k b t (takeFree t s)
                | .erase t => beginOperation (.erase t) .scrubTarget s
                | _ => serveScrubHeads n (dropScrubHead s)

/-- Whether class 4 holds a request (R165). -/
def spoolWaits (s : Part) : Bool := s.flash.recovery.isSome || (oldestFull s).isSome

/-- Class 5 (R165): the relocation in hand, or a new one when class 4 holds no request. -/
def serveScrub (s : Part) : Part :=
  match s.flash.scrub with
  | some x =>
      if x.replace.isSome then s else beginReading x.record (.move x.old x.target x.moved) .scrub s
  | none => if spoolWaits s then s else serveScrubHeads s.flash.scrubList.length s

/-- Class 6, the eraser, which does not run while the spool is WORN or FAULTED (R161). -/
def serveEraser (s : Part) : Part :=
  if s.flash.spool = .ready then
    match oldestUnheld s.flash with
    | some b => beginOperation (.erase b) .eraser s
    | none => s
  else s

/-! ### The arbiter (R160) -/

/-- The next class is served if the engine is still idle. -/
def orServe (f : Part → Part) (s : Part) : Part := if engineIdle s then f s else s

/-- The classes in order. A FAULT in class 4 queues a journal entry, so the choice is then made again. -/
def serveClasses : Nat → Part → Part
  | 0, s => s
  | n + 1, s =>
      let s := orServe serveFetch (orServe serveSystem (serveJournal s))
      if engineIdle s then
        match serveSpool s with
        | (s, true) => serveClasses n s
        | (s, false) => orServe serveEraser (orServe serveScrub s)
      else s

/-- The arbiter: an idle engine begins the next operation. Each repetition ends a record in FAULT, so their number
bounds it. -/
def arbitrate (s : Part) : Part := if engineRuns s && engineIdle s then serveClasses 33 s else s

/-- An event that may change the flash queue: what it does, then the arbiter, then RING_SPACE (R141, R160). -/
def thenArbitrate (f : Part → Part) (s : Part) : Part := ringSpace s (arbitrate (f s))

/-! ### The journal's effects (R145, R147, R165, R169) -/

/-- Whether the record at an index is still the one that had an open sequence (R159). -/
def concerns (r : Nat) (seq : Word) (s : Part) : Bool :=
  decide ((record s r).state ≠ .free) && decide ((record s r).seq = seq)

/-- A written BLOCK entry raises the durable length (R145), at most to the declared length (R135; log entry 32). -/
def writtenBlock (k : Half) (crc : Word) (v : Record) : Record :=
  let length := min (Config.blockBytes * (k.toNat + 1)) v.declared
  if v.durable < length then { v with durable := length, checkpoint := crc } else v

/-- A written SEAL entry settles its record (R147). -/
def writtenSeal (r : Nat) (corrupt : Bool) (s : Part) : Part :=
  let v := record s r
  if v.state = .sealing then
    raiseBoth .download (downloadDetail r (if corrupt then 2 else 1) v.title)
      (setRecord r
        { v with state := if corrupt then .corrupt else .sealed, durable := v.received, checkpoint := v.running.getD 0 } s)
  else s

/-- A written scrub's REPLACE completes the relocation (R165). -/
def writtenReplace (serial : Nat) (s : Part) : Part :=
  match s.flash.scrub with
  | none => s
  | some x =>
      if x.replace = some serial then
        let s := modifyFlash (fun f => { f with scrub := none, scrubList := f.scrubList.filter fun b => decide (b ≠ x.old) }) s
        if (record s x.record).extent[x.position]? = some x.old then
          raiseFlash ([3, byteOf x.record] ++ le2 x.old ++ le2 x.target)
            (modifyFlash (pendBlocks .free [x.old])
              (modifyRecord x.record (fun v => { v with extent := v.extent.set x.position x.target }) s))
        else modifyFlash (pendBlocks .free [x.target]) s
      else s

/-- A written entry takes effect (R169). -/
def writtenEntry (s : Part) (i : JItem) : Part :=
  let s := modifyJournal (fun j => { j with journaled := applyEntry s.flash.factoryBad j.journaled i.entry }) s
  let s :=
    match i.entry with
    | .block r k _ crc => if i.live then modifyRecord r.toNat (writtenBlock k crc) s else s
    | .sealed r x _ _ => if i.live then writtenSeal r.toNat x s else s
    | .replace _ _ _ _ => writtenReplace i.serial s
    | _ => s
  modifyFlash (endHolds (.entry i.serial)) s

/-- A journal page written: its entries leave the batch and take effect in their order, and the next page is the one
after; after page 63 a compaction is due (R169). -/
def journalWritten (n : Nat) (s : Part) : Part :=
  let j := s.flash.journal
  (j.batch.take n).foldl writtenEntry
    (modifyJournal
      (fun j => { j with batch := j.batch.drop n, nextPage := j.nextPage + 1, due := j.due || decide (j.nextPage = 63) }) s)

/-- A compaction whose snapshot is written: its block becomes active, and a format's holds end (R170, R174). -/
def compactionWritten (c : Compaction) (s : Part) : Part :=
  let s := modifyJournal
    (fun j =>
      { j with
        active := some c.dest, generation := c.generation, nextPage := c.pages.length, due := false, compaction := none,
        journaled := replayEntries s.flash.factoryBad c.pages.flatten }) s
  if c.format then raiseFlash ([8] ++ leWord c.generation) (modifyFlash (endHolds .format) s) else s

/-- A step of a compaction done (R170). -/
def compactionStep (s : Part) : Part :=
  match s.flash.journal.compaction with
  | none => s
  | some c =>
      let c' : Compaction := if c.isErased then { c with page := c.page + 1 } else { c with isErased := true }
      if c.pages.length ≤ c'.page then compactionWritten c s
      else modifyJournal (fun j => { j with compaction := some c' }) s

/-- All extents of the records, in ascending index order, each in its own order (DESIGN CHOICE, log entry 52). -/
def allExtents (s : Part) : List Nat := s.spool.records.toList.flatMap Record.extent

/-- The records and the ring cleared, and the fetches that wait on a record ended with GONE (R171, R174). The ring's fall
raises RING_SPACE when it was armed (R141), and the arm is clear afterwards. -/
def emptySpool (s : Part) : Part :=
  let emptied := modifySpool (fun x => { x with records := Vector.replicate 32 freeRecord, ring := [] }) s
  modifySpool (fun x => { x with arm := false })
    (endFetches (fun r => decide ((record s r).state ≠ .free)) (ringSpace s emptied))

/-- A journal program or a compaction step failed: the spool becomes FAULTED (R171). The operation is coded 0 ERASE,
1 PROGRAM. The relocation target joins the erase-pending list first and the extents' blocks after it, record by record
(DESIGN CHOICE, log entry 52). -/
def journalFailure (block operation : Nat) (s : Part) : Part :=
  let targets := (s.flash.scrub.map Scrub.target).toList ++ (s.flash.recovery.bind Recovery.target).toList
  let extents := allExtents s
  let s := emptySpool s
  let s := modifyFlash
    (fun f =>
      { pendBlocks .unrecorded extents (pendBlocks .free targets f) with
        spool := .faulted, scrubList := [], scrub := none, recovery := none
        journal := { f.journal with batch := [], compaction := none } }) s
  raiseFlash ([7] ++ le2 block ++ [byteOf operation]) s

/-! ### System writes (R70, R131, R166) -/

/-- The code of a system write in FLASH (R197). -/
def systemCode : SysKind → Nat
  | .rights => 4
  | .waveform => 5
  | .sleepScreen => 6

/-- The outstanding flag of a system write. -/
def setOutstanding (k : SysKind) (b : Bool) (s : Part) : Part :=
  match k with
  | .rights => modifyRights (fun r => { r with writeOutstanding := b }) s
  | .waveform => modifyWave (fun w => { w with reprogram := b }) s
  | .sleepScreen => modifyPower (fun p => { p with sleepWrite := b }) s

/-- A system write queued, and its outstanding flag set (R166). -/
def queueSystem (k : SysKind) (image : List Byte) (s : Part) : Part :=
  setOutstanding k true (modifyFlash (fun f => { f with system := f.system ++ [{ kind := k, step := 0, image := image }] }) s)

/-- A system write ended: FLASH with its outcome, and its outstanding flag cleared (R70, R131, R166). -/
def endSystem (k : SysKind) (outcome : List Byte) (s : Part) : Part :=
  setOutstanding k false
    (raiseFlash ([byteOf (systemCode k)] ++ outcome) (modifyFlash (fun f => { f with system := f.system.tail }) s))

/-- An operation of the system write in hand ended; a failure names the operation, coded 0 ERASE, 1 PROGRAM, and its
block. -/
def systemEnd (ok : Bool) (operation block : Nat) (s : Part) : Part :=
  match s.flash.system with
  | [] => s
  | j :: js =>
      if !ok then endSystem j.kind ([1, byteOf operation] ++ le2 block) s
      else if systemSteps j.kind ≤ j.step + 1 then endSystem j.kind [0] s
      else modifyFlash (fun f => { f with system := { j with step := j.step + 1 } :: js }) s

/-! ### The ends of operations (R142, R158, R159, R163 to R165) -/

/-- A heavily corrected block joins the scrub list (R159). -/
def joinScrub (b : Nat) (s : Part) : Part :=
  if (scrubbable b s).isSome ∧ b ∉ s.flash.scrubList ∧ s.flash.scrubList.length < 8 then
    modifyFlash (fun f => { f with scrubList := f.scrubList ++ [b] }) s
  else s

/-- Whether an outcome calls for scrubbing (R159). -/
def heavy : Ecc → Bool
  | .corrected n => decide (6 ≤ n)
  | .uncorrectable => true
  | .erased => false

/-- One more damaged page in the record that a read was begun for, unless that record has become FREE (R159). -/
def countDamage (r : Nat) (seq : Word) (s : Part) : Part :=
  if concerns r seq s then modifyRecord r (fun v => { v with damaged := min 255 (v.damaged + 1) }) s else s

/-- What the engine notes of a read of a page of a download record (R159). -/
def noteRead (reads : Option (Nat × Word)) (b page : Nat) (outcome : Ecc) (s : Part) : Part :=
  match reads with
  | none => s
  | some (r, seq) =>
      let s := if heavy outcome then joinScrub b s else s
      if outcome = .uncorrectable then raiseFlash ([0, byteOf r] ++ le2 b ++ [byteOf page]) (countDamage r seq s)
      else s

/-- A staging entry programmed (R142). -/
def stagingDone (r page : Nat) (s : Part) : Part :=
  match stagedEntry r page s with
  | none => s
  | some e =>
      let s := leaveRing r page s
      let s := modifyRecord r (fun v => { v with programmed := v.programmed + e.fill }) s
      let v := record s r
      let k := page / 64
      let s :=
        if page % 64 = 63 then
          queueEntry (.block (byteOf r) (BitVec.ofNat 16 k) (BitVec.ofNat 16 (v.extent.getD k 0)) e.crcAfter) s
        else s
      if v.state = .sealing ∧ !hasStaged r s then compareSeal r s else s

/-- The program of a staging entry ended (R142, R148, R163, R164). A recovery begun for a record whose ending flag is set
ends with this operation (`finishAbandon`). -/
def stagingEnd (r page block : Nat) (ok : Bool) (s : Part) : Part :=
  let ending := (record s r).ending
  let x : Recovery := { record := r, position := page / 64, failed := block, page := page % 64, target := none, moved := 0 }
  if ok then
    let s := stagingDone r page s
    if ending then freeDownload r s else s
  else if !ending && (retiredFull s || decide (s.flash.spool = .worn)) then
    failRecovery x (if retiredFull s then retire block 0 s else s)
  else setRecovery (some x) s

/-- A replacement in which an operation failed: it is retired, and the recovery begins again, or, at the 41st
retirement, it joins the erase-pending list and the record enters FAULT (R164). -/
def replacementFailed (x : Recovery) (y : Nat) (s : Part) : Part :=
  let full := retiredFull s
  let s := setRecovery (some { x with target := none, moved := 0 }) s
  let s := retire y 0 (if full then modifyFlash (pendBlocks .free [y]) s else s)
  if full && !(record s x.record).ending then failRecovery x s else s

/-- A recovery's final program done: the replacement takes the position, and the failed block is retired, or joins the
erase-pending list when the retired list is full (R161, R163). -/
def recoveryDone (x : Recovery) (y : Nat) (s : Part) : Part :=
  let s := modifyRecord x.record (fun v => { v with extent := v.extent.set x.position y }) (setRecovery none s)
  let s := queueEntry
    (.replace (byteOf x.record) (BitVec.ofNat 16 x.position) (BitVec.ofNat 16 x.failed) (BitVec.ofNat 16 y))
    s
  let s := if retiredFull s then modifyFlash (pendBlocks .free [x.failed]) s else s
  stagingDone x.record (64 * x.position + x.page) (retire x.failed 0 s)

/-- An operation of a recovery ended: a move, or the final program; one that is ending goes no further (R163, R164). -/
def recoveryEnd (isMove ok : Bool) (s : Part) : Part :=
  match s.flash.recovery with
  | none => s
  | some x =>
      match x.target with
      | none => s
      | some y =>
          if !ok then replacementFailed x y s
          else if (record s x.record).ending then s
          else if isMove then setRecovery (some { x with moved := x.moved + 1 }) s
          else recoveryDone x y s

/-- A move of a scrub relocation ended (R165). -/
def scrubEnd (ok : Bool) (s : Part) : Part :=
  match s.flash.scrub with
  | none => s
  | some x =>
      if !ok then
        let s := modifyFlash (fun f => { f with scrub := none, scrubList := f.scrubList.filter fun b => decide (b ≠ x.old) }) s
        retire x.target 0 (if retiredFull s then modifyFlash (pendBlocks .free [x.target]) s else s)
      else if x.moved + 1 < Config.blockPages then
        modifyFlash (fun f => { f with scrub := some { x with moved := x.moved + 1 } }) s
      else
        let serial := nextSerial s
        queueEntry
          (.replace (byteOf x.record) (BitVec.ofNat 16 x.position) (BitVec.ofNat 16 x.old) (BitVec.ofNat 16 x.target))
          (modifyFlash (fun f => { f with scrub := some { x with moved := x.moved + 1, replace := some serial } }) s)

/-- A spool block whose erase failed is retired (R161, R162). Of an erase meant for a scrub target R165 says nothing more: the
head stays on the scrub list and is taken up again when class 5 is next served (DESIGN CHOICE, log entry 50). -/
def eraseFailed (b : Nat) (s : Part) : Part := retire b 1 s

/-- An allocation's erase ended: the block is taken for the record's own oldest FULL entry while that entry still needs it
and the record may still draw it, whatever other record's entry has become the ring's oldest FULL one meanwhile (R143). A
block that is no longer needed joins the free pool (log entry 28). The entry's program is left to the arbiter's choice
(R160, R177). -/
def allocationErased (r b : Nat) (s : Part) : Part :=
  match oldestFullOf r s with
  | none => modifyFlash (joinFree b) s
  | some e =>
      if needsBlock e s ∧ mayDraw r s ∧ s.flash.recovery.isNone then takeBlock r b (modifyFlash (unpend b) s)
      else modifyFlash (joinFree b) s

/-- A replacement's erase ended: the block is taken unless the recovery is ending (R163, R164). -/
def replacementErased (b : Nat) (s : Part) : Part :=
  match s.flash.recovery with
  | none => modifyFlash (joinFree b) s
  | some x =>
      if !(record s x.record).ending && mayDraw x.record s then
        setRecovery (some { x with target := some b }) (drawReservation x.record (modifyFlash (unpend b) s))
      else modifyFlash (joinFree b) s

/-- A scrub target's erase ended: the head is relocated to it if it still is to be, and otherwise the block joins the
free pool (R165). -/
def scrubTargetErased (b : Nat) (s : Part) : Part :=
  match s.flash.scrubList with
  | [] => modifyFlash (joinFree b) s
  | h :: _ =>
      match scrubbable h s with
      | none => modifyFlash (joinFree b) (dropScrubHead s)
      | some (r, k) =>
          if poolBlocks s ≤ totalReservation s then modifyFlash (joinFree b) (dropScrubHead s)
          else
            modifyFlash
              (fun f =>
                { unpend b f with
                  scrub := some { record := r, position := k, old := h, target := b, moved := 0, replace := none } }) s

/-- The array after an operation ended (R158). -/
def afterOperation (o : Operation) (ecc : List Sector) (ok : Bool) (fresh : Nat) (m : List (Nat × Page)) :
    List (Nat × Page) :=
  match o with
  | .read _ _ => m
  | .program b p data => Nand.put m (Nand.address b p) (if ok then programmedPage data else .torn)
  | .erase b => if ok then Nand.eraseBlock m b else Nand.tearBlock m b
  | .move src dst p =>
      let a := Nand.address src p
      Nand.put m (Nand.address dst p) (if ok then programmedPage (readBytes (Nand.page m a) fresh a ecc) else .torn)

/-- The fetch whose page read ended: its bytes are placed and FETCH_READY is raised (R152). -/
def fetchEnd (p : Port) (outcome : Ecc) (data : List Byte) (s : Part) : Part :=
  match (port s p).fetch with
  | .waiting r o n false =>
      raise p .fetchReady ([byteOf r] ++ le4 o ++ le2 n ++ [byteOf (eccCode outcome)])
        (modifyPort p
          (fun u => { u with fetch := .ready r o n outcome ((data.drop (o % Config.pageBytes)).take n) true }) s)
  | _ => s

/-- What an ended operation does for the job it was begun for, while that job still stands. -/
def jobEnd (x : Running) (outcome : Ecc) (data : List Byte) (ok : Bool) (s : Part) : Part :=
  match x.job, x.operation with
  | .journal n, .program b _ _ => if ok then journalWritten n s else journalFailure b 1 s
  | .compaction, .program b _ _ => if ok then compactionStep s else journalFailure b 1 s
  | .compaction, .erase b => if ok then compactionStep s else journalFailure b 0 s
  | .system, .program b _ _ => systemEnd ok 1 b s
  | .system, .erase b => systemEnd ok 0 b s
  | .fetch p, .read _ _ => fetchEnd p outcome data s
  | .staging r page, .program b _ _ => stagingEnd r page b ok s
  | .allocation r, .erase b => if ok then allocationErased r b s else eraseFailed b s
  | .replacement, .erase b => if ok then replacementErased b s else eraseFailed b s
  | .recovery, .move _ _ _ => recoveryEnd true ok s
  | .recovery, .program _ _ _ => recoveryEnd false ok s
  | .scrubTarget, .erase b => if ok then scrubTargetErased b s else eraseFailed b s
  | .scrub, .move _ _ _ => scrubEnd ok s
  | .eraser, .erase b => if ok then modifyFlash (joinFree b) s else eraseFailed b s
  | _, _ => s

/-- The page that an operation reads. -/
def readAddress : Operation → Option (Nat × Nat)
  | .read b p => some (b, p)
  | .move src _ p => some (src, p)
  | _ => none

/-- An operation ended: the array, what a read gives, the job, and the abandon that waits for it (R164). The result of
one that ends in a forced OFF entry is not reported (R123, R158, R159). -/
def endOperation (x : Running) (ecc : List Sector) (ok : Bool) (s : Part) : Part :=
  let fresh := s.fresh
  let m := s.flash.nand
  let s := stepFresh (modifyFlash (fun f => { f with nand := afterOperation x.operation ecc ok fresh m, running := none }) s)
  if s.power.forcedOff then s
  else
    finishAbandon <| match readAddress x.operation with
    | none => if x.live then jobEnd x .erased [] ok s else s
    | some (b, p) =>
        let a := Nand.address b p
        let outcome := readOutcome (Nand.page m a) fresh a ecc
        let s := noteRead x.reads b p outcome s
        if x.live then jobEnd x outcome (readBytes (Nand.page m a) fresh a ecc) ok s else s

/-- The kinds of operation, coded as FLASH HEALTH READ codes them (R197). -/
def operationCode : Operation → Nat
  | .read _ _ => 1
  | .program _ _ _ => 2
  | .erase _ => 3
  | .move _ _ _ => 4

/-- The end of the operation in progress, if it is one of the kinds given. -/
def operationEnds (kinds : List Nat) (ecc : List Sector) (ok : Bool) (s : Part) : Part :=
  match s.flash.running with
  | none => s
  | some x => if operationCode x.operation ∈ kinds then thenArbitrate (endOperation x ecc ok) s else s

/-! ### Format and health (R174, R175) -/

/-- Every spool block that is neither factory-bad nor retired, ascending (R173, R174). -/
def unusedBlocks (bad used : List Nat) : List Nat :=
  ((List.range (Config.nandBlocks - Config.firstSpool)).map (· + Config.firstSpool)).filter
    fun b => !decide (b ∈ bad) && !decide (b ∈ used)

/-- Whether a job belongs to class 1, 4, 5 or 6, whose requests a format drops (R174). -/
def droppedByFormat : Job → Bool
  | .system | .fetch _ => false
  | _ => true

/-- The snapshot that a format writes (R174). -/
def formatCompaction (f : Flash) : Compaction :=
  { dest := otherBlock f.journal.active, generation := f.journal.generation + 1, isErased := false,
    pages := snapshotPages
      (snapshotEntries (f.journal.generation + 1) { emptyReplay with retired := f.retired, worn := decide (f.spool = .worn) }),
    page := 0, format := true }

/-- The flash engine after a format was carried out (R174). -/
def formatFlash (f : Flash) : Flash :=
  { f with
    spool := if f.spool = .worn then .worn else .ready
    free := []
    erasePending := (unusedBlocks f.factoryBad f.retired).map fun b => { block := b, hold := .format }
    scrubList := [], scrub := none, recovery := none
    running := f.running.map fun x => if droppedByFormat x.job then { x with live := false } else x
    journal := { f.journal with batch := [], compaction := some (formatCompaction f) } }

/-- SPOOL FORMAT's effect (R174). -/
def formatSpool (s : Part) : Part × Option Reply :=
  (thenArbitrate (fun s => modifyFlash formatFlash (modifySpool (fun x => { x with pointer := 8 }) (emptySpool s))) s,
    some { code := .ok })

/-- The relocation target with its job, 0 SCRUB or 1 RECOVERY. -/
def relocationTarget (f : Flash) : Option (Nat × Nat) :=
  match f.recovery.bind Recovery.target with
  | some y => some (y, 1)
  | none => f.scrub.map fun x => (x.target, 0)

/-- The 38 bytes of FLASH HEALTH READ (R175, R197). -/
def healthBytes (s : Part) : List Byte :=
  let f := s.flash
  let t := relocationTarget f
  le2 f.free.length ++ le2 f.erasePending.length ++ le2 (f.erasePending.filter fun e => decide (e.hold ≠ .free)).length
    ++ [byteOf f.retired.length, byteOf f.factoryBad.length, byteOf (spoolCode f.spool), byteOrAbsent f.journal.active]
    ++ leWord f.journal.generation ++ [byteOf f.journal.nextPage] ++ le2 (min 65535 f.journal.batch.length)
    ++ [byteOf f.scrubList.length] ++ padTo 16 (f.scrubList.flatMap le2)
    ++ halfOrAbsent (t.map Prod.fst) ++ [byteOrAbsent (t.map Prod.snd)]
    ++ [byteOf ((f.running.map fun x => operationCode x.operation).getD 0)]

end Sys2Proof.Machine
end

