-- ==== Sys2Proof/Machine/Flags.lean ====
section
/-! DEFINITION. The flags and conditions that the blocks compute from one another: the status bytes and STATUS (R190,
R195), the attention lines (R194), IDENTIFY (R195), a port's request and its end (R185), the quiet test (R114) and the orderly OFF condition (R122). -/

namespace Sys2Proof.Machine

/-! ### Attention and presence (R191, R194) -/

/-- Whether a kind is pending. -/
def isPending (u : NoticeUnit) (k : NoticeKind) : Bool := (notice u k).isSome

/-- Whether a kind can be read: pending and enabled (R193). -/
def readable (u : NoticeUnit) (k : NoticeKind) : Bool := isPending u k && kindEnabled u k

/-- Whether the notice unit asserts its line (R194). -/
def asserts (u : NoticeUnit) : Bool := u.master && allKinds.any (readable u)

/-- The attention line of a port: released in OFF and while the part does not run (R191, R194). -/
def attention (s : Part) (p : Port) : Bool := alive s && decide (s.power.state ≠ .off) && asserts (port s p).notices

/-- The debounced presence level of a port: true is HIGH (R191). -/
def isPresent (s : Part) (p : Port) : Bool := (s.debounce.presence.get p).level

/-- A port's outgoing request. -/
def request (s : Part) (p : Port) : Option PeerRequest := s.rights.requests.get p

/-- A port's outgoing request replaced. -/
def setRequest (p : Port) (r : Option PeerRequest) (s : Part) : Part :=
  modifyRights (fun x => { x with requests := x.requests.set p r }) s

/-- A request ends: its record becomes absent and a PEER_REQUEST still pending for it is cleared (R185). -/
def endRequest (p : Port) (s : Part) : Part := clearNotice (peer p) .peerRequest (setRequest p none s)

/-! ### Status (R190, R195) -/

/-- Status byte 0: the last result. -/
def statusByte0 (s : Part) (p : Port) : Byte := byteOf (resultValue (port s p).lastResult)

/-- Status byte 1. -/
def statusByte1 (s : Part) (p : Port) : Byte :=
  byteOf (flagBit 0 (attention s p) + flagBit 1 (request s p).isSome + flagBit 2 (fetchReadyFlag (port s p))
    + 8 * powerCode s.power.state + flagBit 6 (request s (peer p)).isSome)

/-- The pending kinds, bit k - 1 for kind k (R195). -/
def pendingBits (u : NoticeUnit) : Nat := (allKinds.map fun k => flagBit (kindIndex k) (isPending u k)).sum

/-- The 14 bytes of STATUS (R195). -/
def statusBytes (s : Part) (p : Port) : List Byte :=
  let u := port s p
  [byteOf (powerCode s.power.state), byteOf (batteryCode s.battery.state),
    byteOf (flagBit 0 s.power.asleep + flagBit 1 s.power.offPending + flagBit 2 (isPresent s (peer p))
      + flagBit 3 (request s p).isSome + flagBit 4 (fetchReadyFlag u) + flagBit 5 (request s (peer p)).isSome),
    byteOf (spoolCode s.flash.spool)]
    ++ le2 (pendingBits u.notices) ++ leHalf u.notices.enables
    ++ [byteOf u.notices.master.toNat, byteOf (resultValue u.lastResult)] ++ leWord u.lastValue

/-- The 57 bytes of IDENTIFY (R195). -/
def identifyBytes (s : Part) : List Byte :=
  let i := s.flash.identity
  leHalf i.vendor ++ leHalf i.part ++ [i.revision, byteOf i.factoryBad.length] ++ padTo 40 (i.factoryBad.flatMap le2)
    ++ le2 Config.panelColumns ++ le2 Config.panelRows ++ [16, byteOf Config.slotCount, 8, 32]
    ++ le2 Config.nandBlocks ++ [byteOf Config.blockPages]

/-! ### The quiet test and the orderly OFF condition (R114, R122) -/

/-- No lane runs and nothing waits to start (R114, R122). -/
def engineQuiet (e : Engine) : Bool := !anyLane e && e.queue.isEmpty && e.release.isEmpty

/-- Both applied light duties are 0 (R92). -/
def lightDark (l : Light) : Bool := decide (l.warm = 0) && decide (l.cool = 0)

/-- No operation in progress and none queued, other than erases of erase-pending blocks and scrub relocations (R114). -/
def flashQuiet (s : Part) : Bool :=
  engineIdle s && s.flash.journal.batch.isEmpty && s.flash.journal.compaction.isNone && s.flash.system.isEmpty
    && (queuedFetch s.ports.a.fetch).isNone && (queuedFetch s.ports.b.fetch).isNone && s.flash.recovery.isNone

/-- No staging entry is FULL or PROGRAMMING (R114, R122). -/
def ringQuiet (s : Part) : Bool := s.spool.ring.all fun e => decide (e.state = .filling)

/-- No record is OPEN or SEALING (R114). -/
def recordsQuiet (s : Part) : Bool :=
  s.spool.records.toList.all fun v => decide (v.state ≠ .opened) && decide (v.state ≠ .sealing)

/-- Neither port is selected (R114). -/
def portsQuiet (s : Part) : Bool := decide (s.ports.a.line = .deselected) && decide (s.ports.b.line = .deselected)

/-- The quiet test (R114). -/
def quiet (s : Part) : Bool :=
  decide (s.power.state = .settling) && !s.power.offPending && !s.power.forcedOff && engineQuiet s.engine
    && lightDark s.light && flashQuiet s && ringQuiet s && recordsQuiet s && portsQuiet s

/-- The orderly OFF condition (R122). -/
def orderlyOff (s : Part) : Bool :=
  decide (s.power.state = .settling) && s.power.offPending && engineQuiet s.engine && ringQuiet s
    && s.flash.journal.batch.isEmpty && s.flash.journal.compaction.isNone && s.flash.system.isEmpty && engineIdle s

end Sys2Proof.Machine
end

