-- ==== Sys2Proof/Machine/Power.lean ====
section
/-! DEFINITION. The power controller (chapter 7): sleep, wake, HOLD, the ways OFF, boot triggers and the BOOT sequence,
the reset kinds, the POWER key, the cover, the alarms and the commands of the power controller. -/

namespace Sys2Proof.Machine

/-! ### Sleep and wake (R112 to R117) -/

/-- The power state replaced. -/
def setPowerState (x : PowerState) (s : Part) : Part := modifyPower (fun p => { p with state := x }) s

/-- The display-asleep flag replaced. -/
def setAsleep (b : Bool) (s : Part) : Part := modifyPower (fun p => { p with asleep := b }) s

/-- The sleep-screen entry placed, when its slot is present and a table is held (R113, step 5). -/
def placeSleepScreen (wanted : Bool) (s : Part) : Part :=
  if wanted && isReady s Config.sleepSlot && tableHeld s then modifyEngine (placePower Config.sleepSlot) s else s

/-- Entry to SETTLING; `forOff` when it is part of an orderly OFF (R113). -/
def enterSettling (forOff : Bool) (s : Part) : Part :=
  let s := setPowerState .settling (setAsleep true s)
  let s := modifyTurn (setBacklog 0) s
  let s := modifyEngine (removeTurn none) s
  let s := recomputeLight s
  placeSleepScreen (s.power.sleepFlag || forOff) s

/-- A sleep request (R112). -/
def sleepRequest (s : Part) : Part := if s.power.state = .active then enterSettling false s else s

/-- Leaving HOLD for SETTLING (R116). The temperature is sampled before the next boundary: in this event (R71). -/
def leaveHold (s : Part) : Part :=
  if s.power.state = .hold then thenArbitrate (fun s => sampleTemperature (restoreRefresh (setPowerState .settling s))) s
  else s

/-- A wake (R117), discarded while an orderly OFF is in progress. -/
def wake (s : Part) : Part :=
  if s.power.offPending then s
  else if s.power.state = .settling ∨ s.power.state = .hold then
    wakeRestore (recomputeLight (setPowerState .active (setAsleep false (leaveHold s))))
  else s

/-- HOLD entry (R115). -/
def enterHold (s : Part) : Part := if quiet s then setPowerState .hold (computeRetention s) else s

/-! ### The ways OFF (R121 to R124) -/

/-- A transaction in progress discarded (R123, R124). -/
def discardLine (u : PortUnit) : PortUnit :=
  { u with line := if u.line = .deselected then .deselected else .ignored, sample := none }

/-- The flash queue dropped; an operation in progress runs to its end (R123). The fetch buffers and the block lists stay until
OFF, and the requests that follow from them begin nothing (`engineRuns`; log entry 17). -/
def dropFlashQueue (s : Part) : Part :=
  modifyFlash
    (fun f =>
      { f with
        system := [], recovery := none, scrub := none
        running := f.running.map fun x => { x with live := false }
        journal := { f.journal with batch := [], compaction := none } })
    (modifyRing (List.filter fun e => decide (e.state = .filling)) s)

/-- A port's request discarded without an outcome, if it has one (R123, R185). -/
def dropRequest (p : Port) (s : Part) : Part := if (request s p).isSome then endRequest p s else s

/-- The beginning of forced OFF entry (R123). A boot timing that still runs ends with the press record (DESIGN CHOICE, log
entry 48). -/
def beginForcedOff (s : Part) : Part :=
  let s := abortEngine s
  let s := modifyLight darkLight s
  let s := modifyPorts discardLine s
  let s := dropFlashQueue s
  let s := dropRequest .B (dropRequest .A s)
  modifyPower (fun p => { p with forcedOff := true, press := none, bootTiming := false }) s

/-- A port at entry to OFF: its notices cleared and its results at their defaults; the kind enables stay until BOOT ends
(R124, R155, R190, R192). -/
def offPort (u : PortUnit) : PortUnit :=
  let u := clearAllIn (discardLine u)
  { u with lastResult := .ok, lastValue := 0, fetch := .empty }

/-- The power controller at entry to OFF (R124, R133). A boot timing that still runs from an earlier OFF ends (DESIGN CHOICE,
log entry 48). -/
def offPower (p : Power) : Power :=
  { p with
    state := .off, asleep := false, offPending := false, forcedOff := false, alarms := { p.alarms with b := none },
    heldAlarms := Both.same none, alarmForOff := false, press := none, bootTiming := false, sleepWrite := false }

/-- Entry to OFF, orderly or forced (R124, with R19, R38, R63, R83, R94, R109, R155, R176, R178). -/
def enterOff (s : Part) : Part :=
  { s with
    ports := ⟨offPort s.ports.a, offPort s.ports.b⟩
    rights := defaultRights
    store := defaultStore
    turn := defaultTurn
    engine := { defaultEngine with nextSerial := s.engine.nextSerial }
    wave := defaultWave
    light := darkLight s.light
    battery := { s.battery with resistance := 200 }
    power := offPower s.power
    spool := defaultSpool
    flash := defaultFlash s.flash.nand s.flash.identity }

/-! ### Boot triggers (R106, R125) -/

/-- Whether a mean admits a boot (R125). -/
def admits (b : Battery) : Bool := decide (3450 ≤ (mean b).getD 0)

/-- BOOT entered (R125, R126). -/
def enterBoot (reason : BootReason) (s : Part) : Part :=
  modifyFlash (fun f => { f with factoryBad := f.identity.factoryBad })
    (modifyPower (fun p => { p with state := .boot, bootReason := reason, chargerRetry := false }) s)

/-- The reason of a boot admitted from a trigger in OFF: COLD while a cold start is pending (R125). -/
def triggerReason (reason : BootReason) (s : Part) : BootReason := if s.power.coldPending then .cold else reason

/-- A boot trigger (R125): the admission sample, and the boot admitted or refused. Outside OFF it has no effect. -/
def bootTrigger (reason : BootReason) (s : Part) : Part :=
  if s.power.state ≠ .off then s
  else
    let s := takeSample s
    if admits s.battery then enterBoot (triggerReason reason s) s
    else if reason = .charger then modifyPower (fun p => { p with chargerRetry := true }) s
    else s

/-- The orderly or forced entry to OFF, with an expiry of Port A's alarm that was held for it (R122 to R124, R129). -/
def takeOff (s : Part) : Part :=
  let alarm := s.power.alarmForOff
  let s := enterOff s
  if alarm then bootTrigger .alarm s else s

/-- Whether OFF is entered now: the orderly condition holds, or a forced entry has no operation left to await (R122,
R123). -/
def offDue (s : Part) : Bool := orderlyOff s || (s.power.forcedOff && engineIdle s)

/-! ### The BOOT sequence (R126, R127) -/

/-- One rights record of an image (R197). -/
def rightsAt (bs : List Byte) (i : Nat) : Rights := { mask := wordAt bs i, caps := byteAt bs (i + 4), defer := byteAt bs (i + 5) }

/-- Whether a rights record is a legal one (R178, R179). -/
def rightsLegal (r : Rights) : Bool := decide (r.mask.toNat < 2 ^ 28) && decide (r.caps &&& r.defer = 0)

/-- Whether a page holds a valid rights image (R179, R197). -/
def imageValid (bs : List Byte) : Bool :=
  decide (byteAt bs 0 = 1) && decide (crc32 (bs.take 13) = wordAt bs 13) && rightsLegal (rightsAt bs 1) && rightsLegal (rightsAt bs 7)

/-- A page of a system image as the BOOT loads of steps 2 to 4 read it: its outcome and its bytes. A partly programmed
page makes its image invalid (R70, R131, R166): it counts as UNCORRECTABLE. -/
def bootRead (ecc : List (Nat × List Sector)) (s : Part) (address : Nat) : Ecc × List Byte :=
  let page := Nand.page s.flash.nand address
  (if page = some .torn then .uncorrectable else readOutcome page s.fresh address (eccOf ecc address),
    readBytes page s.fresh address (eccOf ecc address))

/-- Step 2: the rights records (R126, R179). -/
def loadRights (ecc : List (Nat × List Sector)) (s : Part) : Part :=
  let x := bootRead ecc s 0
  if x.1 ≠ .uncorrectable ∧ x.1 ≠ .erased ∧ imageValid x.2 then
    modifyRights (fun r => { r with records := ⟨rightsAt x.2 1, rightsAt x.2 7⟩, fromFlash := true }) s
  else modifyRights (fun r => { r with records := defaultRecords, fromFlash := false }) s

/-- Step 3: the waveform table, its 13 pages read from block 1 (R67, R126). -/
def loadTable (ecc : List (Nat × List Sector)) (s : Part) : Part :=
  let pages := (List.range 13).map fun i => 64 + i
  if pages.any fun a => decide ((bootRead ecc s a).1 = .uncorrectable) then s
  else
    let file := (pages.flatMap fun a => (bootRead ecc s a).2).take Config.tableBytes
    if tableValid file then setSlot Config.waveformSlot imageSlot (placeTable 0 file s) else s

/-- The bytes of the sleep screen read from a page on; none when a page reads UNCORRECTABLE or ERASED (R126, step 4). -/
def readSleepScreen (read : Nat → Ecc × List Byte) : Nat → Nat → Option (List Byte)
  | 0, _ => some []
  | n + 1, address =>
      let x := read address
      if x.1 = .uncorrectable ∨ x.1 = .erased then none
      else (readSleepScreen read n (address + 1)).map fun rest => x.2 ++ rest

/-- Step 4: the sleep screen, pages 0 to 253 of blocks 2 to 5 (R126, R131). -/
def loadSleepScreen (ecc : List (Nat × List Sector)) (s : Part) : Part :=
  match readSleepScreen (bootRead ecc s) 254 128 with
  | none => s
  | some bs =>
      setSlot Config.sleepSlot imageSlot
        (setDram (Memory.writeRun s.store.dram (dramAddress Config.sleepSlot 0) (bs.take Config.imageBytes)) s)

/-- A download record after BOOT (R154). The last checkpoint in bytes is at most the declared length (R135; log entry
32). -/
def restoredRecord (v : JRecord) : Record :=
  let base : Record :=
    { freeRecord with
      title := v.title, writer := v.writer, declared := v.declared, extent := v.extent, seq := v.seq,
      checkpoint := v.checkpoint }
  let length := min (Config.blockBytes * v.blocks) v.declared
  match v.state with
  | .opened | .stalled | .sealing =>
      { base with
        state := .stalled, received := length, programmed := length, durable := length, running := some v.checkpoint,
        reservation := blocksNeeded v.declared - v.extent.length, stall := 3 }
  | .fault => { base with state := .fault, received := length, programmed := length, durable := length, running := none }
  | .sealed | .corrupt | .claimed =>
      { base with
        state := v.state, received := v.declared, programmed := v.declared, durable := v.declared,
        running := some v.running, checkpoint := v.running }
  | .free => freeRecord

/-- The open sequence numbers that a journal's entries carry (R154). -/
def lastSequence (es : List JEntry) : Option Word :=
  (es.filterMap fun e => match e with
    | .opened _ _ _ _ q _ _ => some q
    | _ => none).foldl
      (fun best q => match best with
        | none => some q
        | some b => some (if b < q then q else b)) none

/-- Blocks on the erase-pending list after a replay (R172, R173). -/
def replayPending (bad used : List Nat) : List ErasePending :=
  (unusedBlocks bad used).map fun b => { block := b, hold := .free }

/-- The spool rebuilt from the entries of the chosen block (R154, R173). -/
def rebuildSpool (block : Nat) (g : Word) (es : List JEntry) (stop : Option Nat) (s : Part) : Part :=
  let r := replayEntries s.flash.factoryBad es
  let used := r.retired ++ r.records.toList.flatMap JRecord.extent
  let s := { s with spool :=
    { defaultSpool with
      records := ⟨(r.records.toList.map restoredRecord).toArray, by simp⟩
      nextSeq := ((lastSequence es).map (· + 1)).getD 0 } }
  cutReservations
    (modifyFlash
      (fun f =>
        { f with
          free := [], erasePending := replayPending f.factoryBad used, retired := r.retired, scrubList := [],
          spool := if r.worn then .worn else .ready
          journal :=
            { f.journal with
              active := some block, generation := g, nextPage := stop.getD (Config.unstatedNextPage s.fresh),
              batch := [], due := decide (stop = none) || decide (stop = some 64), compaction := none, journaled := r } }) s)

/-- A replay that finds no valid snapshot (R172). -/
def faultSpool (g : Word) (s : Part) : Part :=
  modifyFlash
    (fun f =>
      { f with
        free := [], erasePending := replayPending f.factoryBad [], retired := [], scrubList := [], spool := .faulted
        journal :=
          { f.journal with
            active := none, generation := g, nextPage := Config.unstatedNextPage s.fresh, batch := [], due := false,
            compaction := none, journaled := emptyReplay } })
    { s with spool := defaultSpool }

/-- Step 5: the journal (R126, R172, R173). -/
def replayJournal (ecc : List (Nat × List Sector)) (s : Part) : Part :=
  let six := scanBlock s.flash.nand s.fresh ecc 6
  let seven := scanBlock s.flash.nand s.fresh ecc 7
  match chooseJournal six.1 seven.1 with
  | some (6, g) => rebuildSpool 6 g six.1 six.2 s
  | some (b, g) => rebuildSpool b g seven.1 seven.2 s
  | none => faultSpool (highestGeneration (six.1 ++ seven.1)) s

/-- The flags of BOOTED (R127, R197). -/
def bootedFlags (s : Part) : Nat :=
  flagBit 0 (!s.rights.fromFlash) + flagBit 1 (!tableHeld s) + flagBit 2 (!isReady s Config.sleepSlot)
    + flagBit 3 (decide (s.flash.spool = .faulted))

/-- An expiry taken in BOOT raised at the entry to ACTIVE (R129). -/
def raiseHeldAlarm (p : Port) (s : Part) : Part :=
  match s.power.heldAlarms.get p with
  | none => s
  | some t => raise p .alarm (leWord t) s

/-- The power controller as BOOT ends in ACTIVE (R126, R133). -/
def activePower (p : Power) : Power :=
  { p with
    state := .active, asleep := false, coverFlag := true, restoreFlag := true, sleepFlag := true, coldPending := false,
    chargerRetry := false }

/-- A port's notice unit as BOOT ends: nothing pending, everything enabled (R192). A read in progress keeps its sample,
and a NOTICE READ counts the raises of its kind from then on (R193). -/
def clearedNotices (u : PortUnit) : PortUnit :=
  { u with notices := defaultNotices, sample := u.sample.map fun x => { x with raises := 0 } }

/-- Step 6: the entry to ACTIVE (R126, R127, R129). -/
def enterActive (s : Part) : Part :=
  let s := modifyPower activePower s
  let s := recomputeLight (sampleTemperature s)
  let s := modifyPorts clearedNotices s
  let s := raiseBoth .booted
    [byteOf (bootReasonCode s.power.bootReason), byteOf (bootedFlags s), byteOf (batteryCode s.battery.state)] s
  let s := raiseHeldAlarm .B (raiseHeldAlarm .A s)
  modifyPower (fun p => { p with heldAlarms := Both.same none }) s

/-- The shown image set to level 15 at every pixel (R15, R19). -/
def whitenShown (s : Part) : Part :=
  setDram (Memory.clear s.store.dram (dramAddress Config.shownSlot 0) (dramAddress (Config.shownSlot + 1) 0)) s

/-- The system slots that a BOOT fills with white and with an empty ring (R5, R19). The slot table gives them READY from
the event that ends BOOT, not from its first step (DESIGN CHOICE, log entry 43). -/
def bootSlots (s : Part) : Part :=
  setSlot Config.stagingSlot imageSlot (setSlot Config.shownSlot imageSlot (whitenShown s))

/-- Steps 2 to 6 of the BOOT sequence (R126). -/
def bootSequence (ecc : List (Nat × List Sector)) (s : Part) : Part :=
  thenArbitrate enterActive
    (stepFresh (replayJournal ecc (loadSleepScreen ecc (loadTable ecc (loadRights ecc (bootSlots s))))))

/-! ### The reset kinds (R128) -/

/-- The array after an operation was abandoned part-way (R128, R158). Whether a move had come to its program is a free
value. -/
def abandonOperation (o : Operation) (fresh : Nat) (m : List (Nat × Page)) : List (Nat × Page) :=
  match o with
  | .read _ _ => m
  | .program b p _ => Nand.put m (Nand.address b p) .torn
  | .erase b => Nand.tearBlock m b
  | .move _ dst p => if Config.moveInProgram fresh then Nand.put m (Nand.address dst p) .torn else m

/-- The array when the part stops at once. -/
def abandonedNand (s : Part) : List (Nat × Page) :=
  match s.flash.running with
  | none => s.flash.nand
  | some x => abandonOperation x.operation s.fresh s.flash.nand

/-- A port's line after a reset kind: a transaction in progress is discarded. -/
def resetPort (u : PortUnit) : PortUnit :=
  { defaultPort with line := if u.line = .deselected then .deselected else .ignored }

/-- Every block at its default, the work in flight aborted (R128). -/
def resetPart (cold : Bool) (s : Part) : Part :=
  { defaultPart s.pins (abandonedNand s) s.flash.identity cold (s.fresh + 1) with
    supply := s.supply
    ports := ⟨resetPort s.ports.a, resetPort s.ports.b⟩ }

/-- The end of a reset line or a consent reset: the admission sample, and BOOT or OFF (R106, R128). -/
def admitReset (reason : BootReason) (s : Part) : Part :=
  let s := takeSample s
  if admits s.battery then enterBoot reason s else s

/-- RESET_N's level replaced. -/
def setResetPin (low : Bool) (s : Part) : Part := { s with pins := { s.pins with resetLow := low } }

/-- The reset line falls (R128). -/
def resetFall (s : Part) : Part :=
  if s.supply && !s.pins.resetLow then resetPart s.power.coldPending (setResetPin true s) else setResetPin true s

/-- The reset line rises (R128). -/
def resetRise (s : Part) : Part :=
  if s.supply && s.pins.resetLow then admitReset .resetLine (resetPart s.power.coldPending (setResetPin false s))
  else setResetPin false s

/-- The consent reset: a pulse of the reset line (R128, R187). -/
def consentReset (s : Part) : Part := admitReset .consentReset (resetPart s.power.coldPending s)

/-- Supply is first applied (R128); a charger line found high counts as a rise (R125). -/
def coldStart (s : Part) : Part :=
  let s := resetPart true { s with supply := true }
  if alive s && s.pins.charger then bootTrigger .charger s else s

/-- The supply is lost. -/
def loseSupply (s : Part) : Part := if s.supply then resetPart true { s with supply := false } else s

/-! ### Inputs and debouncers (R20, R119, R191) -/

/-- A debouncer whose input changed: a change to the opposite level starts its timer, a return drops the candidate. -/
def inputChanged (v : Bool) (d : Debouncer) : Debouncer := { d with candidate := if v = d.level then none else some v }

/-- A debouncer whose timer has run out. -/
def settledDebouncer (v : Bool) : Debouncer := { level := v, candidate := none }

/-- The debouncer of a turn key. -/
def keyOf (d : Debouncers) : TurnKey → Debouncer
  | .fwd => d.fwd
  | .back => d.back
  | .home => d.home

/-- The debouncer of a turn key replaced. -/
def setKey (k : TurnKey) (v : Debouncer) (d : Debouncers) : Debouncers :=
  match k with
  | .fwd => { d with fwd := v }
  | .back => { d with back := v }
  | .home => { d with home := v }

/-- The debouncers changed. -/
def modifyDebounce (f : Debouncers → Debouncers) (s : Part) : Part := { s with debounce := f s.debounce }

/-- The inputs with a new level at one of them. -/
def inputPins (x : Input) (p : Pins) : Pins :=
  match x with
  | .turnKey .fwd v => { p with fwd := v }
  | .turnKey .back v => { p with back := v }
  | .turnKey .home v => { p with home := v }
  | .powerKey v => { p with power := v }
  | .cover v => { p with cover := v }
  | .presence q v => { p with presence := p.presence.set q v }
  | .battery c => { p with batSense := c }
  | .temperature c => { p with tempSense := c }

/-- The debouncers after a change at an input. -/
def inputDebounce (x : Input) (d : Debouncers) : Debouncers :=
  match x with
  | .turnKey k v => setKey k (inputChanged v (keyOf d k)) d
  | .powerKey v => { d with power := inputChanged v d.power }
  | .cover v => { d with cover := inputChanged v d.cover }
  | .presence q v => { d with presence := d.presence.modify q (inputChanged v) }
  | .battery _ => d
  | .temperature _ => d

/-- A change at an input: the debouncers take it while the part runs. -/
def takeInput (x : Input) (s : Part) : Part :=
  whileRunning (modifyDebounce (inputDebounce x)) { s with pins := inputPins x s.pins }

/-! ### Keys, cover and charger (R21, R118, R119, R125) -/

/-- What the debounced PRESS of a turn key does (R21). -/
def keyAction (k : TurnKey) (s : Part) : Part :=
  match s.power.state with
  | .off | .boot => s
  | .settling | .hold => wake s
  | .active =>
      match k with
      | .fwd => turnPress 1 s
      | .back => turnPress (-1) s
      | .home => homePress s

/-- An action of a key or of the cover, discarded from the beginning of a forced OFF entry on (R123). -/
def unlessForced (f : Part → Part) (s : Part) : Part := if s.power.forcedOff then s else f s

/-- The press record opened at a POWER press outside OFF (R118). -/
def openPress (x : PressStart) (s : Part) : Part :=
  modifyPower (fun p => { p with press := some { start := x, held := 0, long := false } }) s

/-- A POWER press (R118, R125). -/
def powerPressAction (s : Part) : Part :=
  match s.power.state with
  | .off => modifyPower (fun p => { p with bootTiming := true }) s
  | .boot => openPress .boot s
  | .active => openPress .active s
  | .settling => if s.power.offPending then openPress .offPending s else wake (openPress .asleep s)
  | .hold => wake (openPress .asleep s)

/-- POWER_KEY raised, 0 SHORT or 1 LONG, with the power state (R118, R197). -/
def raisePowerKey (long : Nat) (s : Part) : Part := raise .A .powerKey [byteOf long, byteOf (powerCode s.power.state)] s

/-- A POWER release (R118, R125). -/
def powerReleaseAction (s : Part) : Part :=
  let press := s.power.press
  let s := modifyPower (fun p => { p with press := none, bootTiming := false }) s
  match press with
  | none => s
  | some r => if r.start = .active ∧ !r.long then sleepRequest (raisePowerKey 0 s) else s

/-- A press record reaches 2 s (R118). -/
def powerHeld2 (s : Part) : Part :=
  match s.power.press with
  | none => s
  | some r =>
      if r.held ≠ 0 then s
      else
        let s := modifyPower (fun p => { p with press := some { r with held := 2000, long := true } }) s
        if s.power.state = .active ∧ (r.start = .active ∨ r.start = .asleep) then raisePowerKey 1 s else s

/-- A press record reaches 8 s (R118, R123). -/
def powerHeld8 (s : Part) : Part :=
  match s.power.press with
  | none => s
  | some r => if r.held = 2000 then beginForcedOff s else s

/-- A boot timing reaches 1 s (R125). -/
def powerHeld1 (s : Part) : Part :=
  if s.power.bootTiming then bootTrigger .powerKey (modifyPower (fun p => { p with bootTiming := false }) s) else s

/-- What a cover change does: 0 NONE, 1 SLEEP, 2 WAKE (R119). -/
def coverEffect (closed : Bool) (s : Part) : Nat :=
  if !s.power.coverFlag then 0
  else
    match s.power.state with
    | .active => if closed then 1 else 0
    | .settling => if !closed && !s.power.offPending then 2 else 0
    | .hold => if !closed then 2 else 0
    | .off | .boot => 0

/-- A debounced change of the cover (R119). -/
def coverAction (closed : Bool) (s : Part) : Part :=
  if s.power.state = .off ∨ s.power.state = .boot then s
  else
    let effect := coverEffect closed s
    let s := raise .A .cover [byteOf closed.toNat, byteOf effect] s
    if effect = 1 then sleepRequest s else if effect = 2 then wake s else s

/-- CHG_DET's level replaced. -/
def setCharger (b : Bool) (s : Part) : Part := { s with pins := { s.pins with charger := b } }

/-- The charger line rises (R125). -/
def chargerRises (s : Part) : Part :=
  if s.pins.charger then s else whileRunning (unlessForced (bootTrigger .charger)) (setCharger true s)

/-- The charger line falls, which clears the charger retry (R125). -/
def chargerFalls (s : Part) : Part := modifyPower (fun p => { p with chargerRetry := false }) (setCharger false s)

/-! ### Samples, ticks and alarms (R98, R104, R129) -/

/-- A battery sample in its power state: in OFF the charger retry, elsewhere the forced OFF of CUTOFF (R104, R125). -/
def batteryEvent (s : Part) : Part :=
  let old := s.battery.state
  let s := takeSample s
  if s.power.state = .off then
    if s.power.chargerRetry && admits s.battery then bootTrigger .charger s else s
  else if s.battery.state = .cutoff ∧ old ≠ .cutoff ∧ !s.power.forcedOff then beginForcedOff s
  else s

/-- An alarm's second tick: it stays at 0 until its expiry is taken. -/
def tickAlarm (a : Option Nat) : Option Nat := a.map (· - 1)

/-- A request's second tick (R183). -/
def tickRequest (r : Option PeerRequest) : Option PeerRequest := r.map fun x => { x with age := min 30 (x.age + 1) }

/-- A second tick of the timebase (R71, R129, R183). -/
def secondTick (s : Part) : Part :=
  let s := modifyPower
    (fun p => { p with timebase := p.timebase + 1, alarms := ⟨tickAlarm p.alarms.a, tickAlarm p.alarms.b⟩ }) s
  let s := modifyWave (fun w => if w.reading.isSome then { w with age := w.age + 1 } else w) s
  modifyRights (fun r => { r with requests := ⟨tickRequest r.requests.a, tickRequest r.requests.b⟩ }) s

/-- An expiry taken by power state (R123, R129). -/
def takeExpiry (p : Port) (s : Part) : Part :=
  if s.power.forcedOff then
    match p with
    | .A => modifyPower (fun x => { x with alarmForOff := true }) s
    | .B => s
  else
    match s.power.state with
    | .active | .settling | .hold => raise p .alarm (leWord s.power.timebase) s
    | .boot => modifyPower (fun x => { x with heldAlarms := x.heldAlarms.set p (some x.timebase) }) s
    | .off =>
        match p with
        | .A => bootTrigger .alarm s
        | .B => s

/-- An alarm whose expiry has come (R129). -/
def expireAlarm (p : Port) (s : Part) : Part :=
  if s.power.alarms.get p = some 0 then
    takeExpiry p (modifyPower (fun x => { x with alarms := x.alarms.set p none }) s)
  else s

/-- Whether records change at a stall tick: in the states in which records exist, and not while a forced OFF entry waits
(R123, R150). -/
def stallsCount (s : Part) : Bool :=
  !s.power.forcedOff && (decide (s.power.state = .active) || decide (s.power.state = .settling) || decide (s.power.state = .hold))

/-- Whether frame boundaries occur (R48, R123). -/
def boundariesRun (s : Part) : Bool :=
  !s.power.forcedOff && (decide (s.power.state = .active) || decide (s.power.state = .settling))

/-- Whether the temperature is sampled every 4 s (R71). -/
def temperatureRuns (s : Part) : Bool := decide (s.power.state = .active) || decide (s.power.state = .settling)

/-! ### Commands (R112, R117, R120, R121, R129, R130) -/

/-- SLEEP's effect (R112). -/
def commandSleep (s : Part) : Part × Option Reply := (sleepRequest s, some { code := .ok })

/-- WAKE's effect (R117). -/
def commandWake (s : Part) : Part × Option Reply := (wake s, some { code := .ok })

/-- POWER OFF's effect (R121). -/
def commandPowerOff (s : Part) : Part × Option Reply :=
  let s := if s.power.state = .active then enterSettling true s else s
  (recomputeLight (modifyPower (fun p => { p with offPending := true }) s), some { code := .ok })

/-- POWER POLICY's effect (R120); the previous flags lie in the value in the order of the parameters (log entry 7). -/
def setPolicy (cover restore sleepScreen : Byte) (s : Part) : Part × Option Reply :=
  match flagOf cover, flagOf restore, flagOf sleepScreen with
  | some c, some r, some z =>
      let p := s.power
      (modifyPower (fun p => { p with coverFlag := c, restoreFlag := r, sleepFlag := z }) s,
        some { code := .ok,
               value := BitVec.ofNat 32 (flagBit 0 p.coverFlag + flagBit 8 p.restoreFlag + flagBit 16 p.sleepFlag) })
  | _, _, _ => (s, some { code := .badParam })

/-- The alarm that a number of seconds sets (R129). -/
def alarmOf (seconds : Nat) : Option Nat := if seconds = 0 then none else some (min seconds 86400)

/-- ALARM SET's effect on the issuer's own alarm (R129). -/
def setAlarm (p : Port) (seconds : Word) (s : Part) : Part × Option Reply :=
  (modifyPower (fun x => { x with alarms := x.alarms.set p (alarmOf seconds.toNat) }) s,
    some { code := .ok, value := BitVec.ofNat 32 ((s.power.alarms.get p).getD 0) })

/-- SLEEP SCREEN STORE's checks and effect (R130). -/
def storeSleepScreen (i : Byte) (s : Part) : Part × Option Reply :=
  if Config.pageSlots ≤ i.toNat then (s, some { code := .badParam })
  else if s.power.sleepWrite then (s, some { code := .busy })
  else if !isReady s i.toNat then (s, some { code := .badState })
  else if (slot s Config.sleepSlot).showing ≠ 0 then (s, some { code := .slotBusy })
  else
    let image := seenRun s i.toNat 0 Config.imageBytes
    let s := setSlot Config.sleepSlot imageSlot
      (setDram (Memory.writeRun s.store.dram (dramAddress Config.sleepSlot 0) image) s)
    (queueSystem .sleepScreen [] s, some { code := .ok })

/-- WAVEFORM LOAD's checks and effect (R68). -/
def loadWaveform (i : Byte) (s : Part) : Part × Option Reply :=
  if Config.pageSlots ≤ i.toNat then (s, some { code := .badParam })
  else if s.wave.replacementPending ∨ s.wave.reprogram then (s, some { code := .busy })
  else if !isReady s i.toNat then (s, some { code := .badState })
  else
    let file := seenRun s i.toNat 0 Config.tableBytes
    if tableValid file then
      let s := modifyWave (fun w => { w with replacementPending := true }) (placeTable Config.incomingOffset file s)
      (queueSystem .waveform [] s, some { code := .ok })
    else (s, some { code := .badParam })

end Sys2Proof.Machine
end

