-- ==== Sys2Proof/Machine/Rights.lean ====
section
/-! DEFINITION. The rights unit (chapter 10): the command check, peer requests and their endings, what a granted command
does, and the commands of the rights unit. -/

namespace Sys2Proof.Machine

/-! ### The command check (R180 to R182) -/

/-- The code of a command as a number; an event has none. -/
def codeOf (i : Instr) : Nat := (commandCode i).getD 0xFF

/-- The data bytes that follow a command's parameters (R197). -/
def dataLength : Instr → Nat
  | .slotWrite _ _ _ data => data.length
  | .slotWriteRect _ _ _ _ _ _ data => data.length
  | .chunkWrite _ _ _ data => data.length
  | i => strayData i

/-- Bit `n` of a capability set (R196). -/
def hasCapability (caps : Byte) (n : Nat) : Bool := caps.getLsbD n

/-- The bit of SYSTEM in a capability set (R196). -/
def systemBit : Nat := 7

/-- The tests of a command that is to be referred (R181, R182). -/
def referral (i : Instr) (p : Port) (s : Part) : Verdict :=
  if isReadCode (codeOf i) || decide (32 < (commandParams i).length) || decide (dataLength i ≠ 0) then .refuse .denied
  else if (request s p).isSome then .refuse .busy
  else if !isPresent s (peer p) then .refuse .denied
  else .refer

/-- A command that needs a capability: held, deferrable, or neither (R181). -/
def capabilityVerdict (n : Nat) (i : Instr) (p : Port) (s : Part) : Verdict :=
  let r := s.rights.records.get p
  if hasCapability r.caps n then .pass
  else if hasCapability r.defer n then referral i p s
  else .refuse .denied

/-- A SYSTEM-class command (R182). -/
def systemVerdict (i : Instr) (p : Port) (s : Part) : Verdict :=
  let r := s.rights.records.get p
  if hasCapability r.caps systemBit then (if isPresent s (peer p) then referral i p s else .pass)
  else if hasCapability r.defer systemBit then referral i p s
  else .refuse .denied

/-- What the rights unit decides of a command (R180 to R182). -/
def verdict (i : Instr) (p : Port) (s : Part) : Verdict :=
  match needOf (codeOf i) with
  | .none => .pass
  | .slots => .pass
  | .capability n => capabilityVerdict n i p s
  | .system => systemVerdict i p s

/-! ### Requests and their endings (R183, R185) -/

/-- A command becomes its port's peer request (R183). -/
def refer (i : Instr) (p : Port) (s : Part) : Part :=
  raise (peer p) .peerRequest [byteOf (portCode p), byteOf (codeOf i), byteOf (commandParams i).length]
    (setRequest p (some { code := byteOf (codeOf i), params := commandParams i, age := 0 }) s)

/-- PEER_OUTCOME raised on the issuer (R184, R197). Bytes 2 to 5 of an outcome that carries no value are 0 (DESIGN CHOICE,
log entry 53). -/
def raiseOutcome (p : Port) (code : Byte) (r : Reply) (s : Part) : Part :=
  raise p .peerOutcome ([code, byteOf (resultValue r.code)] ++ leWord r.value) s

/-- A port's request, if it has one, ends with an outcome (R185). -/
def endWith (p : Port) (code : ResultCode) (s : Part) : Part :=
  match request s p with
  | none => s
  | some r => raiseOutcome p r.code { code := code } (endRequest p s)

/-- The debounced presence level of a port changed: a fall ends its peer's request (R185, R191). -/
def presenceChanged (p : Port) (high : Bool) (s : Part) : Part := if high then s else endWith (peer p) .peerGone s

/-- A request whose age has reached 30 expires (R183, R185). -/
def expireRequest (p : Port) (s : Part) : Part :=
  match request s p with
  | none => s
  | some r => if 30 ≤ r.age then endWith p .expired s else s

/-! ### The commands of the rights unit (R186, R187) -/

/-- RIGHTS SET's checks and effect (R186). Every bit of a capability byte names one of the eight capabilities. -/
def setRights (target : Byte) (mask : Word) (caps defer : Byte) (s : Part) : Part × Option Reply :=
  let r : Rights := { mask := mask, caps := caps, defer := defer }
  match portOf target with
  | none => (s, some { code := .badParam })
  | some q =>
      if rightsLegal r then
        (modifyRights (fun x => { x with records := x.records.set q r }) s, some { code := .ok })
      else (s, some { code := .badParam })

/-- One rights record's six bytes (R197). -/
def rightsBytes (r : Rights) : List Byte := leWord r.mask ++ [r.caps, r.defer]

/-- The rights image of the records as they stand (R179, R197). -/
def rightsImage (x : Both Rights) : List Byte :=
  let body : List Byte := [1] ++ rightsBytes x.a ++ rightsBytes x.b
  body ++ leWord (crc32 body)

/-- RIGHTS STORE's check and effect (R186). -/
def storeRights (s : Part) : Part × Option Reply :=
  if s.rights.writeOutstanding then (s, some { code := .busy })
  else (queueSystem .rights (rightsImage s.rights.records) s, some { code := .ok })

/-- The 16 bytes of RIGHTS READ (R187, R197). -/
def rightsReadBytes (s : Part) : List Byte :=
  rightsBytes s.rights.records.a ++ rightsBytes s.rights.records.b
    ++ [byteOf (!s.rights.fromFlash).toNat, byteOf s.rights.writeOutstanding.toNat, byteOf (isPresent s .A).toNat,
        byteOf (isPresent s .B).toNat]

/-- CHIP RESET's effect: the consent reset, in which the result is lost (R128, R187). -/
def chipReset (s : Part) : Part × Option Reply := (consentReset s, none)

/-- A peer request record's 37 bytes (R183, R197). Byte 0 tells that a request is absent, and R196 and R197 give bytes 1 to 36
no value then: they are 0xFF, as fields reported absent are (DESIGN CHOICE, log entry 51). -/
def requestBytes (issuer : Port) : Option PeerRequest → List Byte
  | none => padTo 37 [0]
  | some r => padTo 37 ([1, byteOf (portCode issuer), r.code, byteOf r.age, byteOf r.params.length] ++ r.params)

/-- The 74 bytes of PEER READ (R183, R197). -/
def peerBytes (p : Port) (s : Part) : List Byte :=
  requestBytes (peer p) (request s (peer p)) ++ requestBytes p (request s p)

/-! ### What a command does in its owning block -/

/-- Whether a command was carried out: a refused one changes nothing that the flash queue holds. -/
def carriedOut (r : Reply) : Bool := decide (r.code = .ok) || decide (r.code = .clipped)

/-- A command's effect, with the arbiter after it when the command was carried out (R160). -/
def withArbiter (f : Part → Part × Option Reply) (s : Part) : Part × Option Reply :=
  match f s with
  | (t, some r) => if carriedOut r then (ringSpace s (arbitrate t), some r) else (t, some r)
  | (t, none) => (t, none)

/-- The effect of a command that can be a peer request, in its owning block (R184). A read, a slot command and a command
that needs no capability are never referred. -/
def ownerEffect (i : Instr) : Part → Part × Option Reply :=
  match i with
  | .turnListSet _ n places c => setTurnList n places c
  | .turnSettings _ l m => setTurnSettings l m
  | .updateSubmit tx k x y w h m t n => submitUpdate tx.port k x y w h m t n
  | .updateCancel tx => cancelUpdates tx.port
  | .ghostSet _ l => setGhostLimit l
  | .ghostClear _ => clearGhosts
  | .waveformLoad _ k => withArbiter (loadWaveform k)
  | .lightSet _ b t r => setLight b t r
  | .batterySettings _ r => setResistance r
  | .sleep _ => commandSleep
  | .wake _ => commandWake
  | .powerOff _ => commandPowerOff
  | .powerPolicy _ c r z => setPolicy c r z
  | .alarmSet tx n => setAlarm tx.port n
  | .sleepScreenStore _ k => withArbiter (storeSleepScreen k)
  | .downloadOpen tx k d => withArbiter (openDownload tx.port k d)
  | .chunkWrite p r o data => withArbiter (writeChunk p r o data)
  | .downloadSeal tx r c => withArbiter (sealDownload tx.port r c)
  | .downloadAbandon tx r => withArbiter (abandonDownload tx.port r)
  | .downloadClaim _ r => withArbiter (claimDownload r)
  | .downloadRelease _ r => withArbiter (releaseDownload r)
  | .fetch tx r o n => withArbiter (startFetch tx.port r o n)
  | .spoolFormat _ => formatSpool
  | .rightsSet _ p m c d => setRights p m c d
  | .rightsStore _ => withArbiter storeRights
  | .chipReset _ => chipReset
  | _ => fun s => (s, some { code := .badParam })

/-- A command handed to its owning block, with the refusals of an orderly OFF in progress (R121). -/
def owned (code : Nat) (f : Part → Part × Option Reply) (s : Part) : Part × Option Reply :=
  if s.power.offPending && !takenWhileOffPending code then (s, some { code := .badState }) else f s

/-! ### PEER GRANT, DENY and WITHDRAW (R184, R185) -/

/-- PEER GRANT: the peer's request is carried out as a command of the issuer (R184). -/
def grantPeer (p : Port) (s : Part) : Part × Option Reply :=
  match request s (peer p) with
  | none => (s, some { code := .noRequest })
  | some r =>
      let issuer := peer p
      match owned r.code.toNat (ownerEffect (buildCommand issuer r.code.toNat r.params [])) (endRequest issuer s) with
      | (s, some x) => (raiseOutcome issuer r.code x s, some { code := .ok })
      | (s, none) => (s, none)

/-- PEER DENY (R184). -/
def denyPeer (p : Port) (s : Part) : Part × Option Reply :=
  match request s (peer p) with
  | none => (s, some { code := .noRequest })
  | some _ => (endWith (peer p) .denied s, some { code := .ok })

/-- PEER WITHDRAW (R185). -/
def withdrawPeer (p : Port) (s : Part) : Part × Option Reply :=
  match request s p with
  | none => (s, some { code := .noRequest })
  | some _ => (endRequest p s, some { code := .ok })

end Sys2Proof.Machine
end

