-- ==== Sys2Proof/Machine/Ports.lean ====
section
/-! DEFINITION. The ports (chapter 11): select, the answer of a transaction at its deselect, and the notice unit's
commands. -/

namespace Sys2Proof.Machine

/-! ### Select (R116, R188, R190) -/

/-- How a transaction selected now will be answered (R123, R190). -/
def lineAtSelect (s : Part) : Line :=
  if !alive s || s.power.forcedOff then .ignored
  else
    match s.power.state with
    | .off => .ignored
    | .boot => .boot
    | .hold => .hold
    | .active => .taken
    | .settling => .taken

/-- The status bytes of the command byte, which the part drives unless it ignores the transaction (R188, R190). -/
def sampleStatus (s : Part) (p : Port) (u : PortUnit) : PortUnit :=
  { u with status0 := statusByte0 s p, status1 := statusByte1 s p }

/-- A port selected. A select in HOLD moves the part to SETTLING (R116). -/
def selectPort (p : Port) (s : Part) : Part :=
  if (port s p).line ≠ .deselected then s
  else
    let line := lineAtSelect s
    if line = .ignored then modifyPort p (fun u => { u with line := .ignored }) s
    else
      leaveHold (modifyPort p (fun u => { sampleStatus s p u with line := line }) s)

/-! ### Deselect (R189, R190) -/

/-- A port deselected. -/
def deselected (u : PortUnit) : PortUnit := { u with line := .deselected, sample := none }

/-- The data of a transaction that is deselected: that of its read's sample, if one was taken (R188). -/
def sentData (u : PortUnit) (data : List Byte) : List Byte :=
  match u.sample with
  | none => data
  | some x => x.data

/-- A transaction's result recorded at its deselect (R190). -/
def settle (p : Port) (r : Reply) (s : Part) : Part :=
  modifyPort p (fun u => { deselected u with lastResult := r.code, lastValue := r.value, data := sentData u r.data }) s

/-- A STATUS settled: its data goes out, and the last result stays as it was (R190). -/
def settleStatus (p : Port) (data : List Byte) (s : Part) : Part :=
  modifyPort p (fun u => { deselected u with data := sentData u data }) s

/-- A command that answers, or whose result a consent reset has taken with it. -/
def settleWith (p : Port) (x : Part × Option Reply) : Part :=
  match x.2 with
  | some r => settle p r x.1
  | none => modifyPort p deselected x.1

/-- A transaction from its select on: what is ignored, what woke the part (R116), and what `f` answers otherwise. A
command on a port not yet selected is the whole transaction. -/
def transaction (p : Port) (f : Line → Part → Part) (s : Part) : Part :=
  let s := selectPort p s
  match (port s p).line with
  | .deselected => s
  | .ignored => modifyPort p deselected s
  | .hold => settle p { code := .woken } s
  | .boot => f .boot s
  | .taken => f .taken s

/-- A command that the rights unit has checked (R180 to R182), with its refusals while an orderly OFF is in progress. -/
def checked (i : Instr) (p : Port) (f : Part → Part × Option Reply) (s : Part) : Part :=
  match verdict i p s with
  | .pass => settleWith p (owned (codeOf i) f s)
  | .refer => settle p { code := .referred } (refer i p s)
  | .refuse c => settle p { code := c } s

/-- A command's whole transaction: data sent to a command that takes none (R189), the STARTING answer of BOOT (R127,
R190), the rights unit's check and the owning block. -/
def transact (i : Instr) (f : Part → Part × Option Reply) (s : Part) : Part :=
  let p := commandPort i
  transaction p
    (fun line s =>
      if strayData i ≠ 0 then settle p { code := .badParam } s
      else if line = .boot ∧ !takenInBoot (codeOf i) then settle p { code := .starting } s
      else checked i p f s) s

/-- A read that changes nothing and answers OK with its bytes. -/
def reply (f : Part → List Byte) (s : Part) : Part × Option Reply := (s, some { code := .ok, data := f s })

/-- A read that changes nothing and may be refused. -/
def replyWith (f : Part → Reply) (s : Part) : Part × Option Reply := (s, some (f s))

/-! ### The sample of a read (R188) -/

/-- Whether a transaction's read takes its sample: it is taken, or in BOOT it is one that BOOT takes (R190). -/
def samplesIn (code : Nat) : Line → Bool
  | .taken => true
  | .boot => takenInBoot code
  | .hold => false
  | .ignored => false
  | .deselected => false

/-- A sample taken, unless the transaction has taken it already. -/
def ensureSample (x : ReadSample) (u : PortUnit) : PortUnit := if u.sample.isNone then { u with sample := some x } else u

/-- The sample of a read that is no NOTICE READ. -/
def dataSample (data : List Byte) : ReadSample := { data := data, kind := none, raises := 0 }

/-- The moment at which a read samples (R188). A port not yet selected is selected by it. -/
def sampleRead (code : Nat) (p : Port) (f : Part → ReadSample) (s : Part) : Part :=
  let s := selectPort p s
  if samplesIn code (port s p).line then modifyPort p (ensureSample (f s)) s else s

/-- The data that a read drives if it is sampled now: none where it would be refused. -/
def drivenData (i : Instr) (p : Port) (f : Part → Part × Option Reply) (s : Part) : List Byte :=
  match verdict i p s, (f s).2 with
  | .pass, some r => r.data
  | _, _ => []

/-- A read: its sample fixes the data, and its deselect the result (R188; log entry 13). -/
def readTransaction (i : Instr) (m : ReadMoment) (f : Part → Part × Option Reply) (s : Part) : Part :=
  match m with
  | .sample => sampleRead (codeOf i) (commandPort i) (fun s => dataSample (drivenData i (commandPort i) f s)) s
  | .deselect => transact i f s

/-- STATUS's sample and its transaction (R190, R195). -/
def statusTransaction (p : Port) (m : ReadMoment) (s : Part) : Part :=
  match m with
  | .sample => sampleRead 0 p (fun s => dataSample (statusBytes s p)) s
  | .deselect => transaction p (fun _ s => settleStatus p (statusBytes s p) s) s

/-- A transaction whose command byte names no command (R189, R197). -/
def unknownTransaction (p : Port) (s : Part) : Part := transaction p (fun _ s => settle p { code := .badParam } s) s

/-- A transaction cut short (R189). A STATUS cut short leaves the last result as it was (R190). -/
def abortedTransaction (p : Port) (cause : AbortCause) (s : Part) : Part :=
  transaction p
    (fun _ s => if cause = .shortRead 0 then settleStatus p [] s else settle p { code := .aborted } s) s

/-! ### The notice unit's commands (R193, R194) -/

/-- The kind that a NOTICE READ returns: of highest priority, pending and enabled (R193). -/
def nextNotice (u : NoticeUnit) : Option NoticeKind := allKinds.find? (readable u)

/-- The ten bytes of a notice record (R197). Of a record of kind NONE the count byte is 0xFF like the detail: R197 gives
it no value (DESIGN CHOICE, log entry 41). -/
def noticeBytes (u : NoticeUnit) : List Byte :=
  match nextNotice u with
  | none => padTo 10 [0]
  | some k =>
      match notice u k with
      | none => padTo 10 [0]
      | some n => [byteOf (kindIndex k + 1), byteOf n.count] ++ n.detail

/-- The sample of a NOTICE READ (R193). -/
def noticeSample (u : NoticeUnit) : ReadSample := { data := noticeBytes u, kind := nextNotice u, raises := 0 }

/-- What a completed NOTICE READ clears: the kind returned, or, when it was raised since the sample, its earlier
occurrences (R193). -/
def readNotice (x : ReadSample) (u : NoticeUnit) : NoticeUnit :=
  match x.kind with
  | none => u
  | some k =>
      if x.raises = 0 then setNotice k none u
      else setNotice k ((notice u k).map fun n => { n with count := min 255 x.raises }) u

/-- A NOTICE READ deselected with all its bytes clocked out: the result is OK (R193). -/
def finishNotice (u : PortUnit) : PortUnit :=
  let x := u.sample.getD (noticeSample u.notices)
  { deselected u with notices := readNotice x u.notices, lastResult := .ok, lastValue := 0, data := x.data }

/-- NOTICE READ's sample and its transaction (R193). -/
def noticeTransaction (p : Port) (m : ReadMoment) (s : Part) : Part :=
  match m with
  | .sample => sampleRead 2 p (fun s => noticeSample (port s p).notices) s
  | .deselect => transaction p (fun _ s => modifyPort p finishNotice s) s

/-- NOTICE MASK's check and effect (R194). -/
def setMask (p : Port) (enables : Half) (master : Byte) (s : Part) : Part × Option Reply :=
  let u := (port s p).notices
  match flagOf master with
  | none => (s, some { code := .badParam })
  | some m =>
      if enables.getLsbD 15 then (s, some { code := .badParam })
      else
        (modifyPort p (fun x => { x with notices := { x.notices with enables := enables, master := m } }) s,
          some { code := .ok, value := BitVec.ofNat 32 (u.enables.toNat + flagBit 16 u.master) })

end Sys2Proof.Machine
end

