-- ==== Sys2Proof/Machine/DisplayCommands.lean ====
section
/-! DEFINITION. The commands of the update engine and of the waveform unit (chapters 3 and 4). -/

namespace Sys2Proof.Machine

/-- UPDATE SUBMIT (R39 to R42). -/
def execUpdateSubmit (tx : Tx) (slot : Byte) (x0 : Half) (y0 : Half) (w : Half) (h : Half) (mode : Byte) (tag : Byte) (notify : Byte) (s : State) : Host.Outcome State Fault Refusal :=
  done (transact (.updateSubmit tx slot x0 y0 w h mode tag notify) (submitUpdate tx.port slot x0 y0 w h mode tag notify)) s

/-- UPDATE CANCEL (R44). -/
def execUpdateCancel (tx : Tx) (s : State) : Host.Outcome State Fault Refusal :=
  done (transact (.updateCancel tx) (cancelUpdates tx.port)) s

/-- ENGINE READ (R62). -/
def execEngineRead (rx : Rx) (s : State) : Host.Outcome State Fault Refusal :=
  done (readTransaction (.engineRead rx) rx.moment (reply engineBytes)) s

/-- GHOST SET (R80). -/
def execGhostSet (tx : Tx) (limit : Byte) (s : State) : Host.Outcome State Fault Refusal :=
  done (transact (.ghostSet tx limit) (setGhostLimit limit)) s

/-- GHOST CLEAR (R80). -/
def execGhostClear (tx : Tx) (s : State) : Host.Outcome State Fault Refusal :=
  done (transact (.ghostClear tx) clearGhosts) s

/-- WAVEFORM LOAD (R68, R70). -/
def execWaveformLoad (tx : Tx) (slot : Byte) (s : State) : Host.Outcome State Fault Refusal :=
  done (transact (.waveformLoad tx slot) (withArbiter (loadWaveform slot))) s

/-- TEMPERATURE READ (R81). -/
def execTemperatureRead (rx : Rx) (s : State) : Host.Outcome State Fault Refusal :=
  done (readTransaction (.temperatureRead rx) rx.moment (reply temperatureBytes)) s

end Sys2Proof.Machine
end

