-- ==== Sys2Proof/Machine/FlashEvents.lean ====
section
/-! DEFINITION. The ends of flash operations (chapter 9). -/

namespace Sys2Proof.Machine

/-- A page read ends (R152, R158, R159). -/
def execReadEnd (ecc : List Sector) (s : State) : Host.Outcome State Fault Refusal :=
  done (whileRunning (operationEnds [1] ecc true)) s

/-- A page program ends (R142, R158, R163, R166, R169, R170). -/
def execProgramEnd (ok : Bool) (s : State) : Host.Outcome State Fault Refusal :=
  done (whileRunning (operationEnds [2] [] ok)) s

/-- A block erase ends (R143, R158, R161, R166, R170). -/
def execEraseEnd (ok : Bool) (s : State) : Host.Outcome State Fault Refusal :=
  done (whileRunning (operationEnds [3] [] ok)) s

/-- A move ends (R158, R159, R163, R165). -/
def execMoveEnd (ecc : List Sector) (ok : Bool) (s : State) : Host.Outcome State Fault Refusal :=
  done (whileRunning (operationEnds [4] ecc ok)) s

/-- A program, erase or move has not ended in its time: it has failed (R158). A read has no failure. -/
def execFlashOperationTimeout (ecc : List Sector) (s : State) : Host.Outcome State Fault Refusal :=
  done (whileRunning (operationEnds [2, 3, 4] ecc false)) s

end Sys2Proof.Machine
end

