-- ==== Sys2Proof/Machine/LightCommands.lean ====
section
/-! DEFINITION. The commands of the light and of the battery monitor (chapters 5 and 6). -/

namespace Sys2Proof.Machine

/-- LIGHT SET (R84). -/
def execLightSet (tx : Tx) (brightness : Half) (warmth : Byte) (rampStep : Half) (s : State) : Host.Outcome State Fault Refusal :=
  done (transact (.lightSet tx brightness warmth rampStep) (setLight brightness warmth rampStep)) s

/-- LIGHT READ (R95). -/
def execLightRead (rx : Rx) (s : State) : Host.Outcome State Fault Refusal :=
  done (readTransaction (.lightRead rx) rx.moment (reply lightBytes)) s

/-- BATTERY SETTINGS (R107). -/
def execBatterySettings (tx : Tx) (resistance : Half) (s : State) : Host.Outcome State Fault Refusal :=
  done (transact (.batterySettings tx resistance) (setResistance resistance)) s

/-- BATTERY READ (R108). -/
def execBatteryRead (rx : Rx) (s : State) : Host.Outcome State Fault Refusal :=
  done (readTransaction (.batteryRead rx) rx.moment (reply batteryBytes)) s

end Sys2Proof.Machine
end

