-- ==== Sys2Proof/Machine/LineEvents.lean ====
section
/-! DEFINITION. The events at the keys, the cover, the presence inputs and the charger line. An event that the state it would follow from rules out does not arise, and leaves the state as it is (log entry 5). -/

namespace Sys2Proof.Machine

/-- The POWER key's debouncer replaced. -/
def setPowerKey (v : Debouncer) (d : Debouncers) : Debouncers := { d with power := v }

/-- The cover's debouncer replaced. -/
def setCover (v : Debouncer) (d : Debouncers) : Debouncers := { d with cover := v }

/-- A presence debouncer replaced. -/
def setPresence (p : Port) (v : Debouncer) (d : Debouncers) : Debouncers := { d with presence := d.presence.set p v }

/-- A debounce timer that ran out at a level: the level changes and its event is delivered. With no such candidate the
event does not arise (R20). -/
def afterDebounce (v : Bool) (get : Debouncers → Debouncer) (set : Debouncer → Debouncers → Debouncers) (f : Part → Part)
    (s : Part) : Part :=
  if (get s.debounce).candidate = some v then f (modifyDebounce (set (settledDebouncer v)) s) else s

/-- A level changes at an input (R20, R71, R99, R119, R191). -/
def execInputChange (input : Input) (s : State) : Host.Outcome State Fault Refusal :=
  done (takeInput input) s

/-- The debounce timer of FWD, BACK or HOME ends with a PRESS (R20, R21). -/
def execKeyPress (k : TurnKey) (s : State) : Host.Outcome State Fault Refusal :=
  done (whileRunning (afterDebounce true (fun d => keyOf d k) (setKey k) (unlessForced (keyAction k)))) s

/-- The debounce timer of FWD, BACK or HOME ends with a RELEASE, which has no effect (R20, R21). -/
def execKeyRelease (k : TurnKey) (s : State) : Host.Outcome State Fault Refusal :=
  done (whileRunning (afterDebounce false (fun d => keyOf d k) (setKey k) id)) s

/-- A debounced PRESS of POWER (R20, R118, R125). -/
def execPowerPress (s : State) : Host.Outcome State Fault Refusal :=
  done (whileRunning (afterDebounce true Debouncers.power setPowerKey (unlessForced powerPressAction))) s

/-- A debounced RELEASE of POWER (R20, R118, R125). -/
def execPowerRelease (s : State) : Host.Outcome State Fault Refusal :=
  done (whileRunning (afterDebounce false Debouncers.power setPowerKey (unlessForced powerReleaseAction))) s

/-- The POWER key has been held for 2 s (R118). -/
def execPowerHeld2s (s : State) : Host.Outcome State Fault Refusal :=
  done (whileRunning (unlessForced powerHeld2)) s

/-- The POWER key has been held for 8 s: forced OFF entry begins (R118, R123). -/
def execPowerHeld8s (s : State) : Host.Outcome State Fault Refusal :=
  done (whileRunning (unlessForced powerHeld8)) s

/-- A POWER press delivered in OFF has been held for 1 s (R125). -/
def execPowerHeld1s (s : State) : Host.Outcome State Fault Refusal :=
  done (whileRunning powerHeld1) s

/-- A debounced change of the cover (R119). -/
def execCoverChange (closed : Bool) (s : State) : Host.Outcome State Fault Refusal :=
  done (whileRunning (afterDebounce closed Debouncers.cover setCover (unlessForced (coverAction closed)))) s

/-- A debounced change of a presence input (R185, R191). -/
def execPresenceChange (p : Port) (high : Bool) (s : State) : Host.Outcome State Fault Refusal :=
  done (whileRunning (afterDebounce high (fun d => d.presence.get p) (setPresence p) (presenceChanged p high))) s

/-- CHG_DET rises: a boot trigger in OFF (R125). -/
def execChargerRise (s : State) : Host.Outcome State Fault Refusal :=
  done chargerRises s

/-- CHG_DET falls, which clears the charger retry (R125). -/
def execChargerFall (s : State) : Host.Outcome State Fault Refusal :=
  done chargerFalls s

end Sys2Proof.Machine
end

