-- ==== Sys2Proof/Machine/PageCommands.lean ====
section
/-! DEFINITION. The commands of the page store (chapter 1). -/

namespace Sys2Proof.Machine

/-- SLOT WRITE (R7, R8). -/
def execSlotWrite (p : Port) (slot : Byte) (offset : Word) (data : List Byte) (s : State) : Host.Outcome State Fault Refusal :=
  done (transact (.slotWrite p slot offset data) (writeRunTo p slot offset data)) s

/-- SLOT WRITE RECT (R7, R9). -/
def execSlotWriteRect (p : Port) (slot : Byte) (bc : Half) (row : Half) (bw : Half) (h : Half) (data : List Byte) (s : State) : Host.Outcome State Fault Refusal :=
  done (transact (.slotWriteRect p slot bc row bw h data) (writeRectTo p slot bc row bw h data)) s

/-- SLOT POST, with backlog service (R11, R31). -/
def execSlotPost (tx : Tx) (slot : Byte) (key : Word) (s : State) : Host.Outcome State Fault Refusal :=
  done (transact (.slotPost tx slot key) (postSlot tx.port slot key)) s

/-- SLOT DISCARD (R12). -/
def execSlotDiscard (tx : Tx) (slot : Byte) (s : State) : Host.Outcome State Fault Refusal :=
  done (transact (.slotDiscard tx slot) (discardSlot tx.port slot)) s

/-- SLOT RETAIN (R13). -/
def execSlotRetain (tx : Tx) (slot : Byte) (flag : Byte) (s : State) : Host.Outcome State Fault Refusal :=
  done (transact (.slotRetain tx slot flag) (retainSlot tx.port slot flag)) s

/-- SLOT READ (R14). -/
def execSlotRead (rx : Rx) (slot : Byte) (offset : Word) (length : Word) (s : State) : Host.Outcome State Fault Refusal :=
  done (readTransaction (.slotRead rx slot offset length) rx.moment (replyWith (slotReadReply slot offset length))) s

/-- SHOWN READ (R15). -/
def execShownRead (rx : Rx) (offset : Word) (length : Word) (s : State) : Host.Outcome State Fault Refusal :=
  done (readTransaction (.shownRead rx offset length) rx.moment (replyWith (shownReadReply offset length))) s

/-- SLOT TABLE READ (R16). -/
def execSlotTableRead (rx : Rx) (s : State) : Host.Outcome State Fault Refusal :=
  done (readTransaction (.slotTableRead rx) rx.moment (reply slotTableBytes)) s

end Sys2Proof.Machine
end

