-- ==== Sys2Proof/Machine/PortCommands.lean ====
section
/-! DEFINITION. The commands of the ports and the notice unit, and the select (chapter 11). -/

namespace Sys2Proof.Machine

/-- STATUS returns 14 bytes and leaves the last result as it was (R190, R195). -/
def execStatus (rx : Rx) (s : State) : Host.Outcome State Fault Refusal :=
  done (statusTransaction rx.port rx.moment) s

/-- IDENTIFY (R195). -/
def execIdentify (rx : Rx) (s : State) : Host.Outcome State Fault Refusal :=
  done (readTransaction (.identify rx) rx.moment (reply identifyBytes)) s

/-- NOTICE READ: its sample, or its deselect with the sample before it (R193). -/
def execNoticeRead (p : Port) (m : ReadMoment) (s : State) : Host.Outcome State Fault Refusal :=
  done (noticeTransaction p m) s

/-- NOTICE MASK (R194). -/
def execNoticeMask (tx : Tx) (enables : Half) (master : Byte) (s : State) : Host.Outcome State Fault Refusal :=
  done (transact (.noticeMask tx enables master) (setMask tx.port enables master)) s

/-- A command byte whose code names no command gives BAD_PARAM (R189, R197). -/
def execUnknownCommandCode (p : Port) (_code : Byte) (s : State) : Host.Outcome State Fault Refusal :=
  done (unknownTransaction p) s

/-- A transaction cut short: ABORTED, and no state outside the port changes (R189). -/
def execAborted (p : Port) (cause : AbortCause) (s : State) : Host.Outcome State Fault Refusal :=
  done (abortedTransaction p cause) s

/-- A master drives its chip select low; in HOLD this moves the part to SETTLING (R116, R188, R190). -/
def execPortSelect (p : Port) (s : State) : Host.Outcome State Fault Refusal :=
  done (selectPort p) s

end Sys2Proof.Machine
end

