-- ==== Sys2Proof/Machine/PowerCommands.lean ====
section
/-! DEFINITION. The commands of the power controller (chapter 7). -/

namespace Sys2Proof.Machine

/-- SLEEP (R112). -/
def execSleep (tx : Tx) (s : State) : Host.Outcome State Fault Refusal :=
  done (transact (.sleep tx) commandSleep) s

/-- WAKE (R117). -/
def execWake (tx : Tx) (s : State) : Host.Outcome State Fault Refusal :=
  done (transact (.wake tx) commandWake) s

/-- POWER OFF (R121). -/
def execPowerOff (tx : Tx) (s : State) : Host.Outcome State Fault Refusal :=
  done (transact (.powerOff tx) commandPowerOff) s

/-- POWER POLICY (R120). -/
def execPowerPolicy (tx : Tx) (cover : Byte) (restore : Byte) (sleepScreen : Byte) (s : State) : Host.Outcome State Fault Refusal :=
  done (transact (.powerPolicy tx cover restore sleepScreen) (setPolicy cover restore sleepScreen)) s

/-- ALARM SET (R129). -/
def execAlarmSet (tx : Tx) (seconds : Word) (s : State) : Host.Outcome State Fault Refusal :=
  done (transact (.alarmSet tx seconds) (setAlarm tx.port seconds)) s

/-- SLEEP SCREEN STORE (R130, R131). -/
def execSleepScreenStore (tx : Tx) (slot : Byte) (s : State) : Host.Outcome State Fault Refusal :=
  done (transact (.sleepScreenStore tx slot) (withArbiter (storeSleepScreen slot))) s

end Sys2Proof.Machine
end

