-- ==== Sys2Proof/Machine/PowerEvents.lean ====
section
/-! DEFINITION. The events of the power sequences and the reset kinds (chapter 7). -/

namespace Sys2Proof.Machine

/-- The BOOT sequence ends, unless a forced OFF entry has stopped it (R123, R126). -/
def bootEnds (ecc : List (Nat × List Sector)) (s : Part) : Part :=
  if s.power.state = .boot ∧ !s.power.forcedOff then bootSequence ecc s else s

/-- OFF entered when it is due (R122, R123). -/
def takeOffWhenDue (s : Part) : Part := if offDue s then takeOff s else s

/-- The BOOT sequence ends: its loads, and the entry to ACTIVE (R126, R127). -/
def execEntryToActive (ecc : List (Nat × List Sector)) (s : State) : Host.Outcome State Fault Refusal :=
  done (whileRunning (bootEnds ecc)) s

/-- Supply is first applied (R128). -/
def execColdStart (s : State) : Host.Outcome State Fault Refusal :=
  done coldStart s

/-- RESET_N falls: the part is in reset (R128). -/
def execResetLineFall (s : State) : Host.Outcome State Fault Refusal :=
  done resetFall s

/-- RESET_N rises: the admission sample, and BOOT or OFF (R106, R128). -/
def execResetLineRise (s : State) : Host.Outcome State Fault Refusal :=
  done resetRise s

/-- The quiet test holds: SETTLING to HOLD (R114, R115). -/
def execHoldEntry (s : State) : Host.Outcome State Fault Refusal :=
  done (whileRunning enterHold) s

/-- OFF is entered, orderly or forced (R122 to R124). -/
def execOffEntry (s : State) : Host.Outcome State Fault Refusal :=
  done (whileRunning takeOffWhenDue) s

/-- The supply is lost: everything but the array, the identity area and the inputs. -/
def execSupplyLoss (s : State) : Host.Outcome State Fault Refusal :=
  done loseSupply s

end Sys2Proof.Machine
end

