-- ==== Sys2Proof/Machine/RightsCommands.lean ====
section
/-! DEFINITION. The commands of the rights unit (chapter 10). -/

namespace Sys2Proof.Machine

/-- RIGHTS SET (R186). -/
def execRightsSet (tx : Tx) (target : Byte) (mask : Word) (caps : Byte) (defer : Byte) (s : State) : Host.Outcome State Fault Refusal :=
  done (transact (.rightsSet tx target mask caps defer) (setRights target mask caps defer)) s

/-- RIGHTS STORE (R166, R186). -/
def execRightsStore (tx : Tx) (s : State) : Host.Outcome State Fault Refusal :=
  done (transact (.rightsStore tx) (withArbiter storeRights)) s

/-- RIGHTS READ (R187). -/
def execRightsRead (rx : Rx) (s : State) : Host.Outcome State Fault Refusal :=
  done (readTransaction (.rightsRead rx) rx.moment (reply rightsReadBytes)) s

/-- CHIP RESET (R128, R187). -/
def execChipReset (tx : Tx) (s : State) : Host.Outcome State Fault Refusal :=
  done (transact (.chipReset tx) chipReset) s

/-- PEER READ (R183). -/
def execPeerRead (rx : Rx) (s : State) : Host.Outcome State Fault Refusal :=
  done (readTransaction (.peerRead rx) rx.moment (reply (peerBytes rx.port))) s

/-- PEER GRANT (R184). -/
def execPeerGrant (tx : Tx) (s : State) : Host.Outcome State Fault Refusal :=
  done (transact (.peerGrant tx) (grantPeer tx.port)) s

/-- PEER DENY (R184). -/
def execPeerDeny (tx : Tx) (s : State) : Host.Outcome State Fault Refusal :=
  done (transact (.peerDeny tx) (denyPeer tx.port)) s

/-- PEER WITHDRAW (R185). -/
def execPeerWithdraw (tx : Tx) (s : State) : Host.Outcome State Fault Refusal :=
  done (transact (.peerWithdraw tx) (withdrawPeer tx.port)) s

end Sys2Proof.Machine
end

