-- ==== Sys2Proof/Machine/SpoolCommands.lean ====
section
/-! DEFINITION. The commands of the spool and of the flash engine (chapters 8 and 9). -/

namespace Sys2Proof.Machine

/-- DOWNLOAD OPEN (R137). -/
def execDownloadOpen (tx : Tx) (title : Word) (declared : Word) (s : State) : Host.Outcome State Fault Refusal :=
  done (transact (.downloadOpen tx title declared) (withArbiter (openDownload tx.port title declared))) s

/-- CHUNK WRITE (R139). -/
def execChunkWrite (p : Port) (record : Byte) (offset : Word) (data : List Byte) (s : State) : Host.Outcome State Fault Refusal :=
  done (transact (.chunkWrite p record offset data) (withArbiter (writeChunk p record offset data))) s

/-- DOWNLOAD SEAL (R146, R147). -/
def execDownloadSeal (tx : Tx) (record : Byte) (expected : Word) (s : State) : Host.Outcome State Fault Refusal :=
  done (transact (.downloadSeal tx record expected) (withArbiter (sealDownload tx.port record expected))) s

/-- DOWNLOAD ABANDON (R148). -/
def execDownloadAbandon (tx : Tx) (record : Byte) (s : State) : Host.Outcome State Fault Refusal :=
  done (transact (.downloadAbandon tx record) (withArbiter (abandonDownload tx.port record))) s

/-- DOWNLOAD CLAIM (R149). -/
def execDownloadClaim (tx : Tx) (record : Byte) (s : State) : Host.Outcome State Fault Refusal :=
  done (transact (.downloadClaim tx record) (withArbiter (claimDownload record))) s

/-- DOWNLOAD RELEASE (R149). -/
def execDownloadRelease (tx : Tx) (record : Byte) (s : State) : Host.Outcome State Fault Refusal :=
  done (transact (.downloadRelease tx record) (withArbiter (releaseDownload record))) s

/-- FETCH (R151, R152). -/
def execFetch (tx : Tx) (record : Byte) (offset : Word) (length : Half) (s : State) : Host.Outcome State Fault Refusal :=
  done (transact (.fetch tx record offset length) (withArbiter (startFetch tx.port record offset length))) s

/-- FETCH DATA (R152). -/
def execFetchData (rx : Rx) (s : State) : Host.Outcome State Fault Refusal :=
  done (readTransaction (.fetchData rx) rx.moment (fetchHeld rx.port)) s

/-- DIRECTORY READ (R153). -/
def execDirectoryRead (rx : Rx) (s : State) : Host.Outcome State Fault Refusal :=
  done (readTransaction (.directoryRead rx) rx.moment (replyWith directoryReply)) s

/-- SPOOL FORMAT (R174). -/
def execSpoolFormat (tx : Tx) (s : State) : Host.Outcome State Fault Refusal :=
  done (transact (.spoolFormat tx) formatSpool) s

/-- FLASH HEALTH READ (R175). -/
def execFlashHealthRead (rx : Rx) (s : State) : Host.Outcome State Fault Refusal :=
  done (readTransaction (.flashHealthRead rx) rx.moment (reply healthBytes)) s

end Sys2Proof.Machine
end

