-- ==== Sys2Proof/Machine/TickEvents.lean ====
section
/-! DEFINITION. The ticks, samples and expiries (chapters 3 to 8). -/

namespace Sys2Proof.Machine

/-- A stall tick where records are counted (R123, R150). -/
def takeStallTick (s : Part) : Part := if stallsCount s then stallTick s else s

/-- A frame boundary where boundaries occur (R48, R123). -/
def takeBoundary (s : Part) : Part := if boundariesRun s then boundary s else s

/-- A temperature sample where samples are taken (R71). -/
def takeTemperature (s : Part) : Part := if temperatureRuns s then sampleTemperature s else s

/-- A second tick of the timebase (R71, R129, R183). -/
def execSecondTick (s : State) : Host.Outcome State Fault Refusal :=
  done (whileRunning secondTick) s

/-- A port's alarm expires (R129). -/
def execAlarmExpiry (p : Port) (s : State) : Host.Outcome State Fault Refusal :=
  done (whileRunning (expireAlarm p)) s

/-- A port's request has reached the age of 30 s (R183, R185). -/
def execPeerRequestExpiry (p : Port) (s : State) : Host.Outcome State Fault Refusal :=
  done (whileRunning (expireRequest p)) s

/-- An 8-second tick of the stall counters (R150). -/
def execStallTick (s : State) : Host.Outcome State Fault Refusal :=
  done (whileRunning takeStallTick) s

/-- A frame boundary in ACTIVE or SETTLING (R48). -/
def execFrameBoundary (s : State) : Host.Outcome State Fault Refusal :=
  done (whileRunning takeBoundary) s

/-- A ramp tick of the light (R89). -/
def execRampTick (s : State) : Host.Outcome State Fault Refusal :=
  done (whileRunning (modifyLight rampLight)) s

/-- The 4 s sample of the temperature in ACTIVE and SETTLING (R71). -/
def execTemperatureSample (s : State) : Host.Outcome State Fault Refusal :=
  done (whileRunning takeTemperature) s

/-- A battery sample falls due (R98, R104, R125). -/
def execBatterySample (s : State) : Host.Outcome State Fault Refusal :=
  done (whileRunning batteryEvent) s

end Sys2Proof.Machine
end

