-- ==== Sys2Proof/Machine/TurnCommands.lean ====
section
/-! DEFINITION. The commands of the turn controller (chapter 2). -/

namespace Sys2Proof.Machine

/-- TURN LIST SET (R24). -/
def execTurnListSet (tx : Tx) (n : Byte) (places : List Byte) (cursor : Byte) (s : State) : Host.Outcome State Fault Refusal :=
  done (transact (.turnListSet tx n places cursor) (setTurnList n places cursor)) s

/-- TURN SETTINGS (R25). -/
def execTurnSettings (tx : Tx) (lookahead : Byte) (mode : Byte) (s : State) : Host.Outcome State Fault Refusal :=
  done (transact (.turnSettings tx lookahead mode) (setTurnSettings lookahead mode)) s

/-- TURN STATE READ (R37). -/
def execTurnStateRead (rx : Rx) (s : State) : Host.Outcome State Fault Refusal :=
  done (readTransaction (.turnStateRead rx) rx.moment (reply turnBytes)) s

end Sys2Proof.Machine
end

