-- ==== Sys2Proof/Machine/Dispatch.lean ====
section
/-! DEFINITION. The dispatch: one arm for each constructor of `Instr`, each one direct call of its meaning. -/

namespace Sys2Proof.Machine

/-- The effect of a command on everything but the queue. -/
def exec (i : Instr) (s : State) : Host.Outcome State Fault Refusal :=
  match i with
  | .status rx => Sys2Proof.Machine.execStatus rx s
  | .identify rx => Sys2Proof.Machine.execIdentify rx s
  | .noticeRead p m => Sys2Proof.Machine.execNoticeRead p m s
  | .noticeMask tx enables master => Sys2Proof.Machine.execNoticeMask tx enables master s
  | .slotWrite p slot offset data => Sys2Proof.Machine.execSlotWrite p slot offset data s
  | .slotWriteRect p slot bc row bw h data => Sys2Proof.Machine.execSlotWriteRect p slot bc row bw h data s
  | .slotPost tx slot key => Sys2Proof.Machine.execSlotPost tx slot key s
  | .slotDiscard tx slot => Sys2Proof.Machine.execSlotDiscard tx slot s
  | .slotRetain tx slot flag => Sys2Proof.Machine.execSlotRetain tx slot flag s
  | .slotRead rx slot offset length => Sys2Proof.Machine.execSlotRead rx slot offset length s
  | .shownRead rx offset length => Sys2Proof.Machine.execShownRead rx offset length s
  | .slotTableRead rx => Sys2Proof.Machine.execSlotTableRead rx s
  | .turnListSet tx n places cursor => Sys2Proof.Machine.execTurnListSet tx n places cursor s
  | .turnSettings tx lookahead mode => Sys2Proof.Machine.execTurnSettings tx lookahead mode s
  | .turnStateRead rx => Sys2Proof.Machine.execTurnStateRead rx s
  | .updateSubmit tx slot x0 y0 w h mode tag notify => Sys2Proof.Machine.execUpdateSubmit tx slot x0 y0 w h mode tag notify s
  | .updateCancel tx => Sys2Proof.Machine.execUpdateCancel tx s
  | .engineRead rx => Sys2Proof.Machine.execEngineRead rx s
  | .ghostSet tx limit => Sys2Proof.Machine.execGhostSet tx limit s
  | .ghostClear tx => Sys2Proof.Machine.execGhostClear tx s
  | .waveformLoad tx slot => Sys2Proof.Machine.execWaveformLoad tx slot s
  | .temperatureRead rx => Sys2Proof.Machine.execTemperatureRead rx s
  | .lightSet tx brightness warmth rampStep => Sys2Proof.Machine.execLightSet tx brightness warmth rampStep s
  | .lightRead rx => Sys2Proof.Machine.execLightRead rx s
  | .batterySettings tx resistance => Sys2Proof.Machine.execBatterySettings tx resistance s
  | .batteryRead rx => Sys2Proof.Machine.execBatteryRead rx s
  | .sleep tx => Sys2Proof.Machine.execSleep tx s
  | .wake tx => Sys2Proof.Machine.execWake tx s
  | .powerOff tx => Sys2Proof.Machine.execPowerOff tx s
  | .powerPolicy tx cover restore sleepScreen => Sys2Proof.Machine.execPowerPolicy tx cover restore sleepScreen s
  | .alarmSet tx seconds => Sys2Proof.Machine.execAlarmSet tx seconds s
  | .sleepScreenStore tx slot => Sys2Proof.Machine.execSleepScreenStore tx slot s
  | .downloadOpen tx title declared => Sys2Proof.Machine.execDownloadOpen tx title declared s
  | .chunkWrite p record offset data => Sys2Proof.Machine.execChunkWrite p record offset data s
  | .downloadSeal tx record expected => Sys2Proof.Machine.execDownloadSeal tx record expected s
  | .downloadAbandon tx record => Sys2Proof.Machine.execDownloadAbandon tx record s
  | .downloadClaim tx record => Sys2Proof.Machine.execDownloadClaim tx record s
  | .downloadRelease tx record => Sys2Proof.Machine.execDownloadRelease tx record s
  | .fetch tx record offset length => Sys2Proof.Machine.execFetch tx record offset length s
  | .fetchData rx => Sys2Proof.Machine.execFetchData rx s
  | .directoryRead rx => Sys2Proof.Machine.execDirectoryRead rx s
  | .spoolFormat tx => Sys2Proof.Machine.execSpoolFormat tx s
  | .flashHealthRead rx => Sys2Proof.Machine.execFlashHealthRead rx s
  | .rightsSet tx target mask caps defer => Sys2Proof.Machine.execRightsSet tx target mask caps defer s
  | .rightsStore tx => Sys2Proof.Machine.execRightsStore tx s
  | .rightsRead rx => Sys2Proof.Machine.execRightsRead rx s
  | .chipReset tx => Sys2Proof.Machine.execChipReset tx s
  | .peerRead rx => Sys2Proof.Machine.execPeerRead rx s
  | .peerGrant tx => Sys2Proof.Machine.execPeerGrant tx s
  | .peerDeny tx => Sys2Proof.Machine.execPeerDeny tx s
  | .peerWithdraw tx => Sys2Proof.Machine.execPeerWithdraw tx s
  | .unknownCommandCode p code => Sys2Proof.Machine.execUnknownCommandCode p code s
  | .aborted p cause => Sys2Proof.Machine.execAborted p cause s
  | .portSelect p => Sys2Proof.Machine.execPortSelect p s
  | .inputChange input => Sys2Proof.Machine.execInputChange input s
  | .keyPress k => Sys2Proof.Machine.execKeyPress k s
  | .keyRelease k => Sys2Proof.Machine.execKeyRelease k s
  | .powerPress => Sys2Proof.Machine.execPowerPress s
  | .powerRelease => Sys2Proof.Machine.execPowerRelease s
  | .powerHeld2s => Sys2Proof.Machine.execPowerHeld2s s
  | .powerHeld8s => Sys2Proof.Machine.execPowerHeld8s s
  | .powerHeld1s => Sys2Proof.Machine.execPowerHeld1s s
  | .coverChange closed => Sys2Proof.Machine.execCoverChange closed s
  | .presenceChange p high => Sys2Proof.Machine.execPresenceChange p high s
  | .chargerRise => Sys2Proof.Machine.execChargerRise s
  | .chargerFall => Sys2Proof.Machine.execChargerFall s
  | .entryToActive ecc => Sys2Proof.Machine.execEntryToActive ecc s
  | .coldStart => Sys2Proof.Machine.execColdStart s
  | .resetLineFall => Sys2Proof.Machine.execResetLineFall s
  | .resetLineRise => Sys2Proof.Machine.execResetLineRise s
  | .secondTick => Sys2Proof.Machine.execSecondTick s
  | .alarmExpiry p => Sys2Proof.Machine.execAlarmExpiry p s
  | .peerRequestExpiry p => Sys2Proof.Machine.execPeerRequestExpiry p s
  | .stallTick => Sys2Proof.Machine.execStallTick s
  | .frameBoundary => Sys2Proof.Machine.execFrameBoundary s
  | .rampTick => Sys2Proof.Machine.execRampTick s
  | .temperatureSample => Sys2Proof.Machine.execTemperatureSample s
  | .batterySample => Sys2Proof.Machine.execBatterySample s
  | .holdEntry => Sys2Proof.Machine.execHoldEntry s
  | .offEntry => Sys2Proof.Machine.execOffEntry s
  | .readEnd ecc => Sys2Proof.Machine.execReadEnd ecc s
  | .programEnd ok => Sys2Proof.Machine.execProgramEnd ok s
  | .eraseEnd ok => Sys2Proof.Machine.execEraseEnd ok s
  | .moveEnd ecc ok => Sys2Proof.Machine.execMoveEnd ecc ok s
  | .flashOperationTimeout ecc => Sys2Proof.Machine.execFlashOperationTimeout ecc s
  | .supplyLoss => Sys2Proof.Machine.execSupplyLoss s

end Sys2Proof.Machine
end

