-- ==== Sys2Proof/WellFormed.lean ====
section
/-! DEFINITION. Which commands are well formed: what R188, R189, R197 and the ECC of R159 say of every one that can be
sent or can arise. The meanings are defined on ill-formed commands too. -/

namespace Sys2Proof

/-- A report within what the ECC corrects (R159): up to 8 bits, or failed. -/
def Sector.wellFormed : Sector → Bool
  | .corrected n => decide (n ≤ 8)
  | .failed => true

/-- A page's report: its eight sectors, within what the ECC corrects or failed (R157, R159), and in a ninth place, if it
is given, the wrong bits of an erased page's spare bytes (R158). -/
def pageReport (ecc : List Sector) : Bool :=
  (decide (ecc.length = 8) || decide (ecc.length = 9)) && ecc.all Sector.wellFormed

/-- The reports of a BOOT: pages of the array, each at most once, in the order of their addresses. -/
def bootReport (ecc : List (Nat × List Sector)) : Bool :=
  decide ((ecc.map Prod.fst).Pairwise (· < ·)) && ecc.all fun x => decide (x.1 < 65536) && pageReport x.2

/-- A cause of ABORTED that can arise: only a read can be cut short in its data phase (R189). -/
def AbortCause.wellFormed : AbortCause → Bool
  | .shortRead code => Machine.isReadCode code.toNat
  | .commandByte => true
  | .width3 => true
  | .fewParameters => true
  | .partialByte => true

/-- The well-formed commands. -/
def Instr.wellFormed : Instr → Bool
  | .turnListSet _ _ places _ => decide (places.length = 28)
  | .unknownCommandCode _ code => decide (0x33 ≤ code.toNat) && decide (code.toNat ≤ 0x3F)
  | .aborted _ cause => cause.wellFormed
  | .entryToActive ecc => bootReport ecc
  | .readEnd ecc => pageReport ecc
  | .moveEnd ecc _ => pageReport ecc
  | .flashOperationTimeout ecc => pageReport ecc
  | .status _ => true
  | .identify _ => true
  | .noticeRead _ _ => true
  | .noticeMask _ _ _ => true
  | .slotWrite _ _ _ _ => true
  | .slotWriteRect _ _ _ _ _ _ _ => true
  | .slotPost _ _ _ => true
  | .slotDiscard _ _ => true
  | .slotRetain _ _ _ => true
  | .slotRead _ _ _ _ => true
  | .shownRead _ _ _ => true
  | .slotTableRead _ => true
  | .turnSettings _ _ _ => true
  | .turnStateRead _ => true
  | .updateSubmit _ _ _ _ _ _ _ _ _ => true
  | .updateCancel _ => true
  | .engineRead _ => true
  | .ghostSet _ _ => true
  | .ghostClear _ => true
  | .waveformLoad _ _ => true
  | .temperatureRead _ => true
  | .lightSet _ _ _ _ => true
  | .lightRead _ => true
  | .batterySettings _ _ => true
  | .batteryRead _ => true
  | .sleep _ => true
  | .wake _ => true
  | .powerOff _ => true
  | .powerPolicy _ _ _ _ => true
  | .alarmSet _ _ => true
  | .sleepScreenStore _ _ => true
  | .downloadOpen _ _ _ => true
  | .chunkWrite _ _ _ _ => true
  | .downloadSeal _ _ _ => true
  | .downloadAbandon _ _ => true
  | .downloadClaim _ _ => true
  | .downloadRelease _ _ => true
  | .fetch _ _ _ _ => true
  | .fetchData _ => true
  | .directoryRead _ => true
  | .spoolFormat _ => true
  | .flashHealthRead _ => true
  | .rightsSet _ _ _ _ _ => true
  | .rightsStore _ => true
  | .rightsRead _ => true
  | .chipReset _ => true
  | .peerRead _ => true
  | .peerGrant _ => true
  | .peerDeny _ => true
  | .peerWithdraw _ => true
  | .portSelect _ => true
  | .inputChange _ => true
  | .keyPress _ => true
  | .keyRelease _ => true
  | .powerPress => true
  | .powerRelease => true
  | .powerHeld2s => true
  | .powerHeld8s => true
  | .powerHeld1s => true
  | .coverChange _ => true
  | .presenceChange _ _ => true
  | .chargerRise => true
  | .chargerFall => true
  | .coldStart => true
  | .resetLineFall => true
  | .resetLineRise => true
  | .secondTick => true
  | .alarmExpiry _ => true
  | .peerRequestExpiry _ => true
  | .stallTick => true
  | .frameBoundary => true
  | .rampTick => true
  | .temperatureSample => true
  | .batterySample => true
  | .holdEntry => true
  | .offEntry => true
  | .programEnd _ => true
  | .eraseEnd _ => true
  | .supplyLoss => true

end Sys2Proof
end

