-- ==== Sys2Proof/Safety.lean ====
section
/-! DEFINITION. Which events can be taken in a state, and a run that takes only such events: what R111 calls "does not
arise" and the rules that start and end timers and operations rule the others out. `exec` leaves the state as it is for
an event that does not arise (log entry 5). And the words in which the claims speak of a transaction: when it is taken,
and what its answer leaves in its port. -/

namespace Sys2Proof.Machine

/-- Whether a debounce timer can run out at a level (R20). -/
def debounceDue (v : Bool) (d : Debouncer) : Bool := decide (d.candidate = some v)

/-- The kind of operation in progress, if any. -/
def inProgress (s : Part) : Option Nat := s.flash.running.map fun x => operationCode x.operation

/-- Whether a command or event can be taken in a state of the part. -/
def arises (s : Part) (i : Instr) : Bool :=
  match i with
  | .keyPress k => alive s && debounceDue true (keyOf s.debounce k)
  | .keyRelease k => alive s && debounceDue false (keyOf s.debounce k)
  | .powerPress => alive s && debounceDue true s.debounce.power
  | .powerRelease => alive s && debounceDue false s.debounce.power
  | .powerHeld2s => alive s && decide ((s.power.press.map PressRecord.held) = some 0)
  | .powerHeld8s => alive s && decide ((s.power.press.map PressRecord.held) = some 2000)
  | .powerHeld1s => alive s && s.power.bootTiming
  | .coverChange closed => alive s && debounceDue closed s.debounce.cover
  | .presenceChange p high => alive s && debounceDue high (s.debounce.presence.get p)
  | .chargerRise => !s.pins.charger
  | .chargerFall => s.pins.charger
  | .entryToActive _ => alive s && decide (s.power.state = .boot) && !s.power.forcedOff
  | .coldStart => !s.supply
  | .supplyLoss => s.supply
  | .resetLineFall => !s.pins.resetLow
  | .resetLineRise => s.pins.resetLow
  | .alarmExpiry p => alive s && decide (s.power.alarms.get p = some 0)
  | .peerRequestExpiry p => alive s && (request s p).any fun r => decide (30 ≤ r.age)
  | .frameBoundary => alive s && boundariesRun s
  | .temperatureSample => alive s && temperatureRuns s
  | .holdEntry => alive s && quiet s
  | .offEntry => alive s && offDue s
  | .readEnd _ => decide (inProgress s = some 1)
  | .programEnd _ => decide (inProgress s = some 2)
  | .eraseEnd _ => decide (inProgress s = some 3)
  | .moveEnd _ _ => decide (inProgress s = some 4)
  | .flashOperationTimeout _ =>
      decide (inProgress s = some 2) || decide (inProgress s = some 3) || decide (inProgress s = some 4)
  | .portSelect p => decide ((port s p).line = .deselected)
  | i => !isSample i || (port s (commandPort i)).sample.isNone

/-- A run over a list of commands, each well formed and able to arise where it is taken. -/
def safeRun : State → List Instr → Bool
  | _, [] => true
  | s, i :: is =>
      i.wellFormed && arises s.part i &&
        match exec i s with
        | .next t => safeRun t is
        | .fault _ => false
        | .refused _ => false

/-! ### Transactions, as the claims speak of them -/

/-- Whether an instruction is the transaction of a command, of a code that names none, or of one cut short. -/
def isTransaction : Instr → Bool
  | .aborted _ _ => true
  | i => (commandCode i).isSome

/-- Whether a transaction on a port is answered with a line state: it is in progress in it, or would be selected in it. -/
def selectsAs (x : Line) (s : Part) (p : Port) : Bool :=
  decide ((port s p).line = x) || (decide ((port s p).line = .deselected) && decide (lineAtSelect s = x))

/-- Whether a transaction on a port is taken (R190): it was selected in ACTIVE or SETTLING, or is selected there now. -/
def takes (s : Part) (p : Port) : Bool := selectsAs .taken s p

/-- A port's unit while a transaction in a line state is in progress: the status bytes are those of its select (R190). -/
def unitIn (x : Line) (s : Part) (p : Port) : PortUnit :=
  if (port s p).line = .deselected then
    { port s p with line := x, status0 := statusByte0 s p, status1 := statusByte1 s p }
  else port s p

/-- A port's unit after an answer: deselected, with its result, its value and its data, which are those of the sample
where a read has taken one (R188, R190). -/
def answeredUnit (x : Line) (s : Part) (p : Port) (r : Reply) : PortUnit :=
  { unitIn x s p with line := .deselected, sample := none, lastResult := r.code, lastValue := r.value, data := sentData (port s p) r.data }

/-- A port's unit after the sample of a data read, which fixes the bytes it will send (R188). -/
def sampledUnit (x : Line) (s : Part) (p : Port) (data : List Byte) : PortUnit :=
  { unitIn x s p with sample := some (dataSample data) }

/-- The part after the sample of a data read that answers with some bytes: a second sample of one transaction changes
nothing. -/
def sampled (x : Line) (s : Part) (p : Port) (data : List Byte) : Part :=
  { s with ports := s.ports.set p (if (port s p).sample = none then sampledUnit x s p data else unitIn x s p) }

/-- The ports after a taken transaction is answered: only its own port has changed. -/
def answered (s : Part) (p : Port) (r : Reply) : Both PortUnit := s.ports.set p (answeredUnit .taken s p r)

/-- The part while a taken transaction is in progress. -/
def inTransaction (s : Part) (p : Port) : Part := { s with ports := s.ports.set p (unitIn .taken s p) }

/-- Whether a port holds a capability (R178, R181). -/
def permits (s : Part) (p : Port) (n : Nat) : Bool := hasCapability (s.rights.records.get p).caps n

/-- Whether a port may give a SYSTEM-class command without consent: it holds SYSTEM and its peer is not present (R182). -/
def permitsSystem (s : Part) (p : Port) : Bool := permits s p systemBit && !isPresent s (peer p)

/-- Whether a command is refused because an orderly OFF is in progress (R121). -/
def offRefuses (s : Part) (i : Instr) : Bool := s.power.offPending && !takenWhileOffPending (codeOf i)

/-! ### What every step keeps -/

/-- Both memories in their canonical form. -/
def memoriesCanonical (s : Part) : Bool := Memory.wf s.store.dram && Nand.wf s.flash.nand

/-- The light within its ceiling (R84, R87, R88, R90, R92, R94). -/
def lightLegal (s : Part) : Bool :=
  let l := s.light
  decide (l.brightness ≤ 1000) && decide (l.warmth ≤ 100) && decide (1 ≤ l.step) && decide (l.step ≤ 4095)
    && decide (l.ceiling = ceilingOf s.battery.state) && decide (retarget (lit s.power) l = l)
    && decide (l.warm + l.cool ≤ dutyLimit l.ceiling)
    && (decide (s.power.state = .active) || decide (s.power.state = .settling) || lightDark l)

/-- The turn state legal (R23 to R25, R30, R32). -/
def turnLegal (s : Part) : Bool :=
  let t := s.turn
  let cursorIn := match t.cursor with
    | none => t.list.isEmpty
    | some i => decide (i < t.list.length)
  decide (t.list.length ≤ 28) && t.list.all (fun k => decide (k < Config.pageSlots)) && decide t.list.Nodup && cursorIn
    && decide (-8 ≤ t.backlog) && decide (t.backlog ≤ 8) && (decide (t.backlog = 0) || decide (s.power.state = .active))
    && decide (1 ≤ t.lookahead) && decide (t.lookahead ≤ 8) && decide (t.mode ≠ .full)

/-- How many entries of the queue have an origin. -/
def originCount (o : FirstOrigin) (e : Engine) : Nat := (e.queue.filter fun u => decide (u.origin = o)).length

/-- The engine's collections and ghost counts within their bounds (R28, R43, R46, R76, R80). -/
def engineBounded (s : Part) : Bool :=
  let e := s.engine
  decide (ordinaryPlaces e ≤ 16) && decide (originCount .power e ≤ 1) && decide (originCount .turn e ≤ 1)
    && decide (e.pool ≤ 32) && (runningLanes e).all (fun x => decide (x.2.followUps.length ≤ 4))
    && e.tiles.toList.all (fun n => decide (n ≤ 15)) && decide (1 ≤ e.ghostLimit) && decide (e.ghostLimit ≤ 15)

/-! ### What every step keeps of the slot table (R2, R5, R6, R17) -/

/-- A row map that marks rows of the panel, each once, in ascending order. -/
def rowsLegal (rows : List Nat) : Bool := decide (rows.Pairwise (· < ·)) && rows.all fun r => decide (r < Config.panelRows)

/-- A slot's record as its state governs it: a page slot's (R2) or a system slot's (R5). -/
def slotLegal (i : Nat) (v : Slot) : Bool :=
  let page := decide (i < Config.pageSlots)
  rowsLegal v.rows && (decide (v.state = .ready) || decide (v.showing = 0)) && (page || !v.retain)
    && match v.state with
      | .empty => v.key.isNone && v.writer.isNone && v.rows.isEmpty
      | .lost => page && v.key.isNone && v.writer.isNone && v.rows.isEmpty
      | .filling => page && v.key.isNone && v.writer.isSome
      | .ready =>
          if page then v.key.isSome && v.writer.isSome
          else v.key.isNone && v.writer.isNone && decide (v.rows = List.range Config.panelRows)

/-- A slot that an update may name: a page slot, or the sleep screen's (R5, R39). -/
def sourceLegal (i : Nat) : Bool := decide (i < Config.pageSlots) || decide (i = Config.sleepSlot)

/-- How many running lanes take a slot as their source (R6). -/
def lanesShowing (s : Part) (i : Nat) : Nat := (runningLanes s.engine).countP fun x => decide (x.2.update.source = i)

/-- The slot table legal (R2, R5, R6): each record as its state governs it, each showing count equal to the number of
running lanes with that source, no lane in OFF or BOOT, and no update naming another slot than it may. -/
def slotTableLegal (s : Part) : Bool :=
  let e := s.engine
  (List.range Config.slotCount).all (fun i => slotLegal i (slot s i) && decide ((slot s i).showing = lanesShowing s i))
    && (!anyLane e || (decide (s.power.state ≠ .off) && decide (s.power.state ≠ .boot)))
    && (e.queue ++ e.release).all (fun u => sourceLegal u.source)
    && (runningLanes e).all (fun x => sourceLegal x.2.update.source && x.2.followUps.all fun u => sourceLegal u.source)
    && s.turn.list.all fun k => decide (k < Config.pageSlots)

/-- A port on which nothing is in progress that the part would answer. -/
def lineRests (u : PortUnit) : Bool := decide (u.line = .deselected) || decide (u.line = .ignored)

/-- HOLD keeps the page slots that hold a page (R17, R18): every such slot lies in a retained segment and no transaction
is in progress; outside HOLD nothing is marked retained. -/
def holdLegal (s : Part) : Bool :=
  if s.power.state = .hold then
    lineRests s.ports.a && lineRests s.ports.b
      && match s.store.retained with
        | none => false
        | some kept => (List.range Config.pageSlots).all fun i => !holdsPage (slot s i) || decide (i / 4 ∈ kept)
  else s.store.retained.isNone

/-! ### What every step keeps of the spool (R135, R140, R161) -/

/-- The blocks of the free pool, the erase-pending list, the extents, the retired list, the factory-bad set and the
relocation target (R161). -/
def placedBlocks (s : Part) : List Nat :=
  let f := s.flash
  f.free ++ f.erasePending.map ErasePending.block ++ allExtents s ++ f.retired ++ f.factoryBad
    ++ (f.recovery.bind Recovery.target).toList ++ (f.scrub.map Scrub.target).toList

/-- Each spool block belongs to exactly one of them, there is one relocation target at most, and the lists are within
their bounds (R161). -/
def blocksLegal (s : Part) : Bool :=
  let f := s.flash
  (placedBlocks s).all (fun b => decide (Config.firstSpool ≤ b) && decide (b < Config.nandBlocks))
    && (List.range (Config.nandBlocks - Config.firstSpool)).all
      (fun i => decide ((placedBlocks s).count (Config.firstSpool + i) = 1))
    && (f.scrub.isNone || (f.recovery.bind Recovery.target).isNone)
    && decide (f.retired.length ≤ Config.retiredPlaces) && decide (f.scrubList.length ≤ 8) && decide f.scrubList.Nodup

/-- A record's entries in the staging ring, in order. -/
def ringOf (s : Part) (r : Nat) : List Staged := s.spool.ring.filter fun e => decide (e.record = r)

/-- Entries that hold the pages from `page` on, one after another (R140). -/
def pagesRunFrom : Nat → List Staged → Bool
  | _, [] => true
  | page, e :: es => decide (e.page = page) && pagesRunFrom (page + 1) es

/-- A staging entry of a record in a state (R140, R146): a FILLING one is not yet full, another holds a whole page, padded
only where the record is SEALING. -/
def entryLegal (x : RecordState) (e : Staged) : Bool :=
  decide (1 ≤ e.fill) && decide (e.fill ≤ Config.pageBytes)
    && if e.state = .filling then
        decide (x ≠ .sealing) && decide (e.data.length = e.fill) && decide (e.fill < Config.pageBytes)
      else decide (e.data.length = Config.pageBytes) && (decide (e.fill = Config.pageBytes) || decide (x = .sealing))

/-- Whether an abandon of a record waits for the operation in progress: the program of its entry, or, with its recovery in
hand, any operation (R148, R164). -/
def endingWaits (s : Part) (r : Nat) : Bool :=
  s.flash.running.any fun x =>
    (x.live && (match x.job with
      | .staging i _ => decide (i = r)
      | _ => false))
      || s.flash.recovery.any fun y => decide (y.record = r)

/-- A download record with its staging entries (R135, R136, R140, R148). -/
def recordLegal (s : Part) (r : Nat) : Bool :=
  let v := record s r
  let es := ringOf s r
  let pages := pagesOf v.programmed
  let lengths := decide (v.durable ≤ v.programmed) && decide (v.programmed ≤ v.received)
    && decide (v.received ≤ v.declared) && decide (v.declared ≤ Config.maxDeclared)
  match v.state with
  | .free => decide (v = freeRecord) && es.isEmpty
  | .opened | .stalled | .sealing =>
      lengths && pagesRunFrom (v.programmed / Config.pageBytes) es && es.all (entryLegal v.state)
        && (decide (v.programmed % Config.pageBytes = 0) || (decide (v.programmed = v.declared) && es.isEmpty))
        && es.dropLast.all (fun e => decide (e.fill = Config.pageBytes) && decide (e.state ≠ .filling))
        && es.tail.all (fun e => decide (e.state ≠ .programming))
        && decide ((pages + 63) / Config.blockPages ≤ v.extent.length)
        && decide (v.extent.length ≤ pages / Config.blockPages + 1)
        && (decide (v.state ≠ .sealing) || decide (v.received = v.declared))
        && (if v.ending then
              decide (v.state ≠ .sealing) && decide (v.programmed + (es.map Staged.fill).sum ≤ v.received)
                && es.all (fun e => decide (e.state = .programming)) && endingWaits s r
            else decide (v.received = v.programmed + (es.map Staged.fill).sum))
  | .fault => lengths && decide (v.received = v.programmed) && !v.ending && es.isEmpty
  | .sealed | .corrupt | .claimed =>
      lengths && decide (v.programmed = v.declared) && !v.ending && es.isEmpty

/-- A PROGRAMMING entry belongs to the staging program in progress or to the recovery (R142, R163). -/
def programmingLegal (s : Part) (e : Staged) : Bool :=
  s.flash.running.any (fun x => x.live && decide (x.job = .staging e.record e.page))
    || s.flash.recovery.any fun x => decide (x.record = e.record) && decide (64 * x.position + x.page = e.page)

/-- A recovery works on the last block of a record that takes programs, for its PROGRAMMING entry (R163). -/
def recoveryLegal (s : Part) (x : Recovery) : Bool :=
  let v := record s x.record
  decide (x.page < Config.blockPages) && decide (v.extent[x.position]? = some x.failed)
    && decide (x.position + 1 = v.extent.length)
    && ((stagedEntry x.record (64 * x.position + x.page) s).map Staged.state == some .programming)

/-- The operation in progress fits its job, while that job stands (R142, R143, R161, R163, R165). -/
def runningLegal (s : Part) (x : Running) : Bool :=
  let f := s.flash
  let pending (b : Nat) : Bool := decide (b ∈ f.erasePending.map ErasePending.block)
  match x.job, x.operation with
  | .staging r page, .program b k _ =>
      let v := record s r
      ((stagedEntry r page s).map Staged.state == some .programming) && decide (v.extent[page / 64]? = some b)
        && decide (v.extent.length = page / 64 + 1) && decide (k = page % 64) && f.recovery.isNone
  | .staging _ _, _ => false
  | .allocation _, .erase b => pending b
  | .allocation _, _ => false
  | .replacement, .erase b =>
      pending b && f.scrub.isNone && f.recovery.isSome && (f.recovery.bind Recovery.target).isNone
  | .replacement, _ => false
  | .recovery, .move _ _ _ => (f.recovery.bind Recovery.target).isSome
  | .recovery, .program _ _ _ => (f.recovery.bind Recovery.target).isSome
  | .recovery, _ => false
  | .scrubTarget, .erase b => pending b && f.scrub.isNone && f.recovery.isNone
  | .scrubTarget, _ => false
  | .eraser, .erase b => pending b
  | .eraser, _ => false
  | .scrub, _ => true
  | .journal _, _ => true
  | .compaction, _ => true
  | .system, _ => true
  | .fetch _, _ => true

/-- A waiting entry that will still change its record finds it as it was queued for (R145, R147). -/
def itemLegal (s : Part) (i : JItem) : Bool :=
  match i.entry with
  | .block r k _ _ =>
      let v := record s r.toNat
      decide (v.state ≠ .free) && decide (min (Config.blockBytes * (k.toNat + 1)) v.declared ≤ v.programmed)
  | .sealed r _ _ _ =>
      let v := record s r.toNat
      (ringOf s r.toNat).isEmpty
        && (decide (v.state = .sealing) || decide (v.state = .sealed) || decide (v.state = .corrupt) || decide (v.state = .claimed))
  | _ => true

/-- The spool blocks, the records and the staging ring legal. -/
def spoolCore (s : Part) : Bool :=
  blocksLegal s && decide (s.spool.ring.length ≤ Config.ringPlaces) && s.spool.ring.all (fun e => decide (e.record < 32))
    && (List.range 32).all (recordLegal s)
    && s.spool.ring.all (fun e => decide (e.state ≠ .programming) || programmingLegal s e)
    && s.flash.recovery.all (recoveryLegal s) && s.flash.running.all (fun x => !x.live || runningLegal s x)
    && s.flash.journal.batch.all fun i => !i.live || itemLegal s i

/-- Whether download records exist: in ACTIVE, SETTLING and HOLD, until a forced OFF entry begins (R123, R155). -/
def spoolStands (s : Part) : Bool :=
  !s.power.forcedOff
    && (decide (s.power.state = .active) || decide (s.power.state = .settling) || decide (s.power.state = .hold))

/-- The spool legal wherever download records exist (R135, R140, R161). -/
def spoolLegal (s : Part) : Bool := !spoolStands s || spoolCore s

end Sys2Proof.Machine
end

