-- ==== Sys2Proof/Certificates/Slice0/Obligations.lean ====
section
/-! DEFINITION. The statements for the provers. Each says in its docstring which rules of spec/ it rests on. -/

open Sys2Proof Sys2Proof.Machine

/-! ### The step and the queue -/

/-- A step takes the command at the front of the queue and answers as `exec` does with the queue's rest; on an empty
queue the part idles (log entry 1: the model's choice). -/
def Obligations.StepTakesFront : Prop :=
  (∀ (i : Instr) (rest : List Instr) (part : Part),
      step { part := part, pending := i :: rest } = exec i { part := part, pending := rest })
    ∧ ∀ part : Part, step { part := part, pending := [] } = .next { part := part, pending := [] }

/-- Every command and every event completes in every state (the spec describes no stop): the queue is left alone, and what
it makes of the part does not depend on the queue (log entry 1: the model's choice). -/
def Obligations.EveryCommandCompletes : Prop :=
  ∀ i : Instr, ∃ f : Part → Part, ∀ s : State, exec i s = .next { s with part := f s.part }

/-! ### The page store (chapter 1) -/

/-- R7, the checks of a slot write in their order, with the parameter checks of R8 and R9: a refused write answers its
code and changes nothing else. -/
def Obligations.SlotWriteRefusals : Prop :=
  ∀ (p : Port) (i : Byte) (s : State), takes s.part p = true → s.part.power.offPending = false →
    let v := slot s.part i.toNat
    let refusal : Bool → Option ResultCode := fun good =>
      if 28 ≤ i.toNat then some .badParam
      else if (s.part.rights.records.get p).mask.getLsbD i.toNat = false then some .denied
      else if good = false then some .badParam
      else if v.showing ≠ 0 then some .slotBusy
      else if v.state = .filling ∧ v.writer = some (peer p) then some .slotOwned
      else none
    (∀ (offset : Word) (data : List Byte) (c : ResultCode),
      refusal (decide (offset.toNat < 1038336 ∧ data ≠ [])) = some c →
        exec (.slotWrite p i offset data) s
          = .next { s with part := { s.part with ports := answered s.part p { code := c } } })
      ∧ ∀ (bc row bw h : Half) (data : List Byte) (c : ResultCode),
        refusal (decide (bc.toNat < 624 ∧ row.toNat < 1664 ∧ bw ≠ 0 ∧ h ≠ 0 ∧ data ≠ [])) = some c →
          exec (.slotWriteRect p i bc row bw h data) s
            = .next { s with part := { s.part with ports := answered s.part p { code := c } } }

/-- R3, R4, R7, R8: a SLOT WRITE that no check refuses. The slot is FILLING by the port without a key, every byte of the
run that falls in the image is seen where it was placed and every other byte of the image as before, the rows reached
are marked, every other slot keeps its record and its bytes, and nothing else changes. R9: a SLOT WRITE RECT that no
check refuses. Byte `k` of the data goes to byte column bc + k mod bw of row y + k / bw when it lies in the bw x h bytes
and on the panel; the result is CLIPPED when any byte was dropped. -/
def Obligations.SlotWritePlaces : Prop :=
  (∀ (p : Port) (i : Byte) (offset : Word) (data : List Byte) (s : State),
     takes s.part p = true → s.part.power.offPending = false → Memory.wf s.part.store.dram = true →
     i.toNat < 28 → (s.part.rights.records.get p).mask.getLsbD i.toNat = true →
     offset.toNat < 1038336 → data ≠ [] → (slot s.part i.toNat).showing = 0 →
     ¬ ((slot s.part i.toNat).state = .filling ∧ (slot s.part i.toNat).writer = some (peer p)) →
     ((slot s.part i.toNat).state = .empty ∨ (slot s.part i.toNat).state = .lost → (slot s.part i.toNat).rows = []) →
     ∃ t : State, exec (.slotWrite p i offset data) s = .next t
       ∧ t = { s with
          part := { s.part with
           ports := answered s.part p { code := if offset.toNat + data.length ≤ 1038336 then .ok else .clipped }
           store := { t.part.store with retained := s.part.store.retained } } }
       ∧ (∃ rows, slot t.part i.toNat = { slot s.part i.toNat with state := .filling, key := none, writer := some p, rows := rows }
           ∧ ∀ row, row ∈ rows ↔ row ∈ (slot s.part i.toNat).rows
               ∨ ∃ k, k < data.length ∧ offset.toNat + k < 1038336 ∧ (offset.toNat + k) / 624 = row)
       ∧ (∀ a, a < 1038336 →
           seen t.part i.toNat a
             = if offset.toNat ≤ a ∧ a < offset.toNat + data.length then data.getD (a - offset.toNat) 0
               else seen s.part i.toNat a)
       ∧ ∀ j, j ≠ i.toNat → slot t.part j = slot s.part j ∧ ∀ a, a < 1048576 → cell t.part j a = cell s.part j a)
    ∧ (∀ (p : Port) (i : Byte) (bc row bw h : Half) (data : List Byte) (s : State),
         takes s.part p = true → s.part.power.offPending = false → Memory.wf s.part.store.dram = true →
         i.toNat < 28 → (s.part.rights.records.get p).mask.getLsbD i.toNat = true →
         bc.toNat < 624 → row.toNat < 1664 → bw ≠ 0 → h ≠ 0 → data ≠ [] → (slot s.part i.toNat).showing = 0 →
         ¬ ((slot s.part i.toNat).state = .filling ∧ (slot s.part i.toNat).writer = some (peer p)) →
         ((slot s.part i.toNat).state = .empty ∨ (slot s.part i.toNat).state = .lost → (slot s.part i.toNat).rows = []) →
         let lands : Nat → Nat → Prop := fun k a =>
           k < data.length ∧ k < bw.toNat * h.toNat ∧ bc.toNat + k % bw.toNat < 624 ∧ row.toNat + k / bw.toNat < 1664
             ∧ a = 624 * (row.toNat + k / bw.toNat) + (bc.toNat + k % bw.toNat)
         ∃ t : State, exec (.slotWriteRect p i bc row bw h data) s = .next t
           ∧ (∃ c, (c = ResultCode.ok ↔ ∀ k, k < data.length → ∃ a, lands k a) ∧ (c = .ok ∨ c = .clipped)
               ∧ t = { s with
                  part := { s.part with
                   ports := answered s.part p { code := c }
                   store := { t.part.store with retained := s.part.store.retained } } })
           ∧ (∃ rows, slot t.part i.toNat = { slot s.part i.toNat with state := .filling, key := none, writer := some p, rows := rows }
               ∧ ∀ r, r ∈ rows ↔ r ∈ (slot s.part i.toNat).rows ∨ ∃ k a, lands k a ∧ a / 624 = r)
           ∧ (∀ k a, lands k a → seen t.part i.toNat a = data.getD k 0)
           ∧ (∀ a, a < 1038336 → (¬ ∃ k, lands k a) → seen t.part i.toNat a = seen s.part i.toNat a)
           ∧ ∀ j, j ≠ i.toNat → slot t.part j = slot s.part j ∧ ∀ a, a < 1048576 → cell t.part j a = cell s.part j a)

/-- R11: SLOT POST. Refused as listed, it changes nothing else; taken, the slot is READY under its key, the rest of its
record is kept, and backlog service follows. R12 and R13: SLOT DISCARD empties the slot and keeps its retain flag; SLOT
RETAIN sets or clears the flag, its slot mask tested before its flag (log entry 45: the model's choice). A refused one
changes nothing but its port's answer. -/
def Obligations.SlotPostDiscardRetain : Prop :=
  (∀ (tx : Tx) (i : Byte) (key : Word) (s : State), takes s.part tx.port = true → tx.extra = 0 →
    s.part.power.offPending = false →
    let v := slot s.part i.toNat
    let refused : ResultCode → State := fun c => { s with part := { s.part with ports := answered s.part tx.port { code := c } } }
    exec (.slotPost tx i key) s = .next
      (if 28 ≤ i.toNat then refused .badParam
       else if (s.part.rights.records.get tx.port).mask.getLsbD i.toNat = false then refused .denied
       else if v.state = .filling ∧ v.writer = some tx.port then
         { s with
            part := settle tx.port { code := .ok }
             (backlogService (setSlot i.toNat { v with state := .ready, key := some key } (inTransaction s.part tx.port))) }
       else refused .badState))
    ∧ (∀ (tx : Tx) (i flag : Byte) (s : State), takes s.part tx.port = true → tx.extra = 0 →
    s.part.power.offPending = false →
    let v := slot s.part i.toNat
    let answer : ResultCode → Part → State := fun c x => { s with part := { x with ports := answered s.part tx.port { code := c } } }
    let closed : Option ResultCode :=
      if 28 ≤ i.toNat then some .badParam
      else if (s.part.rights.records.get tx.port).mask.getLsbD i.toNat = false then some .denied else none
    exec (.slotDiscard tx i) s = .next
        (match closed with
          | some c => answer c s.part
          | none =>
              if v.showing ≠ 0 then answer .slotBusy s.part
              else answer .ok (setSlot i.toNat
                { state := .empty, key := none, writer := none, retain := v.retain, showing := 0, rows := [] } s.part))
      ∧ exec (.slotRetain tx i flag) s = .next
        (match closed with
          | some c => answer c s.part
          | none =>
              if flag.toNat ≤ 1 then answer .ok (setSlot i.toNat { v with retain := decide (flag.toNat = 1) } s.part)
              else answer .badParam s.part))

/-- R14 and R15: SLOT READ and SHOWN READ return the content as seen, shortened at the image's end, and change nothing.
R188: their sample, at the last parameter byte, takes the bytes that they send, of a refused one none; a read that was
sampled sends them at its deselect (log entry 13: the result is the deselect's). -/
def Obligations.ImageReads : Prop :=
  ∀ (p : Port) (i : Byte) (offset length : Word) (s : State), takes s.part p = true →
    let o := offset.toNat
    let n := length.toNat
    let bytes : Nat → List Byte := fun k =>
      (List.range (if 1038336 < o + n then 1038336 - o else n)).map fun j => seen s.part k (o + j)
    let result : Bool → Nat → Reply := fun bad k =>
      if bad || decide (1038336 ≤ o) || decide (n = 0) then { code := .badParam }
      else { code := if 1038336 < o + n then .clipped else .ok, data := bytes k }
    let answers : (ReadMoment → Instr) → Reply → Prop := fun i r =>
      exec (i .deselect) s = .next { s with part := { s.part with ports := answered s.part p r } }
        ∧ exec (i .sample) s = .next { s with part := sampled .taken s.part p r.data }
    answers (fun m => .slotRead ⟨p, m⟩ i offset length) (result (decide (28 ≤ i.toNat)) i.toNat)
      ∧ answers (fun m => .shownRead ⟨p, m⟩ offset length) (result false 28)

/-- R17, R114 and R115: HOLD entry. The quiet test is R114's six conditions, in SETTLING with no entry to OFF on its way. It
happens exactly when the quiet test holds; without it the event leaves the state as it is
(log entry 5: the model's choice). Segment 7 and every segment with a READY or FILLING slot that is flagged, at the cursor
or next after it keep their slots and bytes; in the others every READY or FILLING slot becomes LOST with key, writer, map
and retain flag cleared, and every EMPTY or LOST slot stays. -/
def Obligations.HoldEntryRetention : Prop :=
  ∀ s : State, alive s.part = true →
    (quiet s.part = true ↔
      let f := s.part.flash
      s.part.power.state = .settling ∧ s.part.power.offPending = false ∧ s.part.power.forcedOff = false
        ∧ ((∀ l, l ∈ s.part.engine.lanes.toList → l = none) ∧ s.part.engine.queue = [] ∧ s.part.engine.release = [])
        ∧ (s.part.light.warm = 0 ∧ s.part.light.cool = 0)
        ∧ (f.running = none ∧ f.journal.batch = [] ∧ f.journal.compaction = none ∧ f.system = [] ∧ f.recovery = none
            ∧ ∀ p r o n, (port s.part p).fetch ≠ .waiting r o n true)
        ∧ (∀ e, e ∈ s.part.spool.ring → e.state ≠ .full ∧ e.state ≠ .programming)
        ∧ (∀ r, r < 32 → (record s.part r).state ≠ .opened ∧ (record s.part r).state ≠ .sealing)
        ∧ ∀ p, (port s.part p).line = .deselected)
      ∧ (quiet s.part = false → exec .holdEntry s = .next s)
      ∧ (quiet s.part = true →
        let wanted : Nat → Prop := fun j =>
          ((slot s.part j).state = .ready ∨ (slot s.part j).state = .filling)
            ∧ ((slot s.part j).retain = true ∨ entryAt s.part.turn 0 = some j ∨ entryAt s.part.turn 1 = some j)
        let kept : Nat → Prop := fun k => k = 7 ∨ ∃ j, j < 4 ∧ wanted (4 * k + j)
        ∃ t : State, exec .holdEntry s = .next t
          ∧ t = { s with part := { s.part with store := t.part.store, power := { s.part.power with state := .hold } } }
          ∧ (∃ l, t.part.store.retained = some l ∧ ∀ k, k ∈ l ↔ k < 8 ∧ kept k)
          ∧ ∀ i, i < 32 →
              (kept (i / 4) → slot t.part i = slot s.part i ∧ ∀ a, a < 1048576 → cell t.part i a = cell s.part i a)
                ∧ (¬ kept (i / 4) → slot t.part i =
                    if (slot s.part i).state = .ready ∨ (slot s.part i).state = .filling then
                      { state := .lost, key := none, writer := none, retain := false, showing := 0, rows := [] }
                    else slot s.part i))

/-! ### Turning pages (chapter 2) -/

/-- R24: TURN LIST SET is refused with BAD_PARAM in the cases listed and changes nothing then; taken, it replaces the
list and the cursor, clears the backlog and leaves everything else of the part as it was. The 28 places are those of
R197's layout. -/
def Obligations.TurnListSetResult : Prop :=
  ∀ (tx : Tx) (n : Byte) (places : List Byte) (c : Byte) (s : State), takes s.part tx.port = true → tx.extra = 0 →
    permits s.part tx.port 0 = true → s.part.power.offPending = false → places.length = 28 →
    let place : Nat → Nat := fun k => (places.getD k 0).toNat
    let good : Prop := n.toNat ≠ 0 ∧ n.toNat ≤ 28 ∧ (∀ k, n.toNat ≤ k → k < 28 → place k = 0xFF)
      ∧ (∀ k, k < n.toNat → place k ≤ 27) ∧ (∀ j k, j < k → k < n.toNat → place j ≠ place k) ∧ c.toNat < n.toNat
    (good → exec (.turnListSet tx n places c) s = .next { s with
       part := { s.part with
        turn := { s.part.turn with list := (List.range n.toNat).map place, cursor := some c.toNat, backlog := 0 }
        ports := answered s.part tx.port { code := .ok } } })
      ∧ (¬ good → exec (.turnListSet tx n places c) s
          = .next { s with part := { s.part with ports := answered s.part tx.port { code := .badParam } } })

/-- R20, R119 and R191: a change at an input. A debounced one starts or drops its debouncer's candidate while the part
runs and rests otherwise (log entry 9: the model's reading); the analog ones are only kept for their samples. R20, R21, R22: a debounced PRESS of FWD, BACK or HOME by power
state, but for FWD and BACK in ACTIVE (`TurnPressDecides`) and while a forced OFF entry waits (`ForcedOffWaits`); and a
RELEASE, which settles the debouncer and has no other effect. -/
def Obligations.KeysAndInputs : Prop :=
  (∀ (s : State) (v : Bool) (p : Port),
    let d := s.part.debounce
    let n := s.part.pins
    let c : Debouncer → Debouncer := fun x => { level := x.level, candidate := if v = x.level then none else some v }
    let answer : Input → Pins → Debouncers → Prop := fun x pins after =>
      exec (.inputChange x) s = .next { s with
       part :=
        { s.part with pins := pins, debounce := if alive s.part = true then after else d } }
    answer (.turnKey .fwd v) { n with fwd := v } { d with fwd := c d.fwd }
      ∧ answer (.turnKey .back v) { n with back := v } { d with back := c d.back }
      ∧ answer (.turnKey .home v) { n with home := v } { d with home := c d.home }
      ∧ answer (.powerKey v) { n with power := v } { d with power := c d.power }
      ∧ answer (.cover v) { n with cover := v } { d with cover := c d.cover }
      ∧ answer (.presence p v) { n with presence := n.presence.set p v }
          { d with presence := d.presence.set p (c (d.presence.get p)) }
      ∧ (∀ x, answer (.battery x) { n with batSense := x } d)
      ∧ ∀ x, answer (.temperature x) { n with tempSense := x } d)
    ∧ (∀ (k : TurnKey) (s : State), alive s.part = true →
    let settled : Bool → Part := fun v =>
      let d := s.part.debounce
      let x : Debouncer := { level := v, candidate := none }
      { s.part with debounce :=
        match k with
        | .fwd => { d with fwd := x }
        | .back => { d with back := x }
        | .home => { d with home := x } }
    ((keyOf s.part.debounce k).candidate = some true → s.part.power.forcedOff = false →
      (s.part.power.state = .off ∨ s.part.power.state = .boot → exec (.keyPress k) s = .next { s with part := settled true })
        ∧ (s.part.power.state = .settling ∨ s.part.power.state = .hold →
            exec (.keyPress k) s = .next { s with part := wake (settled true) })
        ∧ (s.part.power.state = .active → k = .home →
            exec (.keyPress k) s = .next { s with
             part :=
              raise .A .homeKey [byteOrAbsent s.part.turn.cursor, byteOrAbsent (entryAt s.part.turn 0)] (settled true) }))
      ∧ ((keyOf s.part.debounce k).candidate = some false → exec (.keyRelease k) s = .next { s with part := settled false }))

/-- R26, R29, R30: a FWD or BACK press in ACTIVE, as the first test that applies decides it. With a nonzero backlog it
only moves the backlog, between -8 and 8. -/
def Obligations.TurnPressDecides : Prop :=
  ∀ (back : Bool) (s : State),
    let k : TurnKey := if back then .back else .fwd
    let d : Int := if back then -1 else 1
    alive s.part = true → s.part.power.forcedOff = false → s.part.power.state = .active →
    (keyOf s.part.debounce k).candidate = some true →
    let q : Part := { s.part with debounce := setKey k { level := true, candidate := none } s.part.debounce }
    let t := s.part.turn
    let backlogged : Int → Part := fun b => { q with turn := { t with backlog := b } }
    let starved : Int → Byte → Option Nat → Part := fun b reason blocked =>
      raise .A .turnStarved [signedByte d, reason, byteOrAbsent t.cursor, byteOrAbsent blocked, signedByte b] (backlogged b)
    let ports16 := 16 ≤ (s.part.engine.queue.filter fun u => decide (u.origin ≠ .power)).length
      ∧ ∀ u, u ∈ s.part.engine.queue → u.origin ≠ .turn
    (t.backlog ≠ 0 → exec (.keyPress k) s = .next { s with
       part :=
        backlogged (if 8 < t.backlog + d then 8 else if t.backlog + d < -8 then -8 else t.backlog + d) })
      ∧ (t.backlog = 0 → exec (.keyPress k) s = .next { s with
         part :=
          match entryAt t d with
          | none => starved d 0 none
          | some e =>
              match (slot s.part e).state with
              | .lost => starved d 2 (some e)
              | .empty => starved d 1 (some e)
              | .filling => starved d 1 (some e)
              | .ready =>
                  if (slot s.part 29).state ≠ .ready then starved 0 3 (some e)
                  else if ports16 then starved 0 4 (some e)
                  else renderAhead d (modifyEngine (placeTurn e t.mode)
                    { q with turn := { t with cursor := t.cursor.map fun i => ((i : Int) + d).toNat } }) })

/-- R33: RENDER_AHEAD is raised exactly when fewer entries than the lookahead are READY ahead of the cursor, counting up
to the first entry that is missing or not READY, with that count in its detail. R31: backlog service. With `d` the
backlog's sign it steps over the READY entries that follow, as many as the backlog asks for, submits one TURN entry from
the last, evaluates RENDER_AHEAD once there, and reports what is left. R27 and R28: a TURN entry placed. The TURN-origin
update already waiting is removed, follow-ups attached or released included, and the entry joins the queue's tail with
origin TURN, the whole panel, the mode given, tag 0 and notify clear. -/
def Obligations.BacklogAndRenderAhead : Prop :=
  (∀ (d : Int) (s : Part), d = 1 ∨ d = -1 → s.turn.list.length ≤ 28 →
    let ready : Nat → Prop := fun k => ∃ e, entryAt s.turn ((k : Int) * d) = some e ∧ (slot s e).state = .ready
    ∃ n, n ≤ s.turn.lookahead ∧ (∀ k, 1 ≤ k → k ≤ n → ready k) ∧ (n < s.turn.lookahead → ¬ ready (n + 1))
      ∧ renderAhead d s =
        if n < s.turn.lookahead then
          raise .A .renderAhead
            [signedByte d, byteOf n, byteOrAbsent s.turn.cursor, byteOrAbsent (entryAt s.turn 0), byteOf s.turn.lookahead,
             byteOf (match s.turn.cursor with
               | none => 0
               | some i => if d = 1 then s.turn.list.length - 1 - i else i)] s
        else s)
    ∧ (∀ (s : Part) (i : Nat), s.turn.cursor = some i →
    let t := s.turn
    let d := t.backlog.sign
    let ready : Nat → Prop := fun k => ∃ e, entryAt t ((k : Int) * d) = some e ∧ (slot s e).state = .ready
    (t.backlog = 0 ∨ ¬ ready 1 → backlogService s = s)
      ∧ (t.backlog ≠ 0 → ready 1 → (slot s 29).state ≠ .ready →
          backlogService s = starve d .noWaveform (entryAt t d) s)
      ∧ (t.backlog ≠ 0 → ready 1 → (slot s 29).state = .ready → roomForTurn s.engine = false →
          backlogService s = starve d .queue (entryAt t d) s)
      ∧ (t.backlog ≠ 0 → ready 1 → (slot s 29).state = .ready → roomForTurn s.engine = true →
          ∃ n e, 1 ≤ n ∧ n ≤ t.backlog.natAbs ∧ (∀ k, 1 ≤ k → k ≤ n → ready k)
            ∧ (n < t.backlog.natAbs → ¬ ready (n + 1)) ∧ entryAt t ((n : Int) * d) = some e
            ∧ let moved : Part := { s with turn := { t with cursor := some ((i : Int) + n * d).toNat, backlog := t.backlog - n * d } }
              let shown := renderAhead d (modifyEngine (placeTurn e t.mode) moved)
              backlogService s =
                if n = t.backlog.natAbs then shown
                else starve d
                  (match entryAt t (((n + 1 : Nat) : Int) * d) with
                    | none => .endOfList
                    | some x => if (slot s x).state = .lost then .lost else .notReady)
                  (entryAt t (((n + 1 : Nat) : Int) * d)) shown))
    ∧ (∀ (source : Nat) (mode : Mode) (e : Engine),
    let kept : List Update → List Update := fun us => us.filter fun u => decide (u.origin ≠ .turn)
    let t := placeTurn source mode e
    t = { e with
        queue := kept e.queue
          ++ [{ origin := .turn, source := source, rect := { xs := 0, xe := 1248, ys := 0, ye := 1664 }, mode := mode, tag := 0,
                notify := false, serial := e.nextSerial }]
        release := kept e.release, lanes := t.lanes, nextSerial := e.nextSerial + 1 }
      ∧ ∀ i, i < 8 → t.lanes.toList.getD i none =
          match e.lanes.toList.getD i none with
          | some l => some { l with followUps := kept l.followUps }
          | none => none)

/-! ### Display updates (chapter 3) -/

/-- R39 to R42: UPDATE SUBMIT, its checks in their order, absorption by the covering entry nearest the head, and the
placement at the queue's tail. -/
def Obligations.UpdateSubmitResult : Prop :=
  ∀ (tx : Tx) (i : Byte) (x0 y0 w h : Half) (mode tag notify : Byte) (s : State),
    takes s.part tx.port = true → tx.extra = 0 → permits s.part tx.port 1 = true → s.part.power.offPending = false →
    let e := s.part.engine
    let refused : ResultCode → Prop := fun c => exec (.updateSubmit tx i x0 y0 w h mode tag notify) s
      = .next { s with part := { s.part with ports := answered s.part tx.port { code := c } } }
    let m : Mode := if mode.toNat = 0 then .full else if mode.toNat = 1 then .gray else .quick
    let q : Rect :=
      { xs := x0.toNat / 8 * 8, xe := min ((x0.toNat + w.toNat + 7) / 8 * 8) 1248, ys := y0.toNat
        ye := min (y0.toNat + h.toNat) 1664 }
    let covering : Update → Prop := fun c =>
      c.origin = .port tx.port ∧ c.source = i.toNat
        ∧ (c.rect.xs ≤ q.xs ∧ q.xe ≤ c.rect.xe ∧ c.rect.ys ≤ q.ys ∧ q.ye ≤ c.rect.ye) ∧ modeCode c.mode ≤ modeCode m
    if 28 ≤ i.toNat ∨ 2 < mode.toNat ∨ 1 < notify.toNat then refused .badParam
    else if (s.part.rights.records.get tx.port).mask.getLsbD i.toNat = false then refused .denied
    else if s.part.power.asleep = true then refused .badState
    else if w = 0 ∨ h = 0 ∨ 1248 ≤ x0.toNat ∨ 1664 ≤ y0.toNat then refused .emptyRegion
    else if (slot s.part 29).state ≠ .ready then refused .noWaveform
    else
      (∀ before c after, e.queue = before ++ c :: after → covering c → (∀ u, u ∈ before → ¬ covering u) →
        exec (.updateSubmit tx i x0 y0 w h mode tag notify) s = .next { s with
         part := { s.part with
          engine := { e with queue := before ++ { c with notify := c.notify || decide (notify.toNat = 1) } :: after }
          ports := answered s.part tx.port { code := .absorbed, value := c.tag.setWidth 32 } } })
        ∧ ((∀ u, u ∈ e.queue → ¬ covering u) →
            if 16 ≤ (e.queue.filter fun u => decide (u.origin ≠ .power)).length then refused .queueFull
            else exec (.updateSubmit tx i x0 y0 w h mode tag notify) s = .next { s with
             part := { s.part with
              engine := { e with
                queue := e.queue ++ [{ origin := .port tx.port, source := i.toNat, rect := q, mode := m, tag := tag,
                                       notify := decide (notify.toNat = 1), serial := e.nextSerial }]
                nextSerial := e.nextSerial + 1 }
              ports := answered s.part tx.port
                { code := if 1248 < x0.toNat + w.toNat ∨ 1664 < y0.toNat + h.toNat then .clipped else .ok } } })

/-- R44: UPDATE CANCEL removes every queue entry of the issuing port, keeps the others in their order, and answers the
number removed. -/
def Obligations.UpdateCancelResult : Prop :=
  ∀ (tx : Tx) (s : State), takes s.part tx.port = true → tx.extra = 0 → permits s.part tx.port 1 = true →
    s.part.power.offPending = false →
    let e := s.part.engine
    exec (.updateCancel tx) s = .next { s with
     part := { s.part with
      engine := { e with queue := e.queue.filter fun u => decide (u.origin ≠ .port tx.port) }
      ports := answered s.part tx.port
        { code := .ok, value := BitVec.ofNat 32 (e.queue.countP fun u => decide (u.origin = .port tx.port)) } } }

/-- R48 and R123: a frame boundary is taken in ACTIVE and SETTLING only, and not after a forced OFF entry has begun (one
that cannot arise leaves the part as it is: log entry 5, the model's choice, and log entry 9 for a part that does not run); it completes lanes, activates a pending table
when no lane runs, makes the start step and drives, in this order. R48: the lanes whose frame index has reached their
frame count complete, in ascending order, each as `LaneCompletes` states. R69: an activation copies the incoming table
into the active place, makes slot 29 READY and clears the replacement pending flag. R49, R50 and R53: how a start step
ends. With a replacement pending nothing starts. Otherwise it ends with both collections empty (outcome EMPTY also
when nothing was considered: log entry 20, the model's reading), or with a head whose
source is READY and that its recorded cause blocks. R49: it considers the head, of the release list first, and after a
discard or a start goes on as a start step of what is left. R34 and R50: an item whose source is not READY is discarded. It
leaves its collection; UPDATE_DONE tells its port when it notifies, and a TURN-origin one raises TURN_STARVED with reason
SOURCE_CHANGED. R53: a blocked item changes nothing. R28, R54 and R55: an item that commits leaves its collection and
attaches a follow-up to each lane it meets; a TURN-origin one that does so removes every other waiting TURN-origin update;
unless it is fully covered it takes the lowest-index IDLE lane with the record of `LaneStartAndDrive`, and its source is
shown once more. -/
def Obligations.FrameBoundaryOrder : Prop :=
  (∀ s : State,
     exec .frameBoundary s = .next { s with
      part :=
       if alive s.part = true ∧ s.part.power.forcedOff = false
           ∧ (s.part.power.state = .active ∨ s.part.power.state = .settling) then
         drive (startStep
           (let c := completions s.part
            if c.wave.replacementPending = true ∧ (∀ l, l ∈ c.engine.lanes.toList → l = none) then activateTable c else c))
       else s.part })
    ∧ (∀ s : Part, completions s = (List.range 8).foldl
         (fun x i => match s.engine.lanes.toList.getD i none with
           | some l => if l.frames ≤ l.index then completeLane i l x else x
           | none => x) s)
    ∧ (∀ s : Part, Memory.wf s.store.dram = true →
         let t := activateTable s
         (∀ k, k < 53040 → cell t 29 k = cell s 29 (524288 + k))
           ∧ (∀ i a, i < 32 → a < 1048576 → i ≠ 29 ∨ 53040 ≤ a → cell t i a = cell s i a)
           ∧ slot t 29 = { state := .ready, key := none, writer := none, retain := false, showing := 0, rows := List.range 1664 }
           ∧ (∀ i, i ≠ 29 → slot t i = slot s i) ∧ t.wave = { s.wave with replacementPending := false }
           ∧ t = { s with store := { t.store with retained := s.store.retained }, wave := t.wave })
    ∧ (∀ s : Part,
         (s.wave.replacementPending = true →
           startStep s = { s with engine := { s.engine with outcome := .waveformPending } })
           ∧ (s.wave.replacementPending = false →
             let t := startStep s
             let pool := t.engine.release.length
               + ((t.engine.lanes.toList.map fun x => match x with
                   | some l => l.followUps.length
                   | none => 0).sum)
             match t.engine.release ++ t.engine.queue with
             | [] => t.engine.outcome = .empty
             | u :: _ =>
                 (slot t u.source).state = .ready
                   ∧ let met := t.engine.lanes.toList.filterMap fun x => x.bind fun l => (u.rect.meet l.update.rect).map fun r => (l, r)
                     let full := ∃ m, m ∈ met ∧ 4 ≤ m.1.followUps.length
                     let beyond := 32 < pool - (if t.engine.release = [] then 0 else 1) + met.length
                     t.engine.outcome =
                       (if full then .blockedFollowUps else if beyond then .blockedPool else .blockedNoLane)
                     ∧ (¬ full → ¬ beyond → (∀ l, l ∈ t.engine.lanes.toList → l ≠ none)
                         ∧ u.rect.minusAll (met.map fun m => m.2) ≠ [])))
    ∧ (∀ (u : Update) (rest : List Update) (s : Part), s.wave.replacementPending = false →
         s.engine.release ++ s.engine.queue = u :: rest →
         startStep s = match consider (decide (s.engine.release ≠ [])) u s with
           | (x, some cause) => { x with engine := { x.engine with outcome := cause } }
           | (x, none) => startStep x)
    ∧ (∀ (released : Bool) (u : Update) (s : Part),
         let e := s.engine
         let lane : Nat → Option Lane := fun i => e.lanes.toList.getD i none
         let gone : Engine := if released = true then { e with release := e.release.drop 1 } else { e with queue := e.queue.drop 1 }
         let left : Part := { s with engine := gone }
         let met := (List.range 8).filterMap fun i =>
           (lane i).bind fun l => (u.rect.meet l.update.rect).map fun r => (i, l, r)
         let covered : Prop := u.rect.minusAll (met.map fun m => m.2.2) = []
         let full : Prop := ∃ m, m ∈ met ∧ 4 ≤ m.2.1.followUps.length
         let attached := (e.lanes.toList.map fun x => match x with
           | some l => l.followUps.length
           | none => 0).sum
         let beyond : Prop := 32 < e.release.length + attached - (if released = true then 1 else 0) + met.length
         let taken : Prop := ∀ i, i < 8 → lane i ≠ none
         ((slot s u.source).state ≠ .ready → consider released u s =
             ((match u.origin with
               | .port p =>
                   if u.notify = true then
                     raise p .updateDone [u.tag, 1, if released = true then 1 else 0, byteOf u.source, 0xFF, 0xFF] left
                   else left
               | .turn =>
                   raise .A .turnStarved [0, 5, byteOrAbsent s.turn.cursor, byteOf u.source, signedByte s.turn.backlog] left
               | .power => left), none))
           ∧ ((slot s u.source).state = .ready →
             (full → consider released u s = (s, some .blockedFollowUps))
               ∧ (¬ full → beyond → consider released u s = (s, some .blockedPool))
               ∧ (¬ full → ¬ beyond → ¬ covered → taken → consider released u s = (s, some .blockedNoLane))
               ∧ (¬ full → ¬ beyond → covered ∨ ¬ taken →
                 let waits : Update → Bool := fun x =>
                   !(decide (u.origin = .turn) && decide (met ≠ []) && decide (x.origin = .turn) && decide (x.serial ≠ u.serial))
                 ∃ t, consider released u s = (t, none)
                   ∧ t = { s with
                      store := { s.store with slots := t.store.slots }
                      engine := { e with
                        queue := gone.queue.filter waits, release := gone.release.filter waits, lanes := t.engine.lanes } }
                   ∧ (∀ i, i < 8 → t.engine.lanes.toList.getD i none =
                       match lane i with
                       | some l =>
                           let own : List Update := match u.rect.meet l.update.rect with
                             | some r => [{ u with rect := r }]
                             | none => []
                           some { l with followUps := (l.followUps ++ own).filter waits }
                       | none =>
                           if ¬ covered ∧ ∀ j, j < i → lane j ≠ none then some (laneOf released u met s) else none)
                   ∧ (∀ j, slot t j =
                       if ¬ covered ∧ j = u.source then { slot s j with showing := (slot s j).showing + 1 } else slot s j))))

/-! ### Waveforms, temperature and ghosting (chapter 4) -/

/-- R58, R59 and R74: the completion of a lane. Each driven pixel takes its target level in the shown image, every other
pixel keeps its level, the lane's source is released once, its follow-ups join the release list, the lane is IDLE,
UPDATE_DONE is raised on the item's port when its notify flag is set, with its flags, applied mode and frame count, and
nothing else changes. R76 and R77: the tile counts after a lane of an applied mode completes over a rectangle. -/
def Obligations.LaneCompletes : Prop :=
  (∀ (i : Nat) (l : Lane) (s : Part), i < 8 → Memory.wf s.store.dram = true → l.update.source < 32 →
    l.update.rect.xe ≤ 1248 → l.update.rect.ye ≤ 1664 →
    let t := completeLane i l s
    (∀ x y, x < 1248 → y < 1664 →
        shownLevel t x y =
          if (x, y) ∈ drivenPixels l then
            (let old := shownLevel s x y
             let new := level s l.update.source x y
             if l.applied = .quick then
               (if (decide (8 ≤ old)) = (decide (8 ≤ new)) then old else if 8 ≤ new then 15 else 0)
             else new)
          else shownLevel s x y)
      ∧ slot t l.update.source
          = { slot s l.update.source with showing := (slot s l.update.source).showing - 1 }
      ∧ (∀ j, j ≠ l.update.source → slot t j = slot s j)
      ∧ t.engine = { s.engine with
          release := s.engine.release ++ l.followUps, lanes := tableSet s.engine.lanes i none
          tiles := completeTiles l.applied l.update.rect s.engine.tiles }
      ∧ (let bit : Bool → Nat → Byte := fun b k => if b = true then BitVec.ofNat 8 k else 0
         let flags := bit l.followUp 1 + bit l.promoted 2 + bit l.demoted 4 + bit (decide (l.clamp = .cold)) 8
           + bit (decide (l.clamp = .hot)) 16
         let detail := [l.update.tag, 0, flags, BitVec.ofNat 8 l.update.source, BitVec.ofNat 8 (modeCode l.applied),
           BitVec.ofNat 8 l.frames]
         t.ports = match l.update.origin with
           | .port p => if l.update.notify = true then s.ports.set p (raiseIn .updateDone detail (port s p)) else s.ports
           | .turn => s.ports
           | .power => s.ports)
      ∧ t = { s with ports := t.ports, engine := t.engine, store := { t.store with retained := s.store.retained } }
      ∧ (∀ j a, j < 32 → j ≠ 28 → a < 1048576 → cell t j a = cell s j a))
    ∧ (∀ (m : Mode) (q : Rect) (t : Vector Nat 192) (c r : Nat) (hc : c < 12) (hr : r < 16),
    (completeTiles m q t)[12 * r + c] =
      if q.xs / 104 ≤ c ∧ c ≤ (q.xe - 1) / 104 ∧ q.ys / 104 ≤ r ∧ r ≤ (q.ye - 1) / 104 then
        if m = .full ∧ q.xs ≤ 104 * c ∧ 104 * c + 104 ≤ q.xe ∧ q.ys ≤ 104 * r ∧ 104 * r + 104 ≤ q.ye then 0
        else min 15 (t[12 * r + c] + 1)
      else t[12 * r + c])

/-- R51, R56, R72, R75 and R79: the record of a lane that starts: the applied mode from promotion and demotion, the band
and clamp of the reading (with none held, a free value: log entry 33), the frame count that the active table gives, the
item's meetings as its exclusions, frame index 0 and no follow-ups. R52 and R56: the pixels that a lane drives are
those of its rectangle that lie in none of its exclusions. R57 and R73: the drive step. Every pixel that a running lane
drives gets the code of its sequence at the lane's frame index, every other pixel gets NONE, and each running lane's
frame index rises by one (the panel outputs as a list of the codes that are not NONE: log entry 39, the model's reading). -/
def Obligations.LaneStartAndDrive : Prop :=
  (∀ (released : Bool) (u : Update) (ms : List (Nat × Lane × Rect)) (s : Part) (c : Int),
     (s.wave.reading = some c ∨ (s.wave.reading = none ∧ c = Config.unsampledTemperature)) → u.rect.xe ≤ 1248 → u.rect.ye ≤ 1664 → u.rect.xs < u.rect.xe → u.rect.ys < u.rect.ye →
     let ghosted : Prop := ∃ (x y : Nat) (hx : x < 12) (hy : y < 16),
       u.rect.xs / 104 ≤ x ∧ x ≤ (u.rect.xe - 1) / 104 ∧ u.rect.ys / 104 ≤ y ∧ y ≤ (u.rect.ye - 1) / 104
         ∧ s.engine.ghostLimit ≤ s.engine.tiles[12 * y + x]
     let l := laneOf released u ms s
     (l.promoted = true ↔ u.mode ≠ .full ∧ ghosted)
       ∧ (l.demoted = true ↔ (u.mode = .full ∨ ghosted) ∧ s.battery.state = .critical)
       ∧ l.applied = (if l.demoted then .gray else if l.promoted then .full else u.mode)
       ∧ l.band = (if c < 0 then 0 else if 192 ≤ c then 11 else (c / 16).toNat)
       ∧ l.clamp = (if c < 0 then .cold else if 192 ≤ c then .hot else .none)
       ∧ l.frames = (cell s 29 (8 + 4419 * l.band + modeCode l.applied)).toNat
       ∧ l.update = u ∧ l.followUp = released ∧ l.exclusions = ms.map (fun m => m.2.2) ∧ l.index = 0 ∧ l.followUps = [])
    ∧ (∀ (l : Lane) (x y : Nat),
    let inside : Rect → Prop := fun q => q.xs ≤ x ∧ x < q.xe ∧ q.ys ≤ y ∧ y < q.ye
    (x, y) ∈ drivenPixels l ↔ inside l.update.rect ∧ ∀ q, q ∈ l.exclusions → ¬ inside q)
    ∧ (∀ (s : Part) (n : Nat) (c : DriveCode),
    let code : Lane → Nat → Nat → DriveCode := fun l x y =>
      let old := shownLevel s x y
      let new := level s l.update.source x y
      let start := 8 + 4419 * l.band + match l.applied with
        | .full => 3 + 16 * new
        | .gray => 259 + 16 * (16 * old + new)
        | .quick => 4355 + 16 * (2 * (if 8 ≤ old then 1 else 0) + (if 8 ≤ new then 1 else 0))
      let bits := (cell s 29 (start + l.index / 4)).toNat / 4 ^ (l.index % 4) % 4
      let undriven := match l.applied with
        | .full => false
        | .gray => decide (old = new)
        | .quick => decide (decide (8 ≤ old) = decide (8 ≤ new))
      if undriven then .none else if bits = 1 then .darken else if bits = 2 then .lighten else .none
    ((n, c) ∈ (drive s).engine.panel ↔
        c ≠ .none ∧ ∃ l x y, some l ∈ s.engine.lanes.toList ∧ (x, y) ∈ drivenPixels l ∧ n = 1248 * y + x ∧ c = code l x y)
      ∧ (drive s).engine.lanes.toList
          = s.engine.lanes.toList.map fun x => x.map fun l => { l with index := l.index + 1 })

/-! ### The front light and the battery monitor (chapters 5 and 6) -/

/-- R71, R129 and R183: a second tick raises the timebase, the sample age of a held reading and the requests' ages up to
30, and brings each alarm one second nearer; nothing else changes. R71: the 4 s sample of the temperature, taken in
ACTIVE and SETTLING, clamps the sensor's value into -160 to 400 and restarts the sample's age; elsewhere the event leaves
the part as it is (log entry 5: the model's choice). R89: at a ramp tick each channel's applied duty moves toward its
target by the smaller of the step and the distance; nothing else changes. R91: of the 4,096 steps of a PWM period each
output is high in as many as its applied duty. R150: an 8-second tick. Each OPEN record's counter rises by one, and at 3
the record becomes STALLED, raising DOWNLOAD on both ports, in ascending index order where there are several (log entry 49:
the model's choice); no other record and nothing else changes. The ticks of a part that does not run: log entry 9. -/
def Obligations.TicksCount : Prop :=
  (∀ s : State, alive s.part = true →
    let p := s.part.power
    let aged : Option PeerRequest → Option PeerRequest := fun r => match r with
      | some x => some { x with age := if 30 ≤ x.age + 1 then 30 else x.age + 1 }
      | none => none
    let nearer : Option Nat → Option Nat := fun a => match a with
      | some k => some (k - 1)
      | none => none
    exec .secondTick s = .next { s with
     part := { s.part with
      power := { p with timebase := p.timebase + 1, alarms := ⟨nearer p.alarms.a, nearer p.alarms.b⟩ }
      wave := if s.part.wave.reading = none then s.part.wave else { s.part.wave with age := s.part.wave.age + 1 }
      rights := { s.part.rights with requests := ⟨aged s.part.rights.requests.a, aged s.part.rights.requests.b⟩ } } })
    ∧ (∀ s : State,
    let c := s.part.pins.tempSense
    exec .temperatureSample s = .next { s with
     part :=
      if alive s.part = true ∧ (s.part.power.state = .active ∨ s.part.power.state = .settling) then
        { s.part with wave := { s.part.wave with
            reading := some (if c < -160 then -160 else if 400 < c then 400 else c), age := 0 } }
      else s.part })
    ∧ (∀ s : State, alive s.part = true →
    let l := s.part.light
    let moved : Nat → Nat → Nat := fun a t =>
      if a < t then a + min l.step (t - a) else if t < a then a - min l.step (a - t) else a
    exec .rampTick s = .next { s with
     part := { s.part with
      light := { l with warm := moved l.warm l.warmTarget, cool := moved l.cool l.coolTarget } } })
    ∧ (∀ s : Part,
         (s.light.warm ≤ 4095 → ((List.range 4096).filter (ledWarm s)).length = s.light.warm)
           ∧ (s.light.cool ≤ 4095 → ((List.range 4096).filter (ledCool s)).length = s.light.cool))
    ∧ (∀ s : State, alive s.part = true → s.part.power.forcedOff = false →
         (s.part.power.state = .active ∨ s.part.power.state = .settling ∨ s.part.power.state = .hold) →
         ∃ t : State, exec .stallTick s = .next t
           ∧ t = { s with part := { s.part with ports := t.part.ports, spool := t.part.spool } }
           ∧ t.part.spool = { s.part.spool with records := t.part.spool.records }
           ∧ (∀ r, r < 32 → record t.part r =
               let v := record s.part r
               if v.state = .opened then
                 { v with stall := v.stall + 1, state := if 3 ≤ v.stall + 1 then .stalled else .opened }
               else v)
           ∧ (let stalls : Nat → Prop := fun r => (record s.part r).state = .opened ∧ 3 ≤ (record s.part r).stall + 1
             let n := (List.range 32).countP fun r =>
               decide ((record s.part r).state = .opened) && decide (3 ≤ (record s.part r).stall + 1)
             ∀ p,
               let u := port s.part p
               let v := port t.part p
               v = { u with notices := v.notices, sample := v.sample }
                 ∧ v.notices = { u.notices with pending := v.notices.pending }
                 ∧ v.sample = (match u.sample with
                   | none => none
                   | some x => some (if x.kind = some .download then { x with raises := x.raises + n } else x))
                 ∧ (∀ k, k ≠ .download → notice v.notices k = notice u.notices k)
                 ∧ (n = 0 → v = u)
                 ∧ ∀ x, x < 32 → stalls x → (∀ y, x < y → y < 32 → ¬ stalls y) →
                     let old := match notice u.notices .download with
                       | none => 0
                       | some m => m.count
                     notice v.notices .download = some
                       { detail := [BitVec.ofNat 8 x, 0] ++ leWord (record s.part x).title ++ [0xFF, 0xFF]
                         count := min 255 (old + n) }))

/-- R103: the new battery state after a sample, by the mean and the state before; outside OFF a state of CUTOFF is kept.
R88 and R98 to R105, with R123 and R125: a battery sample. It converts and compensates the input, keeps the eight latest
values, settles the state by their mean, and on a change hands the ceiling to the light and, outside OFF, raises BATTERY
on both ports, and with the state unchanged hands nothing on; a change to CUTOFF outside OFF begins forced OFF entry, and
in OFF the charger retry is tried, as a boot trigger with an admission sample of its own (log entry 16: the model's
reading). The flash part of the load is 25 mA during a program or an erase, 0 during none and during a read; during a
move it is one of the two (log entry 4). -/
def Obligations.BatterySampleResult : Prop :=
  (∀ (off : Bool) (m : Nat) (p : BatteryState),
     settledState off m p =
       if off = false ∧ p = .cutoff then .cutoff
       else if m ≤ 3299 then .cutoff
       else if m ≤ 3449 then .critical
       else if m ≤ 3549 then (if p = .critical then .critical else .low)
       else if m ≤ 3649 then (if p = .low ∨ p = .critical then .low else .normal)
       else .normal)
    ∧ (∀ s : State, alive s.part = true →
         ∃ flash : Nat, (flash = 0 ∨ flash = 25)
           ∧ (∀ x, s.part.flash.running = some x →
               match x.operation with
               | .read _ _ => flash = 0
               | .program _ _ _ => flash = 25
               | .erase _ => flash = 25
               | .move _ _ _ => True)
           ∧ (s.part.flash.running = none → flash = 0)
           ∧
           let b := s.part.battery
           let l := s.part.light
           let volts := s.part.pins.batSense.toNat * 5000 / 4096
           let lightLoad := (l.warm + l.cool) * 30 / 4095
           let panel := if ∃ x, x ∈ s.part.engine.lanes.toList ∧ x ≠ none then 45 else 0
           let value := volts + (lightLoad + panel + flash) * b.resistance / 1000
           let window := (b.window ++ [value]).drop (b.window.length + 1 - 8)
           let m := window.sum / window.length
           let new := settledState (decide (s.part.power.state = .off)) m b.state
           let ceiling := match new with
             | .normal => 1000
             | .low => 400
             | .critical => 0
             | .cutoff => 0
           let limited := min (l.brightness * l.brightness / 1000) ceiling
           let warm := (limited * l.warmth + 50) / 100
           let on : Prop := s.part.power.state = .active ∧ s.part.power.offPending = false
           let wt := if on then warm * 4095 / 1000 else 0
           let ct := if on then (limited - warm) * 4095 / 1000 else 0
           let cut : Nat → Nat → Nat := fun a t => if ceiling < l.ceiling ∧ t < a then t else a
           let detail := [byteOf (batteryCode new), byteOf (batteryCode b.state)] ++ le2 m
             ++ [byteOf window.length, byteOf s.part.pins.charger.toNat]
           let sampled : Part := { s.part with
             battery := { b with
               window := window, state := new
               last := some { code := s.part.pins.batSense, volts := volts, light := lightLoad, panel := panel, flash := flash,
                              compensated := value } }
             light := if new = b.state then l else
               { l with ceiling := ceiling, warmTarget := wt, coolTarget := ct, warm := cut l.warm wt, cool := cut l.cool ct }
             ports := if new = b.state ∨ s.part.power.state = .off ∨ s.part.power.forcedOff = true then s.part.ports
               else ⟨raiseIn .battery detail s.part.ports.a, raiseIn .battery detail s.part.ports.b⟩
             fresh := s.part.fresh + 1 }
           exec .batterySample s = .next { s with
            part :=
             if s.part.power.state = .off then
               (if s.part.power.chargerRetry = true ∧ 3450 ≤ m then bootTrigger .charger sampled else sampled)
             else if new = .cutoff ∧ b.state ≠ .cutoff ∧ s.part.power.forcedOff = false then beginForcedOff sampled
             else sampled })

/-- R25: TURN SETTINGS clamps the lookahead into 1 to 8 and takes GRAY and QUICK; any other mode is refused and changes
neither setting. R80: GHOST SET clamps the limit into 1 to 15; GHOST CLEAR sets every tile count to 15. Neither changes
anything else. R84 to R87: LIGHT SET clamps the request, leaves the applied duties, and recomputes the targets: from the
request under the ceiling in ACTIVE with no orderly OFF in progress, and 0 otherwise. R107: BATTERY SETTINGS clamps the
resistance into 0 to 1,000 and changes nothing else. -/
def Obligations.SettingsClamp : Prop :=
  (∀ (tx : Tx) (lookahead mode : Byte) (s : State), takes s.part tx.port = true → tx.extra = 0 →
    permits s.part tx.port 0 = true → s.part.power.offPending = false →
    let l := lookahead.toNat
    exec (.turnSettings tx lookahead mode) s = .next { s with
     part :=
      if mode.toNat = 1 ∨ mode.toNat = 2 then
        { s.part with
          turn := { s.part.turn with
            lookahead := if l = 0 then 1 else if 8 < l then 8 else l
            mode := if mode.toNat = 1 then .gray else .quick }
          ports := answered s.part tx.port { code := .ok } }
      else { s.part with ports := answered s.part tx.port { code := .badParam } } })
    ∧ (∀ (tx : Tx) (limit : Byte) (s : State), takes s.part tx.port = true → tx.extra = 0 → permits s.part tx.port 1 = true →
    s.part.power.offPending = false →
    let e := s.part.engine
    let answer : Engine → State := fun x =>
      { s with part := { s.part with engine := x, ports := answered s.part tx.port { code := .ok } } }
    exec (.ghostSet tx limit) s = .next
        (answer { e with ghostLimit := if limit.toNat = 0 then 1 else if 15 < limit.toNat then 15 else limit.toNat })
      ∧ exec (.ghostClear tx) s = .next (answer { e with tiles := Vector.replicate 192 15 }))
    ∧ (∀ (tx : Tx) (brightness : Half) (warmth : Byte) (step : Half) (s : State), takes s.part tx.port = true → tx.extra = 0 →
    permits s.part tx.port 2 = true → s.part.power.offPending = false →
    let b := if 1000 < brightness.toNat then 1000 else brightness.toNat
    let w := if 100 < warmth.toNat then 100 else warmth.toNat
    let r := if step.toNat = 0 then 1 else if 4095 < step.toNat then 4095 else step.toNat
    let limited := min (b * b / 1000) s.part.light.ceiling
    let warm := (limited * w + 50) / 100
    exec (.lightSet tx brightness warmth step) s = .next { s with
     part := { s.part with
      light := { s.part.light with
        brightness := b, warmth := w, step := r
        warmTarget := if s.part.power.state = .active then warm * 4095 / 1000 else 0
        coolTarget := if s.part.power.state = .active then (limited - warm) * 4095 / 1000 else 0 }
      ports := answered s.part tx.port { code := .ok } } })
    ∧ (∀ (tx : Tx) (r : Half) (s : State), takes s.part tx.port = true → tx.extra = 0 → permits s.part tx.port 3 = true →
    s.part.power.offPending = false →
    exec (.batterySettings tx r) s = .next { s with
     part := { s.part with
      battery := { s.part.battery with resistance := if 1000 < r.toNat then 1000 else r.toNat }
      ports := answered s.part tx.port { code := .ok } } })

/-! ### Power states (chapter 7) -/

/-- R113, with R32, R45 and R87: the actions of SETTLING entry. R36, R85 to R87, R93 and R117: a wake in SETTLING, and in HOLD after
HOLD is left as R116 states; while the off-pending flag is set it is discarded, and in the other states it has no
effect. R112, R117 and R121: SLEEP, WAKE and POWER OFF in ACTIVE and SETTLING, by what R113 and R117 say of the entry
and of the wake. -/
def Obligations.SleepAndWake : Prop :=
  (∀ (forOff : Bool) (s : Part),
    let notTurn : Update → Bool := fun u => decide (u.origin ≠ .turn)
    let e : Engine := { s.engine with
      queue := s.engine.queue.filter notTurn
      release := s.engine.release.filter notTurn
      lanes := tableMap (Option.map fun l => { l with followUps := l.followUps.filter notTurn }) s.engine.lanes }
    let screen : Update :=
      { origin := .power, source := 31, rect := { xs := 0, xe := 1248, ys := 0, ye := 1664 }, mode := .full, tag := 0,
        notify := false, serial := s.engine.nextSerial }
    enterSettling forOff s = { s with
      power := { s.power with state := .settling, asleep := true }
      turn := { s.turn with backlog := 0 }
      light := { s.light with warmTarget := 0, coolTarget := 0 }
      engine :=
        if (s.power.sleepFlag = true ∨ forOff = true) ∧ (slot s 31).state = .ready ∧ (slot s 29).state = .ready then
          { e with
            queue := (e.queue.filter fun u => decide (u.origin ≠ .power)) ++ [screen]
            nextSerial := s.engine.nextSerial + 1 }
        else e })
    ∧ (∀ s : Part,
    let woken : Part → Part := fun x =>
      let limited := min (x.light.brightness * x.light.brightness / 1000) x.light.ceiling
      let warm := (limited * x.light.warmth + 50) / 100
      let y : Part := { x with
        power := { x.power with state := .active, asleep := false }
        light := { x.light with warmTarget := warm * 4095 / 1000, coolTarget := (limited - warm) * 4095 / 1000 } }
      let starved : Byte → Option Nat → Part := fun reason blocked =>
        raise .A .turnStarved [0, reason, byteOrAbsent x.turn.cursor, byteOrAbsent blocked, signedByte x.turn.backlog] y
      if x.power.restoreFlag = false then y
      else
        match entryAt x.turn 0 with
        | none => starved 6 none
        | some k =>
            if (slot x k).state ≠ .ready then starved 6 (some k)
            else if (slot x 29).state ≠ .ready then starved 3 (some k)
            else { y with engine := { y.engine with
              queue := (y.engine.queue.filter fun u => decide (u.origin ≠ .power))
                ++ [{ origin := .power, source := k, rect := { xs := 0, xe := 1248, ys := 0, ye := 1664 }, mode := .full,
                      tag := 0, notify := false, serial := y.engine.nextSerial }]
              nextSerial := y.engine.nextSerial + 1 } }
    wake s =
      if s.power.offPending = true then s
      else
        match s.power.state with
        | .settling => woken s
        | .hold => woken (leaveHold s)
        | .off => s
        | .boot => s
        | .active => s)
    ∧ (∀ (tx : Tx) (s : State), takes s.part tx.port = true → tx.extra = 0 → permits s.part tx.port 3 = true →
    s.part.power.offPending = false →
    let q := inTransaction s.part tx.port
    let active := s.part.power.state = .active
    exec (.sleep tx) s = .next { s with part := settle tx.port { code := .ok } (if active then enterSettling false q else q) }
      ∧ exec (.wake tx) s = .next { s with part := settle tx.port { code := .ok } (wake q) }
      ∧ exec (.powerOff tx) s = .next { s with
         part := settle tx.port { code := .ok }
          (let x := if active then enterSettling true q else q
           { x with
             power := { x.power with offPending := true }
             light := { x.light with warmTarget := 0, coolTarget := 0 } }) })

/-- R116 and R190: a port select by power state. Ignored in OFF, in reset and once forced OFF entry has begun; in BOOT,
ACTIVE and SETTLING it samples the status bytes; in HOLD it samples them before it moves the part to SETTLING (log entry
13: the model's reading), with full refresh and a temperature sample in the same event (log entry 35: the model's
reading), after which the arbiter may begin an operation. A port already selected stays as it is (log entry 5: the model's
choice). R190: the two status bytes, bit by bit, and the values of the result codes. -/
def Obligations.PortSelectByState : Prop :=
  (∀ (p : Port) (s : State),
    let u := port s.part p
    let with_ : PortUnit → Part := fun v => { s.part with ports := s.part.ports.set p v }
    let sampled : Line → PortUnit := fun x =>
      { u with line := x, status0 := statusByte0 s.part p, status1 := statusByte1 s.part p }
    let c := s.part.pins.tempSense
    exec (.portSelect p) s = .next { s with
     part :=
      if u.line ≠ .deselected then s.part
      else if alive s.part = false ∨ s.part.power.forcedOff = true ∨ s.part.power.state = .off then
        with_ { u with line := .ignored }
      else
        match s.part.power.state with
        | .boot => with_ (sampled .boot)
        | .hold =>
            let q := with_ (sampled .hold)
            ringSpace q (arbitrate { q with
              power := { q.power with state := .settling }
              store := { q.store with retained := none }
              wave := { q.wave with reading := some (max (-160) (min c 400)), age := 0 } })
        | _ => with_ (sampled .taken) })
    ∧ (∀ (p : Port) (s : Part),
    let b := statusByte1 s p
    statusByte0 s p = BitVec.ofNat 8 (resultValue (port s p).lastResult)
      ∧ b.getLsbD 0 = attention s p ∧ b.getLsbD 1 = (s.rights.requests.get p).isSome
      ∧ b.getLsbD 2 = (match (port s p).fetch with
        | .ready _ _ _ _ _ unread => unread
        | _ => false)
      ∧ b.toNat / 8 % 8 = (match s.power.state with
        | .off => 0
        | .boot => 1
        | .active => 2
        | .settling => 3
        | .hold => 4)
      ∧ b.getLsbD 6 = (s.rights.requests.get (peer p)).isSome ∧ b.getLsbD 7 = false)
    ∧ ([.ok, .clipped, .absorbed, .referred, .woken, .starting, .aborted, .denied, .busy, .badParam, .badState, .slotOwned,
        .slotBusy, .queueFull, .emptyRegion, .noWaveform, .noRecord, .noSpace, .lowBattery, .notWriter, .outOfOrder, .overrun,
        .ringFull, .short, .worn, .noRequest, .atEnd, .gone, .expired, .peerGone] : List ResultCode).map resultValue
      = List.range 30

/-- R118: the POWER key. A debounced press by power state, its release, and the moments of 2 s and 8 s; at a short release
POWER_KEY is raised before the sleep request, with ACTIVE in its detail (log entry 15: the model's reading). R119: a
debounced change of the cover, by power state and cover flag. While a forced OFF entry waits, `ForcedOffWaits` states
what these events do. -/
def Obligations.PowerKeyAndCover : Prop :=
  (∀ s : State, alive s.part = true → s.part.power.forcedOff = false →
     let d := s.part.debounce
     let q : Bool → Part := fun v => { s.part with debounce := { d with power := { level := v, candidate := none } } }
     let opened : PressStart → Part := fun x =>
       { q true with power := { s.part.power with press := some { start := x, held := 0, long := false } } }
     (d.power.candidate = some true → exec .powerPress s = .next { s with
        part :=
         match s.part.power.state with
         | .off => { q true with power := { s.part.power with bootTiming := true } }
         | .boot => opened .boot
         | .active => opened .active
         | .settling => if s.part.power.offPending = true then opened .offPending else wake (opened .asleep)
         | .hold => wake (opened .asleep) })
       ∧ (d.power.candidate = some false → exec .powerRelease s = .next { s with
          part :=
           let closed : Part := { q false with power := { s.part.power with press := none, bootTiming := false } }
           match s.part.power.press with
           | some r =>
               if r.start = .active ∧ r.long = false then
                 (let x := raise .A .powerKey [0, byteOf (powerCode s.part.power.state)] closed
                  if s.part.power.state = .active then enterSettling false x else x)
               else closed
           | none => closed })
       ∧ (∀ r, s.part.power.press = some r →
           (r.held = 0 → exec .powerHeld2s s = .next { s with
            part :=
             let x : Part := { s.part with power := { s.part.power with press := some { r with held := 2000, long := true } } }
             if s.part.power.state = .active ∧ (r.start = .active ∨ r.start = .asleep) then raise .A .powerKey [1, 2] x
             else x })
           ∧ (r.held = 2000 → exec .powerHeld8s s = .next { s with part := beginForcedOff s.part })))
    ∧ (∀ (closed : Bool) (s : State), alive s.part = true → s.part.power.forcedOff = false →
         s.part.debounce.cover.candidate = some closed →
         let p := s.part.power
         let q : Part := { s.part with debounce := { s.part.debounce with cover := { level := closed, candidate := none } } }
         let noticed : Byte → Part := fun effect => raise .A .cover [if closed then 1 else 0, effect] q
         exec (.coverChange closed) s = .next { s with
          part :=
           match p.state with
           | .off => q
           | .boot => q
           | .active => if p.coverFlag = true ∧ closed = true then enterSettling false (noticed 1) else noticed 0
           | .settling =>
               if p.coverFlag = true ∧ closed = false ∧ p.offPending = false then wake (noticed 2) else noticed 0
           | .hold => if p.coverFlag = true ∧ closed = false then wake (noticed 2) else noticed 0 })

/-- R106 and R125: a boot trigger. Outside OFF it has no effect; in OFF the admission sample is taken, and a mean of
3,450 mV or more enters BOOT, with reason COLD while a cold start is pending. A refused charger trigger arms the retry.
And R118's 1 s timing, CHG_DET's rise and fall, as triggers (none while the part does not run:
log entry 9, the model's reading). -/
def Obligations.BootTriggers : Prop :=
  ∀ s : State,
    let trigger : BootReason → Part → Part := fun reason x =>
      if x.power.state ≠ .off then x
      else
        let y := takeSample x
        if 3450 ≤ y.battery.window.sum / y.battery.window.length then
          { y with
            power := { y.power with
              state := .boot, bootReason := if y.power.coldPending = true then .cold else reason, chargerRetry := false }
            flash := { y.flash with factoryBad := y.flash.identity.factoryBad } }
        else if reason = .charger then { y with power := { y.power with chargerRetry := true } }
        else y
    (∀ reason, bootTrigger reason s.part = trigger reason s.part)
      ∧ (alive s.part = true → s.part.power.bootTiming = true →
          exec .powerHeld1s s = .next { s with
           part :=
            trigger .powerKey { s.part with power := { s.part.power with bootTiming := false } } })
      ∧ (s.part.pins.charger = false →
          exec .chargerRise s = .next { s with
           part :=
            let x : Part := { s.part with pins := { s.part.pins with charger := true } }
            if alive s.part = true ∧ s.part.power.forcedOff = false then trigger .charger x else x })
      ∧ exec .chargerFall s = .next { s with
         part := { s.part with
          pins := { s.part.pins with charger := false }, power := { s.part.power with chargerRetry := false } } }

/-- R120 and R129: POWER POLICY and ALARM SET. The policy's result carries the three flags held before; that they lie in
the value's bytes 0 to 2 is the model's choice (log entry 7). R129: an alarm's expiry, by power state; it becomes off in
every one. -/
def Obligations.PolicyAndAlarms : Prop :=
  (∀ (tx : Tx) (c r z : Byte) (n : Word) (s : State), takes s.part tx.port = true → tx.extra = 0 →
    permits s.part tx.port 3 = true →
    let p := s.part.power
    exec (.powerPolicy tx c r z) s = .next { s with
       part :=
        if c.toNat ≤ 1 ∧ r.toNat ≤ 1 ∧ z.toNat ≤ 1 then
          { s.part with
            power := { p with
              coverFlag := decide (c.toNat = 1), restoreFlag := decide (r.toNat = 1), sleepFlag := decide (z.toNat = 1) }
            ports := answered s.part tx.port
              { code := .ok
                value := BitVec.ofNat 32 (p.coverFlag.toNat + 256 * p.restoreFlag.toNat + 65536 * p.sleepFlag.toNat) } }
        else { s.part with ports := answered s.part tx.port { code := .badParam } } }
      ∧ (p.offPending = false → exec (.alarmSet tx n) s = .next { s with
         part := { s.part with
          power := { p with
            alarms := p.alarms.set tx.port (if n.toNat = 0 then none else some (if 86400 < n.toNat then 86400 else n.toNat)) }
          ports := answered s.part tx.port
            { code := .ok
              value := BitVec.ofNat 32 (match p.alarms.get tx.port with
                | some k => k
                | none => 0) } } }))
    ∧ (∀ (p : Port) (s : State), alive s.part = true → s.part.power.forcedOff = false → s.part.power.alarms.get p = some 0 →
    let q : Part := { s.part with power := { s.part.power with alarms := s.part.power.alarms.set p none } }
    exec (.alarmExpiry p) s = .next { s with
     part :=
      match s.part.power.state with
      | .off => if p = .A then bootTrigger .alarm q else q
      | .boot => { q with power := { q.power with heldAlarms := q.power.heldAlarms.set p (some q.power.timebase) } }
      | _ => raise p .alarm (leWord q.power.timebase) q })

/-- R68, R70 and R166: WAVEFORM LOAD, carried out with SYSTEM held and the peer absent. Refused, it changes nothing
else; taken, the file's copy stands in the incoming place, both flags are set and the rewrite of block 1 is queued,
after which the arbiter may begin it. R130: SLEEP SCREEN STORE, carried out with SYSTEM held and the peer absent: its
checks in their order, the copy into slot 31 and the rewrite queued. What makes a file valid (R66, `tableValid`) is the last
clause of `BootLoads`. -/
def Obligations.SystemImageCommands : Prop :=
  (∀ (tx : Tx) (i : Byte) (s : State), takes s.part tx.port = true → tx.extra = 0 →
    permitsSystem s.part tx.port = true → s.part.power.offPending = false →
    let refused : ResultCode → State := fun c =>
      { s with part := { s.part with ports := answered s.part tx.port { code := c } } }
    let file := (List.range 53040).map fun k => seen s.part i.toNat k
    let q := inTransaction s.part tx.port
    exec (.waveformLoad tx i) s = .next
      (if 28 ≤ i.toNat then refused .badParam
       else if s.part.wave.replacementPending = true ∨ s.part.wave.reprogram = true then refused .busy
       else if (slot s.part i.toNat).state ≠ .ready then refused .badState
       else if tableValid file = false then refused .badParam
       else { s with
         part := settle tx.port { code := .ok } (ringSpace q (arbitrate { q with
          store := { q.store with dram := Memory.writeRun q.store.dram (1048576 * 29 + 524288) file }
          wave := { q.wave with replacementPending := true, reprogram := true }
          flash := { q.flash with system := q.flash.system ++ [{ kind := .waveform, step := 0, image := [] }] } })) }))
    ∧ (∀ (tx : Tx) (i : Byte) (s : State), takes s.part tx.port = true → tx.extra = 0 →
    permitsSystem s.part tx.port = true → s.part.power.offPending = false →
    let refused : ResultCode → State := fun c =>
      { s with part := { s.part with ports := answered s.part tx.port { code := c } } }
    let q := inTransaction s.part tx.port
    exec (.sleepScreenStore tx i) s = .next
      (if 28 ≤ i.toNat then refused .badParam
       else if s.part.power.sleepWrite = true then refused .busy
       else if (slot s.part i.toNat).state ≠ .ready then refused .badState
       else if (slot s.part 31).showing ≠ 0 then refused .slotBusy
       else { s with
         part := settle tx.port { code := .ok } (ringSpace q (arbitrate { q with
          store := { q.store with
            dram := Memory.writeRun q.store.dram (1048576 * 31) ((List.range 1038336).map fun k => seen s.part i.toNat k)
            slots := tableSet q.store.slots 31
              { state := .ready, key := none, writer := none, retain := false, showing := 0, rows := List.range 1664 } }
          power := { q.power with sleepWrite := true }
          flash := { q.flash with system := q.flash.system ++ [{ kind := .sleepScreen, step := 0, image := [] }] } })) }))

/-- R60, R123 and R185: the beginning of forced OFF entry, by POWER held 8 s or by CUTOFF: all the engine's work aborted,
the light out, its request at the defaults (log entry 17: the model's reading), the transactions discarded, their ports'
lines marked ignored (log entry 12: the model's reading), the peer requests discarded and each pending PEER_REQUEST cleared
with its request, the flash queue dropped with its operation running on, the staging ring left with its FILLING entries (log
entry 17: the model's reading), a boot timing that still runs ended with the press record (log entry 48: the model's
choice), and the power state as it was until OFF is entered. Everything else is kept: the fetch buffers and the last
results, the download records, the free, erase-pending, retired and scrub lists, whose requests begin no operation any more
(log entry 17: the model's reading), the array, the ghost limit, the turn state, the battery and the inputs. -/
def Obligations.ForcedOffBegins : Prop :=
  ∀ s : Part,
    let e := s.engine
    let f := s.flash
    let t := beginForcedOff s
    t = { s with
        ports := t.ports
        store := { s.store with slots := t.store.slots }
        engine := { e with queue := [], release := [], lanes := Vector.replicate 8 none, tiles := t.engine.tiles, panel := [] }
        light := { brightness := 0, warmth := 50, step := 32, ceiling := s.light.ceiling, warmTarget := 0, coolTarget := 0,
                   warm := 0, cool := 0 }
        power := { s.power with forcedOff := true, press := none, bootTiming := false }
        rights := { s.rights with requests := ⟨none, none⟩ }
        spool := { s.spool with ring := s.spool.ring.filter fun x => decide (x.state = .filling) }
        flash := { f with
          system := [], recovery := none, scrub := none, running := f.running.map fun x => { x with live := false }
          journal := { f.journal with batch := [], compaction := none } } }
      ∧ (∀ (c r : Nat) (hc : c < 12) (hr : r < 16), t.engine.tiles[12 * r + c] =
          if e.lanes.toList.any (fun x => x.any fun l => touches l.update.rect c r) then 15 else e.tiles[12 * r + c])
      ∧ (∀ i, i < 32 → slot t i = { slot s i with showing := 0 })
      ∧ ∀ p,
        let u := port s p
        port t p = { u with
          line := if u.line = .deselected then .deselected else .ignored
          sample := none
          notices := { u.notices with
            pending := if s.rights.requests.get (peer p) = none then u.notices.pending
              else tableSet u.notices.pending (kindIndex .peerRequest) none } }

/-- R123: while a forced OFF entry waits. Key presses and releases and cover changes settle their debouncers and do nothing
else, the boot triggers are discarded, the 2 s and 8 s moments of no press record arise (log entry 5), an expiry of Port
A's alarm is held until OFF and one of Port B's is discarded, and stall ticks and frame boundaries change nothing. -/
def Obligations.ForcedOffWaits : Prop :=
  ∀ s : State, alive s.part = true → s.part.power.forcedOff = true →
    let d := s.part.debounce
    let settles : Instr → Debouncers → Prop := fun i x => exec i s = .next { s with part := { s.part with debounce := x } }
    let level : Bool → Debouncer := fun v => { level := v, candidate := none }
    let power : Instr → Power → Prop := fun i x => exec i s = .next { s with part := { s.part with power := x } }
    let p := s.part.power
    (∀ k v, (keyOf d k).candidate = some v →
        settles (if v = true then .keyPress k else .keyRelease k)
          (match k with
            | .fwd => { d with fwd := level v }
            | .back => { d with back := level v }
            | .home => { d with home := level v }))
      ∧ (∀ v, d.power.candidate = some v →
          settles (if v = true then .powerPress else .powerRelease) { d with power := level v })
      ∧ (∀ v, d.cover.candidate = some v → settles (.coverChange v) { d with cover := level v })
      ∧ exec .powerHeld2s s = .next s ∧ exec .powerHeld8s s = .next s
      ∧ (p.bootTiming = false → exec .powerHeld1s s = .next s)
      ∧ (s.part.pins.charger = false →
          exec .chargerRise s = .next { s with part := { s.part with pins := { s.part.pins with charger := true } } })
      ∧ (p.alarms.a = some 0 → power (.alarmExpiry .A) { p with alarms := ⟨none, p.alarms.b⟩, alarmForOff := true })
      ∧ (p.alarms.b = some 0 → power (.alarmExpiry .B) { p with alarms := ⟨p.alarms.a, none⟩ })
      ∧ exec .stallTick s = .next s ∧ exec .frameBoundary s = .next s

/-- R122, R123 and R124, with R19, R38, R63, R83, R94, R109, R133, R155, R176 and R178: entry to OFF when it is due, and what it keeps.
It is due when R122's five conditions hold in an orderly OFF, or when a forced one has no operation left to await. Kept are
the array, the identity area, the timebase, Port A's alarm, the battery window and state, the policy flags, the
debouncers and the notice enables (the enables and the master enable: log entry 18, the model's reading). Of each port's
unit and of the flash engine it says everything: a transaction in progress is ignored from then on and its sample is
dropped (the ignored line: log entry 12, the model's reading); the free, erase-pending, retired and scrub lists are empty,
scrub, recovery, operation in progress, system writes, batch and compaction absent, and the fetch turn Port A's (R176); the
spool state READY, the factory-bad set as in the identity area, the journal's other fields and the open sequence counter 0
until BOOT rebuilds them are log entry 19's values (the model's choice; the model's own serials: log entry 36). A boot
timing that still runs ends (log entry 48: the model's choice). An OFF_ENTRY that is not due leaves the part as it is (log entry 5: the model's choice). -/
def Obligations.OffEntryLeaves : Prop :=
  ∀ s : State, alive s.part = true →
    (offDue s.part = true ↔
      let f := s.part.flash
      (s.part.power.state = .settling ∧ s.part.power.offPending = true
          ∧ ((∀ l, l ∈ s.part.engine.lanes.toList → l = none) ∧ s.part.engine.queue = [] ∧ s.part.engine.release = [])
          ∧ (∀ e, e ∈ s.part.spool.ring → e.state ≠ .full ∧ e.state ≠ .programming)
          ∧ (f.journal.batch = [] ∧ f.journal.compaction = none) ∧ f.system = [] ∧ f.running = none)
        ∨ (s.part.power.forcedOff = true ∧ f.running = none))
      ∧ (offDue s.part = false → exec .offEntry s = .next s)
      ∧ (offDue s.part = true → exec .offEntry s = .next { s with
         part :=
          if s.part.power.alarmForOff = true then bootTrigger .alarm (enterOff s.part) else enterOff s.part })
      ∧
      let t : State := { s with part := enterOff s.part }
      t.part.power = { s.part.power with
          state := .off, asleep := false, offPending := false, forcedOff := false, press := none, bootTiming := false
          alarms := ⟨s.part.power.alarms.a, none⟩, heldAlarms := ⟨none, none⟩, alarmForOff := false, sleepWrite := false }
      ∧ (∀ i, i < 32 → slot t.part i
          = { state := .empty, key := none, writer := none, retain := false, showing := 0, rows := [] })
      ∧ t.part.store.dram = [] ∧ t.part.turn = { list := [], cursor := none, backlog := 0, lookahead := 2, mode := .quick }
      ∧ (t.part.engine.queue = [] ∧ t.part.engine.release = [] ∧ (∀ l, l ∈ t.part.engine.lanes.toList → l = none)
          ∧ t.part.engine.tiles = Vector.replicate 192 15 ∧ t.part.engine.ghostLimit = 6 ∧ t.part.engine.outcome = .empty)
      ∧ t.part.wave = { replacementPending := false, reprogram := false, reading := none, age := 0 }
      ∧ t.part.light = { brightness := 0, warmth := 50, step := 32, ceiling := s.part.light.ceiling, warmTarget := 0,
                         coolTarget := 0, warm := 0, cool := 0 }
      ∧ t.part.battery = { s.part.battery with resistance := 200 }
      ∧ t.part.rights = defaultRights
      ∧ (∀ r, r < 32 → record t.part r = freeRecord) ∧ t.part.spool.ring = [] ∧ t.part.spool.pointer = 8
      ∧ t.part.spool.arm = false ∧ t.part.spool.nextSeq = 0
      ∧ (∀ p,
          let u := port s.part p
          port t.part p = { u with
              line := if u.line = .deselected then .deselected else .ignored
              sample := none, lastResult := .ok, lastValue := 0, fetch := .empty
              notices := { u.notices with pending := Vector.replicate 15 none } }
            ∧ ∀ k, notice (port t.part p).notices k = none)
      ∧ t.part.flash = { s.part.flash with
          factoryBad := s.part.flash.identity.factoryBad, free := [], erasePending := [], retired := [], scrubList := []
          spool := .ready, running := none, system := [], recovery := none, scrub := none, fetchTurn := .A
          journal := { active := none, generation := 0, nextPage := 0, batch := [], due := false, compaction := none
                       journaled := { records := Vector.replicate 32 freeJRecord, retired := [], worn := false }
                       nextSerial := 0 } }
      ∧ t.part.flash.nand = s.part.flash.nand ∧ t.part.flash.identity = s.part.flash.identity
      ∧ t.part.pins = s.part.pins ∧ t.part.debounce = s.part.debounce ∧ t.part.supply = s.part.supply

/-- R128 and R158: the reset kinds and the loss of supply. Every block takes its default; the loss of supply and the cold
start set every default (log entry 9: the model's reading); a transaction in progress is marked ignored, and the defaults
are taken again at RESET_N's rise (log entry 12: the model's reading); an operation in progress is abandoned part-way and
leaves its page or its block torn (log entry 23: the model's reading; whether a move had come to its program is a free
value, log entry 4); the reset line's rise and the consent reset take the admission sample; a change of the
reset line or a loss of supply that finds the line or the supply already so sets the pin and nothing else (log entry 5: the
model's choice), while a cold start sets every default whether or not the part was supplied (log entry 9). -/
def Obligations.ResetKinds : Prop :=
  ∀ s : State, ∃ nand : List (Nat × Page),
    (match s.part.flash.running.map Running.operation with
      | none => nand = s.part.flash.nand
      | some (.read _ _) => nand = s.part.flash.nand
      | some (.program b p _) => nand = Nand.put s.part.flash.nand (64 * b + p) .torn
      | some (.erase b) => nand = Nand.tearBlock s.part.flash.nand b
      | some (.move _ d p) => nand = s.part.flash.nand ∨ nand = Nand.put s.part.flash.nand (64 * d + p) .torn)
      ∧
      let line : Port → Line := fun p => if (port s.part p).line = .deselected then .deselected else .ignored
      let cleared : Bool → Bool → Pins → Part := fun cold supply pins =>
        { defaultPart pins nand s.part.flash.identity cold (s.part.fresh + 1) with
          supply := supply
          ports := ⟨{ defaultPort with line := line .A }, { defaultPort with line := line .B }⟩ }
      let admitted : BootReason → Part → Part := fun reason x =>
        let y := takeSample x
        if 3450 ≤ y.battery.window.sum / y.battery.window.length then
          { y with
            power := { y.power with state := .boot, bootReason := reason, chargerRetry := false }
            flash := { y.flash with factoryBad := y.flash.identity.factoryBad } }
        else y
      let low : Bool → Pins := fun v => { s.part.pins with resetLow := v }
      (exec .coldStart s = .next { s with
         part :=
          let x := cleared true true s.part.pins
          if s.part.pins.resetLow = false ∧ s.part.pins.charger = true then bootTrigger .charger x else x })
        ∧ (exec .supplyLoss s = .next { s with
           part :=
            if s.part.supply = true then cleared true false s.part.pins else s.part })
        ∧ (exec .resetLineFall s = .next { s with
           part :=
            if s.part.supply = true ∧ s.part.pins.resetLow = false then
              cleared s.part.power.coldPending true (low true)
            else { s.part with pins := low true } })
        ∧ (exec .resetLineRise s = .next { s with
           part :=
            if s.part.supply = true ∧ s.part.pins.resetLow = true then
              admitted .resetLine (cleared s.part.power.coldPending true (low false))
            else { s.part with pins := low false } })
        ∧ (∀ tx : Tx, takes s.part tx.port = true → tx.extra = 0 → permitsSystem s.part tx.port = true →
            s.part.power.offPending = false → s.part.supply = true →
            exec (.chipReset tx) s = .next { s with
             part :=
              modifyPort tx.port (fun u => { u with line := .deselected, sample := none })
                (admitted .consentReset
                  { cleared s.part.power.coldPending true s.part.pins with
                    ports := (Both.mk { defaultPort with line := line .A } { defaultPort with line := line .B }).set
                      tx.port { defaultPort with line := .ignored } }) })

/-- R126 and R127: the end of the BOOT sequence: the loads in their order, and the entry to ACTIVE with BOOTED the one
notice of each port, but for an alarm that expired in BOOT (R129); a read in progress keeps its sample over the entry, and a
NOTICE READ's counts only the raises of its kind that follow the clearing, where R193 speaks of the raises since the sample
(log entry 13: the model's reading); slots 28 and 30 become READY in this event
(log entry 43: the model's choice); then the arbiter may begin an operation. R5, R15 and R19: what `bootSlots` does: both
slots are READY with every row marked, slot 28 holds level 15 at every pixel, and every other slot and byte stays. -/
def Obligations.BootEndsInActive : Prop :=
  (∀ s : Part,
    let t := bootSlots s
    let full : Slot := { state := .ready, key := none, writer := none, retain := false, showing := 0, rows := List.range 1664 }
    slot t 28 = full ∧ slot t 30 = full ∧ (∀ i, i ≠ 28 → i ≠ 30 → slot t i = slot s i)
      ∧ (∀ a, a < 1048576 → cell t 28 a = 0xFF ∧ seen t 28 a = 0xFF)
      ∧ (∀ i a, i < 32 → a < 1048576 → i ≠ 28 → cell t i a = cell s i a)
      ∧ t = { s with store := { t.store with retained := s.store.retained } })
    ∧ ∀ (ecc : List (Nat × List Sector)) (s : State), alive s.part = true → s.part.power.state = .boot →
    s.part.power.forcedOff = false →
    let b := stepFresh (replayJournal ecc (loadSleepScreen ecc (loadTable ecc (loadRights ecc (bootSlots s.part)))))
    let c := b.pins.tempSense
    let limited := min (b.light.brightness * b.light.brightness / 1000) b.light.ceiling
    let warm := (limited * b.light.warmth + 50) / 100
    let reason : Byte := match b.power.bootReason with
      | .cold => 0
      | .resetLine => 1
      | .consentReset => 2
      | .powerKey => 3
      | .charger => 4
      | .alarm => 5
    let flags := (if b.rights.fromFlash = true then 0 else 1) + (if (slot b 29).state = .ready then 0 else 2)
      + (if (slot b 31).state = .ready then 0 else 4) + (if b.flash.spool = .faulted then 8 else 0)
    let booted : Notice := { detail := [reason, byteOf flags, byteOf (batteryCode b.battery.state), 0xFF, 0xFF, 0xFF, 0xFF, 0xFF],
                             count := 1 }
    let unit : Port → PortUnit := fun p =>
      let pending := tableSet (Vector.replicate 15 none) 0 (some booted)
      { port b p with
        sample := (port b p).sample.map fun x => { x with
          raises := if x.kind = some .booted ∨ (x.kind = some .alarm ∧ (b.power.heldAlarms.get p).isSome = true) then 1 else 0 }
        notices := { enables := 0x7FFF, master := true, pending := match b.power.heldAlarms.get p with
          | none => pending
          | some t => tableSet pending 13 (some { detail := leWord t ++ [0xFF, 0xFF, 0xFF, 0xFF], count := 1 }) } }
    exec (.entryToActive ecc) s = .next { s with
     part := ringSpace b (arbitrate { b with
      power := { b.power with
        state := .active, asleep := false, coverFlag := true, restoreFlag := true, sleepFlag := true, coldPending := false
        chargerRetry := false, heldAlarms := ⟨none, none⟩ }
      wave := { b.wave with reading := some (max (-160) (min c 400)), age := 0 }
      light := { b.light with
        warmTarget := if b.power.offPending = true then 0 else warm * 4095 / 1000
        coolTarget := if b.power.offPending = true then 0 else (limited - warm) * 4095 / 1000 }
      ports := ⟨unit .A, unit .B⟩ }) }

/-- R67, R126, R131, R166 and R179: what BOOT loads. The rights image is taken when its page holds it and it is valid, and
the defaults otherwise. The waveform table is placed in slot 29, READY with 1,664 rows, when no page of it is uncorrectable
and the file is valid, and the slot stays as it was otherwise. Every other slot and byte stays. The sleep screen is placed in slot 31, READY with 1,664 rows, when none of its 254
pages is uncorrectable or erased, and the slot stays as it was otherwise. A partly programmed page makes its image invalid
(log entry 22: the model's reading). R158: a page that was never programmed reads ERASED when at most 8 bits in each sector and in the spare are wrong.
R159: a programmed page gives its data and the largest count of its eight sectors, or UNCORRECTABLE with the data of the
sectors that could be corrected. R65 and R66: what makes a file valid. -/
def Obligations.BootLoads : Prop :=
  ∀ (ecc : List (Nat × List Sector)) (s : Part), Memory.wf s.store.dram = true →
    (let x := bootRead ecc s 0
     let image := x.2
     let at_ : Nat → Rights := fun i => { mask := wordAt image i, caps := byteAt image (i + 4), defer := byteAt image (i + 5) }
     let legal : Rights → Prop := fun r => r.mask.toNat < 2 ^ 28 ∧ r.caps &&& r.defer = 0
     let good : Prop := x.1 ≠ .uncorrectable ∧ x.1 ≠ .erased ∧ byteAt image 0 = 1
       ∧ crc32 (image.take 13) = wordAt image 13 ∧ legal (at_ 1) ∧ legal (at_ 7)
     (good → loadRights ecc s = { s with rights := { s.rights with records := ⟨at_ 1, at_ 7⟩, fromFlash := true } })
       ∧ (¬ good → loadRights ecc s = { s with rights := { s.rights with records := defaultRecords, fromFlash := false } }))
      ∧ (let pages := (List.range 13).map fun k => bootRead ecc s (64 + k)
         let file := (pages.flatMap Prod.snd).take 53040
         let t := loadTable ecc s
         ((∃ x, x ∈ pages ∧ x.1 = .uncorrectable) ∨ tableValid file = false → t = s)
           ∧ ((∀ x, x ∈ pages → x.1 ≠ .uncorrectable) → tableValid file = true →
               slot t 29 = { state := .ready, key := none, writer := none, retain := false, showing := 0, rows := List.range 1664 }
                 ∧ (∀ k, k < 53040 → cell t 29 k = byteAt file k)
                 ∧ (∀ a, 53040 ≤ a → a < 1048576 → cell t 29 a = cell s 29 a)
                 ∧ (∀ i, i ≠ 29 → slot t i = slot s i ∧ (i < 32 → ∀ a, a < 1048576 → cell t i a = cell s i a))
                 ∧ t = { s with store := { t.store with retained := s.store.retained } }))
      ∧ (let pages := (List.range 254).map fun k => bootRead ecc s (128 + k)
         let image := (pages.flatMap Prod.snd).take 1038336
         let t := loadSleepScreen ecc s
         ((∃ x, x ∈ pages ∧ (x.1 = .uncorrectable ∨ x.1 = .erased)) → t = s)
           ∧ ((∀ x, x ∈ pages → x.1 ≠ .uncorrectable ∧ x.1 ≠ .erased) →
               slot t 31 = { state := .ready, key := none, writer := none, retain := false, showing := 0, rows := List.range 1664 }
                 ∧ (∀ k, k < 1038336 → cell t 31 k = byteAt image k)
                 ∧ (∀ a, 1038336 ≤ a → a < 1048576 → cell t 31 a = cell s 31 a)
                 ∧ (∀ i, i ≠ 31 → slot t i = slot s i ∧ (i < 31 → ∀ a, a < 1048576 → cell t i a = cell s i a))
                 ∧ t = { s with store := { t.store with retained := s.store.retained } }))
      ∧ (∀ a, Nand.page s.flash.nand a = some .torn → (bootRead ecc s a).1 = .uncorrectable)
      ∧ (∀ a, Nand.page s.flash.nand a = none →
          ((bootRead ecc s a).1 = .erased ↔ ∀ x, x ∈ (eccOf ecc a).take 9 → ∃ n, n ≤ 8 ∧ x = .corrected n))
      ∧ (∀ a data spare, Nand.page s.flash.nand a = some (.programmed data spare) → data.length = 4096 →
          let x := bootRead ecc s a
          let good : Sector → Prop := fun y => ∃ n, n ≤ 8 ∧ y = .corrected n
          ((∀ y, y ∈ (eccOf ecc a).take 8 → good y) →
              x.2 = data ∧ ∃ k, x.1 = .corrected k ∧ (∀ n, .corrected n ∈ (eccOf ecc a).take 8 → n ≤ k)
                ∧ (k = 0 ∨ .corrected k ∈ (eccOf ecc a).take 8))
            ∧ ((∃ y, y ∈ (eccOf ecc a).take 8 ∧ ¬ good y) →
              x.1 = .uncorrectable ∧ x.2.length = 4096
                ∧ ∀ i, i < 4096 → good ((eccOf ecc a).getD (i / 512) (.corrected 0)) → byteAt x.2 i = byteAt data i))
      ∧ (∀ file : List Byte, tableValid file = true ↔
          file.length = 53040 ∧ file.drop 53036 = leWord (crc32 (file.take 53036))
            ∧ file.take 4 = [1, 0, 12, 64]
            ∧ ∀ k, k < 12 →
              (∀ m, m < 3 → 1 ≤ (byteAt file (8 + 4419 * k + m)).toNat ∧ (byteAt file (8 + 4419 * k + m)).toNat ≤ 64)
                ∧ ∀ i f, i < 276 → f < 64 → (byteAt file (8 + 4419 * k + 3 + 16 * i + f / 4)).toNat / 4 ^ (f % 4) % 4 ≠ 3)

/-- R154, R172 and R173: the journal replay. Which entries of a block are read: those before the first erased entry of each
page, up to a page whose first entry is erased, an entry whose CRC fails, or the end of page 63. Which snapshot is valid,
and that the block with the higher generation is chosen (block 6 of two of one
generation: log entry 31, the model's reading). What each kind of entry does, in the order read: an entry naming
a FREE record, other than OPEN, is passed over, and a block that is factory-bad, in an extent or retired is not placed a
second time. What the spool is afterwards: the records as R154 sets them (the last checkpoint in bytes is the declared
length at most: log entry 32, the model's reading), the open sequence counter one above the highest found, or 0 where no OPEN entry was read (log entry
19: the model's choice), what was replayed as the journaled state (log entry 31), their reservations cut to the
erase-pending list, those of the highest open sequence first (R162), every unused block
pending and not held, the next page or the compaction that is due; and, with no valid snapshot, FAULTED with every record
FREE. -/
def Obligations.JournalReplay : Prop :=
  (∀ (places : Nat → List JRead) (whole : List (List JEntry)) (k : Nat), k ≤ 64 → whole.length = k →
      (∀ (i : Nat) (h : i < whole.length), whole[i] ≠ []
        ∧ ∃ rest, places i = whole[i].map JRead.entry ++ rest ∧ (rest = [] ∨ ∃ more, rest = .erased :: more)) →
      (k < 64 → (∃ more, places k = .erased :: more) → scanPages places 64 0 = (whole.flatten, some k))
        ∧ (k = 64 → scanPages places 64 0 = (whole.flatten, some 64))
        ∧ (k < 64 → ∀ es more, places k = es.map JRead.entry ++ .bad :: more →
            scanPages places 64 0 = (whole.flatten ++ es, none)))
    ∧ (∀ (es : List JEntry) (g : Word), validSnapshot es = some g ↔
        ∃ body n rest, es = .snapBegin g :: body ++ .snapEnd g n :: rest ∧ (∀ m, .snapEnd g m ∉ body) ∧ body.length + 2 = n.toNat)
    ∧ (∀ (bad : List Nat) (r : Replay) (i : Byte), i.toNat < 32 →
        let v := jrecord r i
        let set : JRecord → Replay := fun x => { r with records := tableSet r.records i.toNat x }
        let placed : Nat → Prop := fun b => b ∈ bad ∨ b ∈ r.retired ∨ ∃ j, j < 32 ∧ b ∈ (tableGet r.records j freeJRecord).extent
        let put : List Nat → Nat → Nat → List Nat := fun l k b => if k = l.length then l ++ [b] else l.set k b
        (∀ t w n q m c, applyEntry bad r (.opened i t w n q m c) = set
            { state := .opened, title := t, writer := w, declared := n.toNat, seq := q, extent := [], blocks := m.toNat,
              checkpoint := c, running := c, corrupt := false })
          ∧ (v.state = .free → ∀ e, entryRecord e = some i → (∀ t w n q m c, e ≠ .opened i t w n q m c) →
              (∀ z, e ≠ .freed z) → applyEntry bad r e = r)
          ∧ applyEntry bad r (.freed i) = set freeJRecord
          ∧ (v.state ≠ .free →
            applyEntry bad r (.claimed i) = set { v with state := .claimed }
              ∧ applyEntry bad r (.faulted i) = set { v with state := .fault }
              ∧ (∀ k b c, let up : JRecord → JRecord := fun x =>
                    if x.blocks < k.toNat + 1 then { x with blocks := k.toNat + 1, checkpoint := c } else x
                  (placed b.toNat → applyEntry bad r (.block i k b c) = set (up v))
                    ∧ (¬ placed b.toNat → applyEntry bad r (.block i k b c)
                        = set (up { v with extent := put v.extent k.toNat b.toNat })))
              ∧ (∀ x c, let done : JRecord := { v with state := if x = true then .corrupt else .sealed, corrupt := x, running := c }
                  applyEntry bad r (.sealed i x c none) = set done
                    ∧ ∀ k b, (placed b.toNat → applyEntry bad r (.sealed i x c (some (k, b))) = set done)
                      ∧ (¬ placed b.toNat → applyEntry bad r (.sealed i x c (some (k, b)))
                          = set { done with extent := put v.extent k.toNat b.toNat }))
              ∧ (∀ k o n, (v.extent[k.toNat]? ≠ some o.toNat → applyEntry bad r (.replace i k o n) = r)
                  ∧ (v.extent[k.toNat]? = some o.toNat → ¬ placed n.toNat →
                      applyEntry bad r (.replace i k o n) = set { v with extent := v.extent.set k.toNat n.toNat })
                  ∧ (v.extent[k.toNat]? = some o.toNat → placed n.toNat → applyEntry bad r (.replace i k o n) = r))
              ∧ (∀ f bs, f.toNat = v.extent.length → (bs.map BitVec.toNat).Nodup → (∀ b, b ∈ bs → ¬ placed b.toNat) →
                  applyEntry bad r (.extent i f bs) = set { v with extent := v.extent ++ bs.map BitVec.toNat }))
          ∧ (∀ b, (placed b.toNat → applyEntry bad r (.retire b false) = r)
            ∧ (¬ placed b.toNat → applyEntry bad r (.retire b false) = { r with retired := r.retired ++ [b.toNat] })
            ∧ applyEntry bad r (.retire b true) = { r with worn := true })
          ∧ ∀ g n, applyEntry bad r (.snapBegin g) = r ∧ applyEntry bad r (.snapEnd g n) = r)
    ∧ (∀ (ecc : List (Nat × List Sector)) (s : Part),
        let f := s.flash
        let read : Nat → List JEntry × Option Nat := fun b => scanBlock f.nand s.fresh ecc b
        let valid : Nat → Option Word := fun b => validSnapshot (read b).1
        let t := replayJournal ecc s
        let chosen : Nat → Word → Prop := fun b g => (b = 6 ∨ b = 7) ∧ valid b = some g
          ∧ ∀ h, valid (13 - b) = some h → h < g ∨ (h = g ∧ b = 6)
        (∀ b g, chosen b g →
          let es := (read b).1
          let stop := (read b).2
          let r := es.foldl (applyEntry f.factoryBad) { records := Vector.replicate 32 freeJRecord, retired := [], worn := false }
          let unused : List Nat := ((List.range 1024).filter fun x => decide (8 ≤ x)).filter fun x =>
            decide (x ∉ f.factoryBad) && decide (x ∉ r.retired) && r.records.toList.all fun v => decide (x ∉ v.extent)
          t = { s with spool := t.spool, flash := t.flash }
            ∧ t.spool = { records := t.spool.records, ring := [], pointer := 8, arm := false, nextSeq := t.spool.nextSeq }
            ∧ (∀ q, (∃ i a w n m c, .opened i a w n q m c ∈ es) → (∀ i a w n p m c, .opened i a w n p m c ∈ es → p ≤ q) →
                t.spool.nextSeq = q + 1)
            ∧ ((∀ i a w n q m c, .opened i a w n q m c ∉ es) → t.spool.nextSeq = 0)
            ∧ t.flash = { f with
                free := [], erasePending := unused.map fun x => { block := x, hold := .free }
                retired := r.retired, scrubList := [], spool := if r.worn = true then .worn else .ready
                journal := { f.journal with
                  active := some b, generation := g, nextPage := t.flash.journal.nextPage, batch := []
                  due := t.flash.journal.due, compaction := none, journaled := r } }
            ∧ (∀ k, stop = some k → t.flash.journal.nextPage = k)
            ∧ (t.flash.journal.due = true ↔ stop = none ∨ stop = some 64)
            ∧ (let wanted : Nat → Nat := fun i =>
                let v := tableGet r.records i freeJRecord
                match v.state with
                | .opened => (v.declared + 262143) / 262144 - v.extent.length
                | .stalled => (v.declared + 262143) / 262144 - v.extent.length
                | .sealing => (v.declared + 262143) / 262144 - v.extent.length
                | _ => 0
              let all := ((List.range 32).map wanted).sum
              let pool := t.flash.erasePending.length
              (all ≤ pool → ∀ i, i < 32 → (record t i).reservation = wanted i)
                ∧ ((List.range 32).map fun i => (record t i).reservation).sum = min all pool
                ∧ ∀ i j, i < 32 → j < 32 → (record t i).reservation ≠ wanted i → (record t i).seq < (record t j).seq →
                    (record t j).reservation = 0)
            ∧ ∀ i, i < 32 →
              let v := tableGet r.records i freeJRecord
              let n := min (262144 * v.blocks) v.declared
              let wanted := (v.declared + 262143) / 262144 - v.extent.length
              let kept : Record := { freeRecord with
                title := v.title, writer := v.writer, declared := v.declared, extent := v.extent, seq := v.seq
                checkpoint := v.checkpoint, received := n, programmed := n, durable := n }
              match v.state with
              | .free => record t i = freeRecord
              | .fault => record t i = { kept with state := .fault }
              | .opened | .stalled | .sealing => ∃ m, m ≤ wanted ∧ record t i
                  = { kept with state := .stalled, running := some v.checkpoint, reservation := m, stall := 3 }
              | x => record t i = { kept with
                  state := x, received := v.declared, programmed := v.declared, durable := v.declared
                  running := some v.running, checkpoint := v.running })
          ∧ (valid 6 = none → valid 7 = none →
              t = { s with
                spool := { records := Vector.replicate 32 freeRecord, ring := [], pointer := 8, arm := false, nextSeq := 0 }
                flash := { f with
                  free := [], retired := [], scrubList := [], spool := .faulted
                  erasePending := (((List.range 1024).filter fun x => decide (8 ≤ x)).filter fun x => decide (x ∉ f.factoryBad)).map
                    fun x => { block := x, hold := .free }
                  journal := { f.journal with
                    active := none, generation := t.flash.journal.generation, nextPage := t.flash.journal.nextPage
                    batch := [], due := false, compaction := none, journaled := t.flash.journal.journaled } } }
                ∧ ((∀ g, .snapBegin g ∉ (read 6).1 ++ (read 7).1) → t.flash.journal.generation = 0)
                ∧ ∀ g, .snapBegin g ∈ (read 6).1 ++ (read 7).1 → (∀ h, .snapBegin h ∈ (read 6).1 ++ (read 7).1 → h ≤ g) →
                    t.flash.journal.generation = g))

/-! ### The download spool (chapter 8) -/

/-- R137, R138 and R169: DOWNLOAD OPEN, its checks in their order; taken, the lowest free record is set up, its blocks are
reserved and its OPEN entry joins the batch, after which the arbiter may begin an operation. -/
def Obligations.DownloadOpenResult : Prop :=
  ∀ (tx : Tx) (title declared : Word) (s : State), takes s.part tx.port = true → tx.extra = 0 →
    permits s.part tx.port 4 = true → s.part.power.offPending = false →
    let refused : ResultCode → State := fun c =>
      { s with part := { s.part with ports := answered s.part tx.port { code := c } } }
    let q := inTransaction s.part tx.port
    let n := (declared.toNat + 262143) / 262144
    let reserved := (s.part.spool.records.toList.map fun v => v.reservation).sum
    let seq := s.part.spool.nextSeq
    exec (.downloadOpen tx title declared) s = .next
      (if declared.toNat = 0 ∨ 67108864 < declared.toNat then refused .badParam
       else if s.part.flash.spool = .faulted then refused .badState
       else if s.part.flash.spool = .worn then refused .worn
       else if s.part.battery.state = .critical ∨ s.part.battery.state = .cutoff then refused .lowBattery
       else
         match (List.range 32).find? fun r => decide ((record s.part r).state = .free) with
         | none => refused .noRecord
         | some r =>
             if s.part.flash.free.length + s.part.flash.erasePending.length - reserved < n then refused .noSpace
             else
               let opened : Record :=
                 { state := .opened, title := title, writer := tx.port, declared := declared.toNat, received := 0,
                   programmed := 0, durable := 0, running := some 0, checkpoint := 0, extent := [], reservation := n,
                   stall := 0, damaged := 0, seq := seq, ending := false, expected := 0 }
               let j := q.flash.journal
               let entry : JEntry := .opened (BitVec.ofNat 8 r) title tx.port declared seq 0 0
               { s with
                  part := settle tx.port { code := .ok, value := BitVec.ofNat 32 r } (ringSpace q (arbitrate { q with
                   spool := { q.spool with records := tableSet q.spool.records r opened, nextSeq := seq + 1 }
                   flash := { q.flash with journal := { j with
                     batch := j.batch ++ [{ serial := j.nextSerial, entry := entry, live := true }]
                     nextSerial := j.nextSerial + 1 } } })) })

/-- R139 and R141: the checks of CHUNK WRITE in their order. A refused chunk changes nothing but its port's answer, and
the ring-space arm where it finds the ring full. R139 and R140: an accepted chunk. Its bytes go first into the record's
FILLING entry, the rest into a new entry at the ring's tail; an entry that reaches 4,096 bytes is FULL with the running
CRC at its last byte; the record's length and CRC advance, its stall counter is 0 and it is OPEN. R141: an event that brings an armed ring from 32 or more entries to 31 or fewer raises RING_SPACE on Port B
with the occupancy after it and clears the arm; every other event does neither. R66: the CRC-32 is the
one whose value for the nine characters 123456789 is 0xCBF43926, and a CRC continued over more bytes is the CRC of the
whole run. -/
def Obligations.ChunkWriteResult : Prop :=
  (∀ (p : Port) (r : Byte) (offset : Word) (data : List Byte) (s : State), takes s.part p = true →
     permits s.part p 4 = true → s.part.power.offPending = false →
     let v := record s.part r.toNat
     let answer : ResultCode → Word → Part → Prop := fun c n x =>
       exec (.chunkWrite p r offset data) s
         = .next { s with part := { x with ports := answered s.part p { code := c, value := n } } }
     let room := match s.part.spool.ring.find? fun e => decide (e.record = r.toNat) && decide (e.state = .filling) with
       | some e => 4096 - e.fill
       | none => 0
     if 32 ≤ r.toNat ∨ data = [] ∨ 4096 < data.length then answer .badParam 0 s.part
     else if s.part.flash.spool = .faulted ∨ v.state = .free then answer .badState 0 s.part
     else if v.writer ≠ p then answer .notWriter 0 s.part
     else if (v.state ≠ .opened ∧ v.state ≠ .stalled) ∨ v.ending = true then answer .badState 0 s.part
     else if offset.toNat ≠ v.received then answer .outOfOrder (BitVec.ofNat 32 v.received) s.part
     else if v.declared < v.received + data.length then answer .overrun 0 s.part
     else if room < data.length ∧ 64 ≤ s.part.spool.ring.length then
       answer .ringFull 0 { s.part with spool := { s.part.spool with arm := true } }
     else True)
    ∧ (∀ (p : Port) (r : Byte) (offset : Word) (data : List Byte) (s : State), takes s.part p = true →
    permits s.part p 4 = true → s.part.power.offPending = false →
    r.toNat < 32 → data ≠ [] → data.length ≤ 4096 → s.part.flash.spool ≠ .faulted →
    let v := record s.part r.toNat
    v.writer = p → (v.state = .opened ∨ v.state = .stalled) → v.ending = false → offset.toNat = v.received →
    v.received + data.length ≤ v.declared →
    ∀ crc, v.running = some crc →
    let q := inTransaction s.part p
    let ring := s.part.spool.ring
    let mine : Staged → Prop := fun e => e.record = r.toNat ∧ e.state = .filling
    let entry : Nat → List Byte → Word → Staged := fun page bytes c =>
      { record := r.toNat, page := page, data := bytes, fill := bytes.length
        crcAfter := if bytes.length = 4096 then c else 0
        state := if bytes.length = 4096 then .full else .filling }
    let accepted : List Staged → Prop := fun after =>
      exec (.chunkWrite p r offset data) s = .next { s with
        part := settle p { code := .ok } (ringSpace q (arbitrate { q with spool := { q.spool with
          ring := after
          records := tableSet q.spool.records r.toNat
            { v with
              received := v.received + data.length, running := some (crc32From crc data), stall := 0
              state := .opened } } })) }
    ((∀ e, e ∈ ring → ¬ mine e) → ring.length < 64 →
        accepted (ring ++ [entry (v.received / 4096) data (crc32From crc data)]))
      ∧ ∀ before e after, ring = before ++ e :: after → mine e → e.fill = e.data.length → e.fill < 4096 →
          (∀ x, x ∈ before → ¬ mine x) → (∀ x, x ∈ after → ¬ mine x) →
          let room := 4096 - e.fill
          (data.length ≤ room → accepted (before ++ entry e.page (e.data ++ data) (crc32From crc data) :: after))
            ∧ (room < data.length → ring.length < 64 →
                accepted (before ++ entry e.page (e.data ++ data.take room) (crc32From crc (data.take room)) :: after
                  ++ [entry ((v.received + room) / 4096) (data.drop room) (crc32From crc data)])))
    ∧ (crc32 [0x31, 0x32, 0x33, 0x34, 0x35, 0x36, 0x37, 0x38, 0x39] = 0xCBF43926
    ∧ crc32 [] = 0 ∧ ∀ xs ys : List Byte, crc32From (crc32 xs) ys = crc32 (xs ++ ys))
    ∧ (∀ before s : Part,
    let falls : Prop := s.spool.arm = true ∧ 32 ≤ before.spool.ring.length ∧ s.spool.ring.length ≤ 31
    (falls → ringSpace before s = { s with
        ports := ⟨s.ports.a, raiseIn .ringSpace [BitVec.ofNat 8 s.spool.ring.length] s.ports.b⟩
        spool := { s.spool with arm := false } })
      ∧ (¬ falls → ringSpace before s = s))

/-- R146 and R147: DOWNLOAD SEAL, its checks in their order; taken, the record is SEALING, its FILLING entry is padded and
FULL, and with no entry in the ring the SEAL entry joins the batch at once. R148: DOWNLOAD ABANDON, its checks, and its
completion: at once when no entry of the record is PROGRAMMING, else the ending flag is set and the record keeps its state
while the operation in progress runs on, whichever it is (R164; `FlashOperationEnds` states that its end completes the
abandon of a recovery, and `RecoverySteps` that of a program); with none in progress the record's recovery ends at once. -/
def Obligations.SealAndAbandonResult : Prop :=
  (∀ (tx : Tx) (r : Byte) (expected : Word) (s : State), takes s.part tx.port = true → tx.extra = 0 →
     permits s.part tx.port 4 = true → s.part.power.offPending = false →
     let v := record s.part r.toNat
     let refused : ResultCode → State := fun c =>
       { s with part := { s.part with ports := answered s.part tx.port { code := c } } }
     let q := inTransaction s.part tx.port
     let crc := match v.running with
       | some c => c
       | none => 0
     let sealing : Part := { q with spool := { q.spool with
       records := tableSet q.spool.records r.toNat { v with state := .sealing, expected := expected }
       ring := q.spool.ring.map fun e =>
         if e.record = r.toNat ∧ e.state = .filling then
           { e with data := (e.data ++ List.replicate 4096 0xFF).take 4096, crcAfter := crc, state := .full }
         else e } }
     let pages := (v.received + 4095) / 4096
     let k := v.extent.length - 1
     let last : Option (Half × Half) :=
       if pages % 64 = 0 then none else some (BitVec.ofNat 16 k, BitVec.ofNat 16 (v.extent.getD k 0))
     let j := q.flash.journal
     exec (.downloadSeal tx r expected) s = .next
       (if 32 ≤ r.toNat then refused .badParam
        else if s.part.flash.spool = .faulted ∨ v.state = .free then refused .badState
        else if v.writer ≠ tx.port then refused .notWriter
        else if (v.state ≠ .opened ∧ v.state ≠ .stalled) ∨ v.ending = true then refused .badState
        else if v.received < v.declared then refused .short
        else { s with
         part := settle tx.port { code := .ok } (ringSpace q (arbitrate
          (if ∃ e, e ∈ q.spool.ring ∧ e.record = r.toNat then sealing
           else { sealing with flash := { q.flash with journal := { j with
             batch := j.batch ++
               [{ serial := j.nextSerial, entry := .sealed (BitVec.ofNat 8 r.toNat) (decide (crc ≠ expected)) crc last, live := true }]
             nextSerial := j.nextSerial + 1 } } }))) }))
    ∧ (∀ (tx : Tx) (r : Byte) (s : State), takes s.part tx.port = true → tx.extra = 0 →
         permits s.part tx.port 4 = true → s.part.power.offPending = false →
         let v := record s.part r.toNat
         let refused : ResultCode → State := fun c =>
           { s with part := { s.part with ports := answered s.part tx.port { code := c } } }
         let q := inTransaction s.part tx.port
         let x : Part := { q with spool := { q.spool with
           ring := q.spool.ring.filter fun e => decide (e.record ≠ r.toNat) || decide (e.state = .programming) } }
         let programming : Prop := ∃ e, e ∈ q.spool.ring ∧ e.record = r.toNat ∧ e.state = .programming
         let taken : Part → State := fun y => { s with part := settle tx.port { code := .ok } (ringSpace q (arbitrate y)) }
         let ended : Part := { x with spool := { x.spool with records := tableSet x.spool.records r.toNat { v with ending := true } } }
         if 32 ≤ r.toNat then exec (.downloadAbandon tx r) s = .next (refused .badParam)
         else if s.part.flash.spool = .faulted ∨ v.state = .free then exec (.downloadAbandon tx r) s = .next (refused .badState)
         else if v.writer ≠ tx.port then exec (.downloadAbandon tx r) s = .next (refused .notWriter)
         else if (v.state ≠ .opened ∧ v.state ≠ .stalled ∧ v.state ≠ .fault) ∨ v.ending = true then
           exec (.downloadAbandon tx r) s = .next (refused .badState)
         else
           (¬ programming → exec (.downloadAbandon tx r) s = .next (taken (freeDownload r.toNat x)))
             ∧ (programming → s.part.flash.running ≠ none → exec (.downloadAbandon tx r) s = .next (taken ended))
             ∧ (programming → s.part.flash.running = none → ∀ y, s.part.flash.recovery = some y → y.record = r.toNat →
                 exec (.downloadAbandon tx r) s = .next (taken (endRecovery y ended))))

/-- R149: DOWNLOAD CLAIM and DOWNLOAD RELEASE. R148, R149, R152, R161, R165 and R169: a record becomes FREE by an abandon or
a release. Its STATE entry joins the batch and the entries that wait there for it change no record any more, its extent
blocks join the erase-pending list in order, held by that entry, a fetch waiting on it ends with GONE, the data of its read
in progress to be discarded, and a relocation for it ends with its target pending, unheld and after the record's own blocks
(log entry 27: the model's reading), its head leaving the scrub list and its move in progress changing nothing further;
every other record, and everything else, stays. -/
def Obligations.ClaimReleaseFree : Prop :=
  (∀ (tx : Tx) (r : Byte) (s : State), takes s.part tx.port = true → tx.extra = 0 →
    permits s.part tx.port 6 = true → s.part.power.offPending = false →
    let v := record s.part r.toNat
    let refused : ResultCode → State := fun c =>
      { s with part := { s.part with ports := answered s.part tx.port { code := c } } }
    let q := inTransaction s.part tx.port
    let taken : Part → State := fun y => { s with part := settle tx.port { code := .ok } (ringSpace q (arbitrate y)) }
    let closed : Prop := v.state = .sealed ∨ v.state = .corrupt
    let j := q.flash.journal
    exec (.downloadClaim tx r) s = .next
        (if 32 ≤ r.toNat then refused .badParam
         else if s.part.flash.spool ≠ .faulted ∧ closed then
           taken { q with
             spool := { q.spool with records := tableSet q.spool.records r.toNat { v with state := .claimed } }
             flash := { q.flash with journal := { j with
               batch := j.batch ++ [{ serial := j.nextSerial, entry := .claimed (BitVec.ofNat 8 r.toNat), live := true }]
               nextSerial := j.nextSerial + 1 } } }
         else refused .badState)
      ∧ exec (.downloadRelease tx r) s = .next
        (if 32 ≤ r.toNat then refused .badParam
         else if s.part.flash.spool ≠ .faulted ∧ (closed ∨ v.state = .claimed ∨ v.state = .fault) then
           taken (freeDownload r.toNat q)
         else refused .badState))
    ∧ (∀ (r : Nat) (s : Part), r < 32 →
    let v := record s r
    let j := s.flash.journal
    let t := freeDownload r s
    let waits : Port → Prop := fun p => ∃ o n b, (port s p).fetch = .waiting r o n b
    let scrub : Option Scrub := match s.flash.scrub with
      | some x => if x.record = r then some x else none
      | none => none
    t = { s with
        ports := t.ports
        spool := { s.spool with records := t.spool.records }
        flash := { s.flash with
          journal := { j with
            batch := (j.batch.map fun i =>
                if entryRecord i.entry = some (BitVec.ofNat 8 r) then { i with live := false } else i)
              ++ [{ serial := j.nextSerial, entry := .freed (BitVec.ofNat 8 r), live := true }]
            nextSerial := j.nextSerial + 1 }
          erasePending := s.flash.erasePending ++ (v.extent.map fun b => { block := b, hold := .entry j.nextSerial })
            ++ (match scrub with
              | some x => [{ block := x.target, hold := .free }]
              | none => [])
          scrub := if scrub = none then s.flash.scrub else none
          scrubList := match scrub with
            | some x => s.flash.scrubList.filter fun b => decide (b ≠ x.old)
            | none => s.flash.scrubList
          running := t.flash.running } }
      ∧ record t r = freeRecord ∧ (∀ i, i ≠ r → record t i = record s i)
      ∧ (s.flash.running = none → t.flash.running = none)
      ∧ (∀ o, s.flash.running = some o →
          let ends : Prop := (∃ p, o.job = .fetch p ∧ waits p) ∨ (o.job = .scrub ∧ scrub ≠ none)
          (ends → t.flash.running = some { o with live := false }) ∧ (¬ ends → t.flash.running = some o))
      ∧ (∀ p, (∀ o n b, (port s p).fetch = .waiting r o n b → port t p
            = { raiseIn .fetchReady ([BitVec.ofNat 8 r] ++ le4 o ++ [0, 0, 0xFD]) (port s p) with fetch := .empty })
          ∧ (¬ waits p → port t p = port s p)))

/-- R151 and R152: FETCH, its checks in their order; taken, the port's buffer waits for the bytes asked for, shortened to
the programmed length, and a read in progress for the fetch it replaces will be discarded. FETCH DATA returns the held
bytes of a READY buffer; its sample takes them at the end of its command byte (R188). -/
def Obligations.FetchResults : Prop :=
  ∀ (tx : Tx) (r : Byte) (offset : Word) (length : Half) (s : State), takes s.part tx.port = true → tx.extra = 0 →
    permits s.part tx.port 5 = true →
    let v := record s.part r.toNat
    let o := offset.toNat
    let n := length.toNat
    let refused : ResultCode → State := fun c =>
      { s with part := { s.part with ports := answered s.part tx.port { code := c } } }
    let q := inTransaction s.part tx.port
    let n' := if v.programmed < o + n then v.programmed - o else n
    let readable : Prop := v.state = .opened ∨ v.state = .stalled ∨ v.state = .sealing ∨ v.state = .sealed
      ∨ v.state = .corrupt ∨ v.state = .claimed
    exec (.fetch tx r offset length) s = .next
        (if 32 ≤ r.toNat ∨ n = 0 ∨ 4096 < n ∨ o / 4096 ≠ (o + n - 1) / 4096 then refused .badParam
         else if s.part.flash.spool = .faulted ∨ ¬ readable then refused .badState
         else if v.programmed ≤ o then refused .atEnd
         else { s with
          part := settle tx.port (if n' < n then { code := .clipped, value := BitVec.ofNat 32 n' } else { code := .ok })
            (ringSpace q (arbitrate { q with
              ports := q.ports.set tx.port { port q tx.port with fetch := .waiting r.toNat o n' true }
              flash := { q.flash with running :=
                match q.flash.running with
                | some x => some (if x.job = .fetch tx.port then { x with live := false } else x)
                | none => none } })) })
      ∧ exec (.fetchData ⟨tx.port, .sample⟩) s = .next { s with
          part := sampled .taken s.part tx.port
            (match (port s.part tx.port).fetch with
              | .ready _ _ _ _ data _ => if s.part.flash.spool = .faulted then [] else data
              | _ => []) }
      ∧ exec (.fetchData ⟨tx.port, .deselect⟩) s = .next
        (match (port s.part tx.port).fetch with
          | .ready i a k e data _ =>
              if s.part.flash.spool = .faulted then refused .badState
              else { s with
                part := { s.part with
                  ports := s.part.ports.set tx.port
                    { answeredUnit .taken s.part tx.port { code := .ok, value := BitVec.ofNat 32 k, data := data } with
                      fetch := .ready i a k e data false } } }
          | _ => refused .badState)

/-- R174: SPOOL FORMAT, carried out with SYSTEM held and the peer absent. Every record is FREE, the ring is empty, every
usable spool block is pending for erase and held, a fetch waiting on a record ends with GONE, an armed ring of 32 or more
entries raises RING_SPACE on Port B with occupancy 0 (R141). That the whole erase-pending list becomes the ascending one, the
blocks already on it included, and that the operation in progress runs on with its job dropped, an eraser's among them,
unless it is a system write's or a fetch's that still waits, are log entry 29: the model's reading. And the compaction that writes
the format's snapshot (its generation, the retired list, the WORN mark) is set up; everything else, the flash array
included, is unchanged. -/
def Obligations.SpoolFormatResult : Prop :=
  ∀ (tx : Tx) (s : State), takes s.part tx.port = true → tx.extra = 0 →
    permitsSystem s.part tx.port = true → s.part.power.offPending = false →
    ∃ (t : State) (q : Part), exec (.spoolFormat tx) s = .next t
      ∧ t.part = settle tx.port { code := .ok } (ringSpace (inTransaction s.part tx.port) (arbitrate q))
      ∧ q = { s.part with ports := q.ports, spool := q.spool, flash := q.flash }
      ∧ q.spool = { records := Vector.replicate 32 freeRecord, ring := [], pointer := 8, arm := false,
                    nextSeq := s.part.spool.nextSeq }
      ∧ (let f := s.part.flash
        let g := f.journal.generation + 1
        let body : List JEntry := (f.retired.map fun b => JEntry.retire (BitVec.ofNat 16 b) false)
          ++ (if f.spool = .worn then [.retire (BitVec.ofNat 16 (f.retired.getLastD 0xFFFF)) true] else [])
        let entries : List JEntry := .snapBegin g :: body ++ [.snapEnd g (BitVec.ofNat 16 (body.length + 2))]
        ∃ pages, pages.flatten = entries ∧ (entries.length ≤ 128 → pages = [entries])
          ∧ q.flash = { f with
            spool := if f.spool = .worn then .worn else .ready
            free := []
            erasePending := (((List.range 1024).filter fun b => decide (8 ≤ b)).filter fun b =>
              decide (b ∉ f.factoryBad) && decide (b ∉ f.retired)).map fun b => { block := b, hold := .format }
            scrubList := [], scrub := none, recovery := none, running := q.flash.running
            journal := { f.journal with
              batch := []
              compaction := some { dest := if f.journal.active = some 6 then 7 else 6, generation := g, isErased := false,
                                   pages := pages, page := 0, format := true } } })
      ∧ (let waits : Port → Prop := fun p =>
          ∃ r o n b, (port s.part p).fetch = .waiting r o n b ∧ (record s.part r).state ≠ .free
        (s.part.flash.running = none → q.flash.running = none)
          ∧ (∀ o, s.part.flash.running = some o →
              let stands : Prop := o.job = .system ∨ ∃ p, o.job = .fetch p ∧ ¬ waits p
              (stands → q.flash.running = some o) ∧ (¬ stands → q.flash.running = some { o with live := false }))
          ∧ ∀ p,
            let w := port (inTransaction s.part tx.port) p
            let u := if p = .B ∧ s.part.spool.arm = true ∧ 32 ≤ s.part.spool.ring.length then raiseIn .ringSpace [0] w else w
            (∀ r o n b, u.fetch = .waiting r o n b → (record s.part r).state ≠ .free → port q p
                = { raiseIn .fetchReady ([BitVec.ofNat 8 r] ++ le4 o ++ [0, 0, 0xFD]) u with fetch := .empty })
              ∧ (¬ waits p → port q p = u))

/-! ### The flash engine and the journal (chapter 9) -/

/-- R123, R157, R158, R164: the end of an operation. An event for a kind of operation that is not in progress leaves the part
as it is (log entry 5). Otherwise the engine is idle, the array holds what the operation leaves, with the check bytes of a
program or a move in the page's spare, a failed program or move leaves its page partly programmed and a failed erase
leaves its block so (the torn pages: log entry 23, the model's reading), every other page stays as it was, and the job goes
on: for an operation that ends in a forced OFF entry its result is unreported and nothing else changes; for one whose job
was dropped nothing else changes but that what a read of it tells is noted, whatever R152 discards of its data (log entry 30:
the model's reading of R159; `MaintenanceJobsEnd` states what is noted), and an abandon which waits for it completes (R164;
`RecoverySteps` states how). A program, an erase or a move that has not ended in its time ends as one that fails does, for
its job too: FLASH_OPERATION_TIMEOUT does what the failing end does (R158). What a read gives (R158, R159): its outcome, by
the largest count of its eight sectors, and the bytes of the sectors that could be
corrected; the rest, and what a partly programmed page reads as, are free values (log entries 22 and 24). The check bytes of
a programmed page are 256 and never 0xFF throughout. The identity area and
every block outside the flash engine's reach stay, and then the arbiter may begin an operation (in the same step: log entry
21, the model's reading). -/
def Obligations.FlashOperationEnds : Prop :=
  (∀ (page : Option Page) (fresh a : Nat) (ecc : List Sector),
    let e := readOutcome page fresh a ecc
    let bytes := readBytes page fresh a ecc
    let good : Sector → Prop := fun y => ∃ n, n ≤ 8 ∧ y = .corrected n
    let worst : Nat → Prop := fun k => (∀ n, .corrected n ∈ ecc.take 8 → n ≤ k) ∧ (k = 0 ∨ .corrected k ∈ ecc.take 8)
    ((∃ y, y ∈ ecc.take 8 ∧ ¬ good y) → e = .uncorrectable)
      ∧ ((∀ y, y ∈ ecc.take 8 → good y) →
        (∀ data spare, page = some (.programmed data spare) → ∃ k, e = .corrected k ∧ worst k)
          ∧ (page = none → (good (ecc.getD 8 (.corrected 0)) → e = .erased)
              ∧ (¬ good (ecc.getD 8 (.corrected 0)) → ∃ k, e = .corrected k ∧ worst k))
          ∧ (page = some .torn → e = .erased ∨ ∃ k, e = .corrected k ∧ worst k))
      ∧ bytes.length = 4096
      ∧ ∀ i, i < 4096 → good (ecc.getD (i / 512) (.corrected 0)) →
        (∀ data spare, page = some (.programmed data spare) → byteAt bytes i = byteAt data i)
          ∧ (page = none → byteAt bytes i = 0xFF))
    ∧ (∀ data : List Byte, ∃ spare, programmedPage data = .programmed data spare
      ∧ spare.length = 256 ∧ spare ≠ List.replicate 256 0xFF)
    ∧ ∀ (ecc : List Sector) (ok : Bool) (s : State), alive s.part = true →
    (∀ x, s.part.flash.running = some x →
      let m := s.part.flash.nand
      let after : Bool → List (Nat × Page) := fun good => match x.operation with
        | .read _ _ => m
        | .program b p data => Nand.put m (64 * b + p) (if good = true then programmedPage data else .torn)
        | .erase b => if good = true then Nand.eraseBlock m b else Nand.tearBlock m b
        | .move a b p => Nand.put m (64 * b + p)
            (if good = true then programmedPage (readBytes (Nand.page m (64 * a + p)) s.part.fresh (64 * a + p) ecc) else .torn)
      let leaves : Bool → Nat → Option Page := fun good a =>
        let held := Nand.page m a
        match x.operation with
        | .read _ _ => held
        | .program b p data => if a = 64 * b + p then some (if good = true then programmedPage data else .torn) else held
        | .erase b => if a / 64 = b then (if good = true then none else some .torn) else held
        | .move src b p =>
            if a = 64 * b + p then
              some (if good = true then programmedPage (readBytes (Nand.page m (64 * src + p)) s.part.fresh (64 * src + p) ecc)
                else .torn)
            else held
      let ends : Bool → Instr → Prop := fun good i =>
        ∃ (t : State) (q : Part), exec i s = .next t ∧ t = { s with part := ringSpace s.part (arbitrate q) }
          ∧ t.part.flash.nand = after good ∧ q.flash.nand = after good
          ∧ (∀ a, Nand.page (after good) a = leaves good a)
          ∧ q.flash.running = none
          ∧ q = { s.part with
              ports := q.ports, spool := q.spool, flash := q.flash, fresh := s.part.fresh + 1
              rights := { s.part.rights with writeOutstanding := q.rights.writeOutstanding }
              wave := { s.part.wave with reprogram := q.wave.reprogram }
              power := { s.part.power with sleepWrite := q.power.sleepWrite } }
          ∧ q.flash.identity = s.part.flash.identity ∧ q.flash.factoryBad = s.part.flash.factoryBad
          ∧ (let left : Part := { s.part with
               flash := { s.part.flash with nand := after good, running := none }, fresh := s.part.fresh + 1 }
             (s.part.power.forcedOff = true → q = left)
               ∧ (s.part.power.forcedOff = false → x.live = false →
                   ((∃ b p d, x.operation = .program b p d) ∨ ∃ b, x.operation = .erase b) →
                   q = match s.part.flash.recovery with
                     | some r => if (record s.part r.record).ending = true then endRecovery r left else left
                     | none => left)
               ∧ (s.part.power.forcedOff = false → x.live = false → ∀ b p,
                   (x.operation = .read b p ∨ ∃ d, x.operation = .move b d p) →
                   let noted := noteRead x.reads b p (readOutcome (Nand.page m (64 * b + p)) s.part.fresh (64 * b + p) ecc) left
                   q = match s.part.flash.recovery with
                     | some r => if (record s.part r.record).ending = true then endRecovery r noted else noted
                     | none => noted))
      let stays : Instr → Prop := fun i => exec i s = .next s
      match x.operation with
      | .read _ _ =>
          ends true (.readEnd ecc) ∧ stays (.programEnd ok) ∧ stays (.eraseEnd ok) ∧ stays (.moveEnd ecc ok)
            ∧ stays (.flashOperationTimeout ecc)
      | .program _ _ _ =>
          ends ok (.programEnd ok) ∧ ends false (.flashOperationTimeout ecc)
            ∧ exec (.flashOperationTimeout ecc) s = exec (.programEnd false) s ∧ stays (.readEnd ecc)
            ∧ stays (.eraseEnd ok) ∧ stays (.moveEnd ecc ok)
      | .erase _ =>
          ends ok (.eraseEnd ok) ∧ ends false (.flashOperationTimeout ecc)
            ∧ exec (.flashOperationTimeout ecc) s = exec (.eraseEnd false) s ∧ stays (.readEnd ecc)
            ∧ stays (.programEnd ok) ∧ stays (.moveEnd ecc ok)
      | .move _ _ _ =>
          ends ok (.moveEnd ecc ok) ∧ ends false (.flashOperationTimeout ecc)
            ∧ exec (.flashOperationTimeout ecc) s = exec (.moveEnd ecc false) s ∧ stays (.readEnd ecc)
            ∧ stays (.programEnd ok) ∧ stays (.eraseEnd ok))
      ∧ (s.part.flash.running = none →
          exec (.readEnd ecc) s = .next s ∧ exec (.programEnd ok) s = .next s ∧ exec (.eraseEnd ok) s = .next s
            ∧ exec (.moveEnd ecc ok) s = .next s ∧ exec (.flashOperationTimeout ecc) s = .next s)

/-- R70, R131, R142, R145, R147, R152, R161, R163, R164, R166 and R169: what an ended operation does for a job of these kinds: a fetch, a
staging program, an erase by the eraser, a system write and a journal write (`MaintenanceJobsEnd` and `RecoverySteps`
state the rest). After each, an abandon that waited for the operation completes (R164). A fetch's page read, whatever its report, notes what
R159 says (`noteRead`, which `MaintenanceJobsEnd` states), places the bytes asked for and raises FETCH_READY with the
correction count (0 for ERASED, R158); a staging program raises the
programmed length, releases its entry, queues the BLOCK entry after page 63 and the SEAL entry when it was the last of a
SEALING record, with its outcome, its running CRC and, where the 64th page of the last block is not programmed, that block
(R147), and completes the abandon of a record that is ending (R148); a failed one leaves its page torn (log entry 23: the model's reading) and begins a recovery; the eraser's
block joins the free pool; a system write goes on to its next operation or ends with FLASH DONE, and an erase or a program
of it that fails ends it with FLASH FAILED, naming the operation and its block (R70, R131, R166); a journal page's entries
leave the batch, the next page follows, and they take effect in their order: each becomes part of what replay rebuilds and
ends the hold of the blocks it frees (R161); a written BLOCK raises the durable length, to the declared length at most (log
entry 32: the model's reading), a written SEAL settles its record, its durable length and checkpoint with it (log entry 25:
the model's reading), and raises DOWNLOAD on both ports (R147), and an entry whose record has become FREE changes none. -/
def Obligations.FlashJobsEnd : Prop :=
  (∀ (o : Operation) (j : Job) (rs : Option (Nat × Word)) (s : State), alive s.part = true → s.part.power.forcedOff = false →
    s.part.flash.running = some { operation := o, job := j, live := true, reads := rs } →
    let m := s.part.flash.nand
    let base : List (Nat × Page) → Part := fun n =>
      { s.part with flash := { s.part.flash with nand := n, running := none }, fresh := s.part.fresh + 1 }
    let settled : Part → Part := fun q => match q.flash.recovery with
      | some x => if (record q x.record).ending = true then endRecovery x q else q
      | none => q
    let queued : JEntry → Part → Part := fun e x =>
      let g := x.flash.journal
      { x with flash := { x.flash with journal := { g with
        batch := g.batch ++ [{ serial := g.nextSerial, entry := e, live := true }], nextSerial := g.nextSerial + 1 } } }
    let becomes : Instr → Part → Prop := fun i q => exec i s = .next { s with part := ringSpace s.part (arbitrate (settled q)) }
    (∀ p r offset n b page data spare ecc, o = .read b page → j = .fetch p →
        (port s.part p).fetch = .waiting r offset n false → Nand.page m (64 * b + page) = some (.programmed data spare) →
        data.length = 4096 → (∀ x, x ∈ ecc → ∃ k, k ≤ 5 ∧ x = .corrected k) →
        let k := worstSector ecc
        let detail := [byteOf r] ++ le4 offset ++ le2 n ++ [byteOf k]
        let ready : FetchBuffer := .ready r offset n (.corrected k) ((data.drop (offset % 4096)).take n) true
        becomes (.readEnd ecc)
          { base m with
            ports := s.part.ports.set p { raiseIn .fetchReady detail (port s.part p) with fetch := ready } })
      ∧ (∀ p r offset n b page ecc, o = .read b page → j = .fetch p →
        (port s.part p).fetch = .waiting r offset n false →
        let a := 64 * b + page
        let e := readOutcome (Nand.page m a) s.part.fresh a ecc
        let code : Byte := match e with
          | .corrected k => byteOf k
          | .uncorrectable => 0xFE
          | .erased => 0
        let bytes := ((readBytes (Nand.page m a) s.part.fresh a ecc).drop (offset % 4096)).take n
        let noted := noteRead rs b page e (base m)
        let told := raiseIn .fetchReady ([byteOf r] ++ le4 offset ++ le2 n ++ [code]) (port noted p)
        becomes (.readEnd ecc)
          { noted with ports := noted.ports.set p { told with fetch := .ready r offset n e bytes true } })
      ∧ (∀ r page b k data e, o = .program b k data → j = .staging r page → r < 32 →
          (s.part.spool.ring.find? fun x => decide (x.record = r) && decide (x.page = page)) = some e →
          let v := record s.part r
          let n := Nand.put m (64 * b + k) (programmedPage data)
          let ring := s.part.spool.ring.filter fun x => !(decide (x.record = r) && decide (x.page = page))
          let x := base n
          let programmed : Part := { x with spool := { x.spool with
            ring := ring, records := tableSet x.spool.records r { v with programmed := v.programmed + e.fill } } }
          let entry : JEntry := .block (byteOf r) (BitVec.ofNat 16 (page / 64)) (BitVec.ofNat 16 (v.extent.getD (page / 64) 0)) e.crcAfter
          let placed : Part := if page % 64 = 63 then queued entry programmed else programmed
          let crc := match v.running with
            | some w => w
            | none => 0
          let final := v.extent.length - 1
          let last : Option (Half × Half) :=
            if (v.received + 4095) / 4096 % 64 = 0 then none
            else some (BitVec.ofNat 16 final, BitVec.ofNat 16 (v.extent.getD final 0))
          let done : Part := if v.state = .sealing ∧ (∀ y, y ∈ ring → y.record ≠ r) then
              queued (.sealed (byteOf r) (decide (crc ≠ v.expected)) crc last) placed
            else placed
          (v.ending = false → becomes (.programEnd true) done)
            ∧ (v.ending = true → becomes (.programEnd true) (freeDownload r done)))
      ∧ (∀ r page b k data, o = .program b k data → j = .staging r page → (record s.part r).ending = false →
          s.part.flash.retired.length < 40 → s.part.flash.spool ≠ .worn →
          let x := base (Nand.put m (64 * b + k) .torn)
          let begun : Recovery :=
            { record := r, position := page / 64, failed := b, page := page % 64, target := none, moved := 0 }
          becomes (.programEnd false) { x with flash := { x.flash with recovery := some begun } })
      ∧ (∀ b, o = .erase b → j = .eraser →
          let x := base (Nand.eraseBlock m b)
          becomes (.eraseEnd true)
            { x with flash := { x.flash with
                erasePending := x.flash.erasePending.filter fun e => decide (e.block ≠ b)
                free := insertAscending b x.flash.free } })
      ∧ (∀ job rest, j = .system → s.part.flash.system = job :: rest →
          let last := match job.kind with
            | .rights => 1
            | .waveform => 13
            | .sleepScreen => 257
          let kind : Byte := match job.kind with
            | .rights => 4
            | .waveform => 5
            | .sleepScreen => 6
          let ended : List Byte → Part → Part := fun outcome x =>
            let y : Part := { x with
              flash := { x.flash with system := rest }
              ports := ⟨raiseIn .flash (kind :: outcome) x.ports.a, raiseIn .flash (kind :: outcome) x.ports.b⟩ }
            match job.kind with
            | .rights => { y with rights := { y.rights with writeOutstanding := false } }
            | .waveform => { y with wave := { y.wave with reprogram := false } }
            | .sleepScreen => { y with power := { y.power with sleepWrite := false } }
          let goes : Part → Part := fun x =>
            if job.step < last then { x with flash := { x.flash with system := { job with step := job.step + 1 } :: rest } }
            else ended [0] x
          (∀ b k data, o = .program b k data →
              becomes (.programEnd true) (goes (base (Nand.put m (64 * b + k) (programmedPage data))))
                ∧ becomes (.programEnd false) (ended ([1, 1] ++ le2 b) (base (Nand.put m (64 * b + k) .torn))))
            ∧ ∀ b, o = .erase b →
              becomes (.eraseEnd true) (goes (base (Nand.eraseBlock m b)))
                ∧ becomes (.eraseEnd false) (ended ([1, 0] ++ le2 b) (base (Nand.tearBlock m b))))
      ∧ (∀ b k data count, o = .program b k data → j = .journal count →
          let x := base (Nand.put m (64 * b + k) (programmedPage data))
          let g := x.flash.journal
          let written : Part := { x with flash := { x.flash with journal := { g with
            batch := g.batch.drop count, nextPage := g.nextPage + 1, due := g.due || decide (g.nextPage = 63) } } }
          becomes (.programEnd true) ((s.part.flash.journal.batch.take count).foldl writtenEntry written)))
    ∧ (∀ (i : JItem) (s : Part),
      let t := writtenEntry s i
      let f := s.flash
      let kept : Part := { s with flash := { f with
        erasePending := f.erasePending.map fun e => if e.hold = .entry i.serial then { e with hold := .free } else e
        journal := { f.journal with journaled := applyEntry f.factoryBad f.journal.journaled i.entry } } }
      (∀ r c z l, i.entry = .sealed r c z l → r.toNat < 32 →
          let v := record s r.toNat
          let crc := match v.running with
            | some w => w
            | none => 0
          let detail : List Byte := [r, if c = true then 2 else 1] ++ leWord v.title
          let settled : Record :=
            { v with state := if c = true then .corrupt else .sealed, durable := v.received, checkpoint := crc }
          t = if i.live = true ∧ v.state = .sealing then
              { kept with
                ports := ⟨raiseIn .download detail s.ports.a, raiseIn .download detail s.ports.b⟩
                spool := { s.spool with records := tableSet s.spool.records r.toNat settled } }
            else kept)
        ∧ (∀ r k b z, i.entry = .block r k b z → r.toNat < 32 →
          let v := record s r.toNat
          let length := min (262144 * (k.toNat + 1)) v.declared
          let raised : Record := { v with durable := length, checkpoint := z }
          t = if i.live = true ∧ v.durable < length then
              { kept with spool := { s.spool with records := tableSet s.spool.records r.toNat raised } }
            else kept)
        ∧ (∀ r k old new, i.entry = .replace r k old new →
          (∀ x, f.scrub = some x → x.replace ≠ some i.serial) → t = kept)
        ∧ ((∀ r c z l, i.entry ≠ .sealed r c z l) → (∀ r k b z, i.entry ≠ .block r k b z) →
          (∀ r k old new, i.entry ≠ .replace r k old new) → t = kept))

/-- R143, R159, R161, R162, R165, R169, R170 and R171: what an ended operation does for a job of the remaining kinds but a
recovery's. A compaction goes on to its next page, and its last page makes its block the active one; a failed journal
write or compaction step makes the spool FAULTED; an allocation's erased block is taken for the record's own oldest FULL
entry while that entry needs it, be another record's entry the ring's oldest FULL one by then, and joins the free pool
otherwise; a scrub relocation goes on to its next page, queues its REPLACE after the last, and is given
up after a failure, its moves noting what their reads tell (R159) whatever the report; a scrub target's erased block holds the relocation of the head; a failed erase retires its block, and that of a scrub target leaves the head on the scrub list for the
next attempt (log entry 50: the model's choice). What
a read of a page of a download record notes (R159; READ is raised for a record freed meanwhile too: log entry 30), what a retirement does (R162; with the list full it is reported and
lists nothing: log entry 26, the model's reading), and what a written REPLACE of a scrub does (R165). The torn pages of a failed operation are log entry 23's reading, the extents held
after a journal failure and the targets not held are log entry 27's, the order in which the target and then the extents'
blocks, in ascending index order of their records, join the erase-pending list at a journal failure is log entry 52's (the model's choice), and the check and the taking of an erased block at the
erase's end are log entry 28's. A journal failure with an armed ring of 32 or more entries raises RING_SPACE on Port B with
occupancy 0 (R141). After each operation, an abandon that waited for it completes (R164). -/
def Obligations.MaintenanceJobsEnd : Prop :=
  (∀ (o : Operation) (j : Job) (rs : Option (Nat × Word)) (s : State), alive s.part = true → s.part.power.forcedOff = false →
    s.part.flash.running = some { operation := o, job := j, live := true, reads := rs } →
    let f := s.part.flash
    let m := f.nand
    let base : List (Nat × Page) → Part := fun n =>
      { s.part with flash := { f with nand := n, running := none }, fresh := s.part.fresh + 1 }
    let settled : Part → Part := fun q => match q.flash.recovery with
      | some x => if (record q x.record).ending = true then endRecovery x q else q
      | none => q
    let becomes : Instr → Part → Prop := fun i q => exec i s = .next { s with part := ringSpace s.part (arbitrate (settled q)) }
    let journal : Journal → Part → Part := fun x q => { q with flash := { q.flash with journal := x } }
    (∀ c, j = .compaction → f.journal.compaction = some c →
        (∀ b, o = .erase b → c.isErased = false → c.page < c.pages.length →
            becomes (.eraseEnd true)
              (journal { f.journal with compaction := some { c with isErased := true } } (base (Nand.eraseBlock m b))))
          ∧ ∀ b k data, o = .program b k data → c.isErased = true →
            let n := Nand.put m (64 * b + k) (programmedPage data)
            let written : Journal := { f.journal with
              active := some c.dest, generation := c.generation, nextPage := c.pages.length, due := false
              compaction := none, journaled := replayEntries f.factoryBad c.pages.flatten }
            (c.page + 1 < c.pages.length →
                becomes (.programEnd true)
                  (journal { f.journal with compaction := some { c with page := c.page + 1 } } (base n)))
              ∧ (c.pages.length ≤ c.page + 1 → c.format = false → becomes (.programEnd true) (journal written (base n)))
              ∧ (c.pages.length ≤ c.page + 1 → c.format = true →
                  let q := journal written (base n)
                  becomes (.programEnd true)
                    { q with
                      flash := { q.flash with erasePending := q.flash.erasePending.map fun e =>
                        if e.hold = .format then { e with hold := .free } else e }
                      ports := ⟨raiseIn .flash ([8] ++ leWord c.generation) q.ports.a,
                        raiseIn .flash ([8] ++ leWord c.generation) q.ports.b⟩ }))
      ∧ (∀ (b code : Nat) (i : Instr), (∃ count k data, o = .program b k data ∧ (j = .journal count ∨ j = .compaction)
            ∧ i = .programEnd false ∧ code = 1) ∨ (o = .erase b ∧ j = .compaction ∧ i = .eraseEnd false ∧ code = 0) →
          ∃ q, becomes i q ∧ q = { s.part with
              ports := q.ports, fresh := s.part.fresh + 1
              spool := { records := Vector.replicate 32 freeRecord, ring := [], pointer := s.part.spool.pointer, arm := false
                         nextSeq := s.part.spool.nextSeq }
              flash := { f with
                nand := q.flash.nand, running := none, spool := .faulted, scrubList := [], scrub := none, recovery := none
                journal := { f.journal with batch := [], compaction := none }
                erasePending := f.erasePending
                  ++ ((f.scrub.map Scrub.target).toList ++ (f.recovery.bind Recovery.target).toList).map
                    (fun x => { block := x, hold := .free })
                  ++ (s.part.spool.records.toList.flatMap Record.extent).map fun x => { block := x, hold := .unrecorded } } }
            ∧ ∀ p,
              let u := port s.part p
              notice (port q p).notices .flash = some (raised (notice u.notices .flash) ([7] ++ le2 b ++ [BitVec.ofNat 8 code]))
                ∧ (∀ k, k ≠ .flash → k ≠ .fetchReady → notice (port q p).notices k =
                    if k = .ringSpace ∧ p = .B ∧ s.part.spool.arm = true ∧ 32 ≤ s.part.spool.ring.length then
                      some (raised (notice u.notices .ringSpace) [0])
                    else notice u.notices k)
                ∧ (match u.fetch with
                  | .waiting r a _ _ =>
                      if (record s.part r).state = .free then (port q p).fetch = u.fetch
                      else (port q p).fetch = .empty ∧ notice (port q p).notices .fetchReady
                        = some (raised (notice u.notices .fetchReady) ([BitVec.ofNat 8 r] ++ le4 a ++ [0, 0, 0xFD]))
                  | _ => (port q p).fetch = u.fetch))
      ∧ (∀ r b, o = .erase b → j = .allocation r → r < 32 →
          let x := base (Nand.eraseBlock m b)
          let pooled : Part := { x with flash := { x.flash with
            erasePending := f.erasePending.filter (fun e => decide (e.block ≠ b)), free := insertAscending b f.free } }
          let v := record s.part r
          let needed : Staged → Prop := fun e => e.page % 64 = 0 ∧ v.extent.length ≤ e.page / 64
            ∧ mayDraw r s.part = true ∧ f.recovery = none
          (∀ before e after, s.part.spool.ring = before ++ e :: after → e.record = r → e.state = .full →
              (∀ y, y ∈ before → y.record = r → y.state ≠ .full) →
              (needed e → becomes (.eraseEnd true)
                { x with
                  flash := { x.flash with erasePending := f.erasePending.filter (fun e => decide (e.block ≠ b)) }
                  spool := { x.spool with
                    records := tableSet x.spool.records r { v with extent := v.extent ++ [b], reservation := v.reservation - 1 } } })
                ∧ (¬ needed e → becomes (.eraseEnd true) pooled))
            ∧ ((∀ y, y ∈ s.part.spool.ring → y.record = r → y.state ≠ .full) → becomes (.eraseEnd true) pooled))
      ∧ (∀ b, o = .erase b → ((∃ r, j = .allocation r) ∨ j = .eraser ∨ j = .scrubTarget) →
          becomes (.eraseEnd false) (retire b 1 (base (Nand.tearBlock m b))))
      ∧ (∀ b h, o = .erase b → j = .scrubTarget → f.scrubList.head? = some h →
          let x := base (Nand.eraseBlock m b)
          let rest := f.erasePending.filter fun e => decide (e.block ≠ b)
          (∀ r k, scrubbable h s.part = some (r, k) → totalReservation s.part < poolBlocks s.part →
              becomes (.eraseEnd true) { x with flash := { x.flash with
                erasePending := rest
                scrub := some { record := r, position := k, old := h, target := b, moved := 0, replace := none } } })
            ∧ (scrubbable h s.part = none ∨ poolBlocks s.part ≤ totalReservation s.part →
              becomes (.eraseEnd true) { x with flash := { x.flash with
                erasePending := rest, free := insertAscending b f.free, scrubList := f.scrubList.tail } }))
      ∧ (∀ x src dst p ecc, o = .move src dst p → j = .scrub → f.scrub = some x →
          let a := 64 * src + p
          let noted : Page → Part := fun y =>
            noteRead rs src p (readOutcome (Nand.page m a) s.part.fresh a ecc) (base (Nand.put m (64 * dst + p) y))
          let done := noted (programmedPage (readBytes (Nand.page m a) s.part.fresh a ecc))
          let torn := noted .torn
          let entry : JEntry := .replace (BitVec.ofNat 8 x.record) (BitVec.ofNat 16 x.position) (BitVec.ofNat 16 x.old)
            (BitVec.ofNat 16 x.target)
          let given : Flash → Flash := fun g =>
            { g with scrub := none, scrubList := g.scrubList.filter (fun b => decide (b ≠ x.old)) }
          (x.moved + 1 < 64 →
              becomes (.moveEnd ecc true) { done with flash := { done.flash with scrub := some { x with moved := x.moved + 1 } } })
            ∧ (64 ≤ x.moved + 1 →
              becomes (.moveEnd ecc true) { done with flash := { done.flash with
                scrub := some { x with moved := x.moved + 1, replace := some f.journal.nextSerial }
                journal := { f.journal with
                  batch := f.journal.batch ++ [{ serial := f.journal.nextSerial, entry := entry, live := true }]
                  nextSerial := f.journal.nextSerial + 1 } } })
            ∧ (f.retired.length < 40 →
              becomes (.moveEnd ecc false) (retire x.target 0 { torn with flash := given torn.flash }))
            ∧ (40 ≤ f.retired.length →
              becomes (.moveEnd ecc false) (retire x.target 0 { torn with flash :=
                { given torn.flash with erasePending := f.erasePending ++ [{ block := x.target, hold := .free }] } }))))
    ∧ (∀ (b cause : Nat) (s : Part),
      let t := retire b cause s
      let f := s.flash
      let entry : Bool → JItem := fun worn => { serial := f.journal.nextSerial, entry := .retire (BitVec.ofNat 16 b) worn, live := true }
      let queued : Bool → Journal := fun worn =>
        { f.journal with batch := f.journal.batch ++ [entry worn], nextSerial := f.journal.nextSerial + 1 }
      let told : List Byte → Both PortUnit := fun x => ⟨raiseIn .flash x s.ports.a, raiseIn .flash x s.ports.b⟩
      (40 ≤ f.retired.length → t = { s with
          ports := told ([2] ++ le2 b)
          flash := { f with journal := queued true, spool := if f.spool = .ready then .worn else f.spool } })
        ∧ (f.retired.length < 40 →
          t = { s with
            ports := told ([1] ++ le2 b ++ [BitVec.ofNat 8 cause, BitVec.ofNat 8 (f.retired.length + 1)])
            spool := { s.spool with records := t.spool.records }
            flash := { f with
              journal := queued false, retired := f.retired ++ [b]
              erasePending := f.erasePending.filter fun e => decide (e.block ≠ b)
              free := f.free.filter fun x => decide (x ≠ b) } }
            ∧ (∀ r, r < 32 → ∃ n, n ≤ (record s r).reservation ∧ record t r = { record s r with reservation := n })
            ∧ (totalReservation s ≤ poolBlocks t → t.spool = s.spool)
            ∧ (poolBlocks t < totalReservation s →
                (totalReservation t = poolBlocks t
                  ∨ ∀ r, r < 32 → (record s r).state = .opened ∨ (record s r).state = .stalled ∨ (record s r).state = .sealing →
                      (record t r).reservation = 0)
                ∧ ∀ r, r < 32 → (record t r).reservation ≠ (record s r).reservation →
                    ((record s r).state = .opened ∨ (record s r).state = .stalled ∨ (record s r).state = .sealing)
                      ∧ ∀ i, i < 32 → (record s r).seq < (record s i).seq →
                        (record s i).state = .opened ∨ (record s i).state = .stalled ∨ (record s i).state = .sealing →
                        (record t i).reservation = 0)))
    ∧ (∀ (r : Nat) (seq : Word) (b page : Nat) (e : Ecc) (s : Part), r < 32 →
      (∀ i j, i < 32 → j < 32 → b ∈ (record s i).extent → b ∈ (record s j).extent → i = j) →
      (∀ i, i < 32 → (record s i).extent.Nodup) →
      let f := s.flash
      let inside : Prop := ∃ i, i < 32 ∧ b ∈ (record s i).extent ∧ (record s i).extent.getLast? ≠ some b
      let high : Prop := e = .uncorrectable ∨ ∃ n, e = .corrected n ∧ 6 ≤ n
      let joins : Prop := high ∧ inside ∧ b ∉ f.scrubList ∧ f.scrubList.length < 8
      ∀ x, (joins → x = { s with flash := { f with scrubList := f.scrubList ++ [b] } }) → (¬ joins → x = s) →
        let detail : List Byte := [0, BitVec.ofNat 8 r] ++ le2 b ++ [BitVec.ofNat 8 page]
        let told : Part := { x with ports := ⟨raiseIn .flash detail x.ports.a, raiseIn .flash detail x.ports.b⟩ }
        let v := record s r
        noteRead none b page e s = s
          ∧ (e ≠ .uncorrectable → noteRead (some (r, seq)) b page e s = x)
          ∧ (e = .uncorrectable → v.state ≠ .free → v.seq = seq →
              noteRead (some (r, seq)) b page e s = { told with spool := { s.spool with
                records := tableSet s.spool.records r { v with damaged := if v.damaged < 255 then v.damaged + 1 else 255 } } })
          ∧ (e = .uncorrectable → (v.state = .free ∨ v.seq ≠ seq) → noteRead (some (r, seq)) b page e s = told))
    ∧ (∀ (i : JItem) (x : Scrub) (r : Byte) (k old new : Half) (s : Part), i.entry = .replace r k old new →
      s.flash.scrub = some x → x.replace = some i.serial → x.record < 32 →
      let t := writtenEntry s i
      let held : Bool := decide ((record s x.record).extent[x.position]? = some x.old)
      let rest := s.flash.scrubList.filter fun b => decide (b ≠ x.old)
      let given : ErasePending := { block := if held = true then x.old else x.target, hold := .free }
      let freed : List ErasePending := (s.flash.erasePending ++ [given]).map
        fun e => if e.hold = .entry i.serial then { e with hold := .free } else e
      t.flash = { s.flash with
          scrub := none, scrubList := rest, erasePending := freed, journal := { s.flash.journal with journaled := t.flash.journal.journaled } }
        ∧ (held = true → record t x.record
            = { record s x.record with extent := (record s x.record).extent.set x.position x.target })
        ∧ (∀ j, j ≠ x.record ∨ held = false → record t j = record s j)
        ∧ (∀ p, notice (port t p).notices .flash =
            if held = true then some (raised (notice (port s p).notices .flash)
              ([3, BitVec.ofNat 8 x.record] ++ le2 x.old ++ le2 x.target))
            else notice (port s p).notices .flash)
        ∧ t = { s with ports := t.ports, spool := t.spool, flash := t.flash })

/-- R144, R163 and R164: the steps of a program-failure recovery. What class 4 begins for it: the replacement is allocated,
with a scrub relocation whose REPLACE is not queued given up first, then the pages before the failed one are moved to it,
then the entry is programmed; with no block to be had the record enters FAULT, and while a REPLACE is queued it waits. What
the ends do: a move, whatever its read's report, notes what that read tells (R159) and goes on to the next page; the final program puts the replacement at the position, queues REPLACE,
retires the failed block and completes the entry; a failure retires the replacement and begins again, or, with the retired
list full, leaves the record in FAULT; with the ending flag set the recovery ends, the failed block retired or, with the
list full, left in the extent, and the abandon completes (`ClaimReleaseFree` states how a record becomes FREE, and
`MaintenanceJobsEnd` what a retirement does). A staging program that fails with the retired list full or the
spool WORN begins none. What entering FAULT does (R144), and how a programmed entry completes (R142, R145, R147): it leaves
the ring, the programmed length rises by its fill, a BLOCK entry follows for the 64th page, and the SEAL entry when it was
the last of a SEALING record. The torn pages of a failed operation are log entry 23's reading, a
failed block that a full list leaves unheld is log entry 27's, and an erased replacement taken or pooled at the erase's end
is log entry 28's. -/
def Obligations.RecoverySteps : Prop :=
  (∀ (x : Recovery) (s : Part), s.flash.recovery = some x →
    let f := s.flash
    let begun : Option (Nat × Word) → Operation → Part → Part := fun rs o t =>
      { t with flash := { t.flash with running := some { operation := o, job := .recovery, live := true, reads := rs } } }
    let first : Nat → Part → Part := fun y t =>
      let u : Part := { t with flash := { t.flash with recovery := some { x with target := some y } } }
      if x.moved < x.page then begun (some (x.record, (record t x.record).seq)) (.move x.failed y x.moved) u
      else
        match stagedEntry x.record (64 * x.position + x.page) t with
        | some e => begun none (.program y x.page e.data) u
        | none => u
    let queued : Prop := ∃ z n, f.scrub = some z ∧ z.replace = some n
    let cleared : Part := match f.scrub with
      | none => s
      | some z => { s with flash := { f with
          scrub := none, erasePending := f.erasePending ++ [{ block := z.target, hold := .free }] } }
    (∀ y, x.target = some y → serveSpool s = (first y s, false))
      ∧ (x.target = none → queued → serveSpool s = (s, false))
      ∧ (x.target = none → ¬ queued → x.record < 32 →
        let g := cleared.flash
        let v := record s x.record
        let found : Option Nat := match g.free.find? fun b => decide (s.spool.pointer ≤ b) with
          | some b => some b
          | none => g.free.head?
        let draws : Prop := 0 < v.reservation ∨ totalReservation cleared < poolBlocks cleared
        (∀ b, draws → found = some b → serveSpool s = (first b { cleared with
            spool := { s.spool with
              pointer := if b = 1023 then 8 else b + 1
              records := tableSet s.spool.records x.record { v with reservation := v.reservation - 1 } }
            flash := { g with free := g.free.filter fun y => decide (y ≠ b) } }, false))
          ∧ (draws → found = none → g.spool ≠ .worn →
            (∀ before e after, g.erasePending = before ++ e :: after → e.hold = .free → (∀ y, y ∈ before → y.hold ≠ .free) →
                serveSpool s = ({ cleared with flash := { g with
                  running := some { operation := .erase e.block, job := .replacement, live := true, reads := none } } }, false))
              ∧ (g.erasePending ≠ [] → (∀ y, y ∈ g.erasePending → y.hold ≠ .free) → serveSpool s = (cleared, false)))
          ∧ (¬ draws ∨ (found = none ∧ (g.spool = .worn ∨ g.erasePending = [])) →
              serveSpool s = (failRecovery x cleared, true))))
    ∧ (∀ (r page : Nat) (b k : Nat) (data : List Byte) (rs : Option (Nat × Word)) (s : State), alive s.part = true →
      s.part.power.forcedOff = false →
      s.part.flash.running = some { operation := .program b k data, job := .staging r page, live := true, reads := rs } →
      let m := Nand.put s.part.flash.nand (64 * b + k) .torn
      let q : Part := { s.part with flash := { s.part.flash with nand := m, running := none }, fresh := s.part.fresh + 1 }
      let x : Recovery := { record := r, position := page / 64, failed := b, page := page % 64, target := none, moved := 0 }
      let becomes : Part → Prop := fun y => exec (.programEnd false) s = .next { s with part := ringSpace s.part (arbitrate y) }
      ((record s.part r).ending = true → becomes (endRecovery x q))
        ∧ ((record s.part r).ending = false → 40 ≤ s.part.flash.retired.length → becomes (failRecovery x (retire b 0 q)))
        ∧ ((record s.part r).ending = false → s.part.flash.retired.length < 40 → s.part.flash.spool = .worn →
            becomes (failRecovery x q)))
    ∧ (∀ (x : Recovery) (y : Nat) (o : Operation) (rs : Option (Nat × Word)) (s : State), alive s.part = true →
      s.part.power.forcedOff = false → s.part.flash.recovery = some x → x.target = some y → x.record < 32 →
      s.part.flash.running = some { operation := o, job := .recovery, live := true, reads := rs } →
      let f := s.part.flash
      let base : List (Nat × Page) → Part := fun n =>
        { s.part with flash := { f with nand := n, running := none }, fresh := s.part.fresh + 1 }
      let becomes : Instr → Part → Prop := fun i q => exec i s = .next { s with part := ringSpace s.part (arbitrate q) }
      let v := record s.part x.record
      let failed : Part → Part := fun q =>
        if f.retired.length < 40 then
          retire y 0 { q with flash := { q.flash with recovery := some { x with target := none, moved := 0 } } }
        else retire y 0 { q with flash := { q.flash with erasePending := f.erasePending ++ [{ block := y, hold := .free }] } }
      let after : Part → Part := fun q =>
        if v.ending = true then endRecovery { x with target := none } q
        else if f.retired.length < 40 then q
        else failRecovery x q
      (∀ src dst p ecc, o = .move src dst p →
          let a := 64 * src + p
          let noted : Page → Part := fun z =>
            noteRead rs src p (readOutcome (Nand.page f.nand a) s.part.fresh a ecc) (base (Nand.put f.nand (64 * dst + p) z))
          let moved := noted (programmedPage (readBytes (Nand.page f.nand a) s.part.fresh a ecc))
          (v.ending = false → becomes (.moveEnd ecc true)
              { moved with flash := { moved.flash with recovery := some { x with moved := x.moved + 1 } } })
            ∧ (v.ending = true → becomes (.moveEnd ecc true) (endRecovery x moved))
            ∧ becomes (.moveEnd ecc false) (after (failed (noted .torn))))
        ∧ ∀ b k data, o = .program b k data →
          let q := base (Nand.put f.nand (64 * b + k) (programmedPage data))
          let entry : JEntry := .replace (BitVec.ofNat 8 x.record) (BitVec.ofNat 16 x.position) (BitVec.ofNat 16 x.failed)
            (BitVec.ofNat 16 y)
          let placed : Part := { q with
            spool := { q.spool with records := tableSet q.spool.records x.record { v with extent := v.extent.set x.position y } }
            flash := { q.flash with
              recovery := none
              erasePending := if f.retired.length < 40 then f.erasePending
                else f.erasePending ++ [{ block := x.failed, hold := .free }]
              journal := { f.journal with
                batch := f.journal.batch ++ [{ serial := f.journal.nextSerial, entry := entry, live := true }]
                nextSerial := f.journal.nextSerial + 1 } } }
          (v.ending = false → becomes (.programEnd true)
              (stagingDone x.record (64 * x.position + x.page) (retire x.failed 0 placed)))
            ∧ (v.ending = true → becomes (.programEnd true) (endRecovery x q))
            ∧ becomes (.programEnd false) (after (failed (base (Nand.put f.nand (64 * b + k) .torn)))))
    ∧ (∀ (x : Recovery) (b : Nat) (rs : Option (Nat × Word)) (s : State), alive s.part = true →
      s.part.power.forcedOff = false → s.part.flash.recovery = some x → x.target = none → x.record < 32 →
      s.part.flash.running = some { operation := .erase b, job := .replacement, live := true, reads := rs } →
      let f := s.part.flash
      let base : List (Nat × Page) → Part := fun n =>
        { s.part with flash := { f with nand := n, running := none }, fresh := s.part.fresh + 1 }
      let becomes : Instr → Part → Prop := fun i q => exec i s = .next { s with part := ringSpace s.part (arbitrate q) }
      let v := record s.part x.record
      let rest := f.erasePending.filter fun e => decide (e.block ≠ b)
      let good := base (Nand.eraseBlock f.nand b)
      let pooled : Part := { good with flash := { good.flash with erasePending := rest, free := insertAscending b f.free } }
      let bad := retire b 1 (base (Nand.tearBlock f.nand b))
      (v.ending = true → becomes (.eraseEnd true) (endRecovery x pooled) ∧ becomes (.eraseEnd false) (endRecovery x bad))
        ∧ (v.ending = false →
          (mayDraw x.record s.part = true → becomes (.eraseEnd true) { good with
              spool := { good.spool with records := tableSet good.spool.records x.record { v with reservation := v.reservation - 1 } }
              flash := { good.flash with erasePending := rest, recovery := some { x with target := some b } } })
            ∧ (mayDraw x.record s.part = false → becomes (.eraseEnd true) pooled)
            ∧ becomes (.eraseEnd false) bad))
    ∧ (∀ (x : Recovery) (s : Part), x.record < 32 →
      let f := s.flash
      let v := record s x.record
      let page := 64 * x.position + x.page
      let dropped : Part := { s with
        spool := { s.spool with
          ring := s.spool.ring.filter fun e => !(decide (e.record = x.record) && decide (e.page = page))
          records := if f.retired.length < 40 then
              tableSet s.spool.records x.record { v with extent := v.extent.eraseIdx x.position }
            else s.spool.records }
        flash := { f with recovery := none, erasePending := f.erasePending ++ x.target.toList.map fun b => { block := b, hold := .free } } }
      endRecovery x s = freeDownload x.record (retire x.failed 0 dropped))
    ∧ (∀ (x : Recovery) (s : Part), x.record < 32 →
      let v := record s x.record
      let page := 64 * x.position + x.page
      let t := failRecovery x s
      let j := s.flash.journal
      let detail : List Byte := [BitVec.ofNat 8 x.record, 3] ++ leWord v.title
      t = { s with
        ports := ⟨raiseIn .download detail s.ports.a, raiseIn .download detail s.ports.b⟩
        spool := { s.spool with
          ring := t.spool.ring
          records := tableSet s.spool.records x.record
            { v with state := .fault, received := v.programmed, reservation := 0, running := none } }
        flash := { s.flash with
          recovery := none
          journal := { j with
            batch := j.batch ++ [{ serial := j.nextSerial, entry := .faulted (BitVec.ofNat 8 x.record), live := true }]
            nextSerial := j.nextSerial + 1 } } }
        ∧ t.spool.ring = s.spool.ring.filter fun e =>
            decide (e.record ≠ x.record) || (decide (e.state = .programming) && decide (e.page ≠ page)))
    ∧ (∀ (r page : Nat) (s : Part), r < 32 →
      let v := record s r
      let found := s.spool.ring.find? fun e => decide (e.record = r) && decide (e.page = page)
      let ring := s.spool.ring.filter fun e => !(decide (e.record = r) && decide (e.page = page))
      let queued : JEntry → Part → Part := fun e x =>
        let g := x.flash.journal
        { x with flash := { x.flash with journal := { g with
          batch := g.batch ++ [{ serial := g.nextSerial, entry := e, live := true }], nextSerial := g.nextSerial + 1 } } }
      let crc := match v.running with
        | some w => w
        | none => 0
      let final := v.extent.length - 1
      let last : Option (Half × Half) :=
        if (v.received + 4095) / 4096 % 64 = 0 then none
        else some (BitVec.ofNat 16 final, BitVec.ofNat 16 (v.extent.getD final 0))
      (found = none → stagingDone r page s = s)
        ∧ ∀ e, found = some e →
          let programmed : Part := { s with spool := { s.spool with
            ring := ring, records := tableSet s.spool.records r { v with programmed := v.programmed + e.fill } } }
          let k := page / 64
          let placed : Part := if page % 64 = 63 then
              queued (.block (BitVec.ofNat 8 r) (BitVec.ofNat 16 k) (BitVec.ofNat 16 (v.extent.getD k 0)) e.crcAfter) programmed
            else programmed
          stagingDone r page s = if v.state = .sealing ∧ (∀ y, y ∈ ring → y.record ≠ r) then
              queued (.sealed (BitVec.ofNat 8 r) (decide (crc ≠ v.expected)) crc last) placed
            else placed)

/-- R160: the arbiter. Nothing begins while an operation is in progress, outside ACTIVE and SETTLING, or once forced OFF
entry has begun. Otherwise the lowest-numbered class that holds a request begins its next operation. A read served for the
port that the fetch turn does not name passes the turn to that port's peer (log entry 30: the model's reading), and a
fetch reads the block that the extent list names when its read begins (log entry 34: the model's reading). R170: a due
compaction begins with the erase of the other block, its snapshot cut into pages of 128 entries. R143: a FULL entry whose
position has no block is given one: the first free one from the pointer on, or the oldest unheld pending one, erased; it
waits while all are held, and with none to be had its record enters FAULT. R165: the scrubber takes a target for the head of
its list, erases one, or removes the head. With a recovery standing, class 4 begins what `serveSpool` begins for it
(`RecoverySteps` states that); while the recovery waits, a relocation in hand or the eraser goes on, and when it ends in
FAULT the choice is made again. And the operations of the system writes (R70, R131, R166). -/
def Obligations.ArbiterOrder : Prop :=
  (∀ s : Part,
    let runs : Prop := alive s = true ∧ s.power.forcedOff = false ∧ (s.power.state = .active ∨ s.power.state = .settling)
    let f := s.flash
    let j := f.journal
    let begunFor : Option (Nat × Word) → Operation → Job → Part → Part := fun rs o k x =>
      { x with flash := { x.flash with running := some { operation := o, job := k, live := true, reads := rs } } }
    let begun : Operation → Job → Part → Part := begunFor none
    let reading : Port → Nat → Nat → Nat → Part := fun p r o n =>
      begunFor (some (r, (record s r).seq)) (.read ((record s r).extent.getD (o / 262144) 0) (o / 4096 % 64)) (.fetch p)
        { s with
          ports := s.ports.set p { port s p with fetch := .waiting r o n false }, flash := { f with fetchTurn := peer p } }
    let found : Option Nat := match f.free.find? fun b => decide (s.spool.pointer ≤ b) with
      | some b => some b
      | none => f.free.head?
    let after : Nat → Nat := fun b => if b = 1023 then 8 else b + 1
    let pool := f.free.length + f.erasePending.length
    let reserved := (s.spool.records.toList.map fun v => v.reservation).sum
    let oldest : ErasePending → Prop := fun e => ∃ before rest, f.erasePending = before ++ e :: rest ∧ e.hold = .free
      ∧ ∀ x, x ∈ before → x.hold ≠ .free
    let none_ : Prop := f.spool = .worn ∨ f.erasePending = []
    let held : Prop := f.spool ≠ .worn ∧ f.erasePending ≠ [] ∧ ∀ x, x ∈ f.erasePending → x.hold ≠ .free
    let programming : Staged → List Staged := fun e => s.spool.ring.map fun x =>
      if x.record = e.record ∧ x.page = e.page then { x with state := .programming } else x
    let wants : Port → Prop := fun p => ∃ r o n, (port s p).fetch = .waiting r o n true
    ((¬ runs ∨ f.running ≠ none) → arbitrate s = s)
      ∧ (runs → f.running = none →
        (∀ c, j.compaction = some c → arbitrate s
            = begun (if c.isErased = true then .program c.dest c.page (journalPage (c.pages.getD c.page [])) else .erase c.dest)
                .compaction s)
          ∧ (j.compaction = none → j.batch ≠ [] → ∀ b, j.active = some b → j.due = false →
              arbitrate s = begun (.program b j.nextPage (journalPage ((j.batch.take 128).map JItem.entry)))
                (.journal (min 128 j.batch.length)) s)
          ∧ (j.compaction = none → j.batch ≠ [] → ∀ b, j.active = some b → j.due = true →
              let g := j.generation + 1
              let recorded : Nat → List JEntry := fun i =>
                let v := tableGet j.journaled.records i freeJRecord
                let n := v.extent.length
                if v.state = .free then []
                else [.opened (BitVec.ofNat 8 i) v.title v.writer (BitVec.ofNat 32 v.declared) v.seq (BitVec.ofNat 16 n) v.checkpoint]
                  ++ ((List.range ((n + 11) / 12)).map fun c =>
                    .extent (BitVec.ofNat 8 i) (BitVec.ofNat 16 (12 * c)) (((v.extent.drop (12 * c)).take 12).map (BitVec.ofNat 16)))
                  ++ (match v.state with
                    | .sealed => [.sealed (BitVec.ofNat 8 i) v.corrupt v.running none]
                    | .corrupt => [.sealed (BitVec.ofNat 8 i) v.corrupt v.running none]
                    | .claimed => [.sealed (BitVec.ofNat 8 i) v.corrupt v.running none, .claimed (BitVec.ofNat 8 i)]
                    | .fault => [.faulted (BitVec.ofNat 8 i)]
                    | _ => [])
              let retired := j.journaled.retired
              let body := (List.range 32).flatMap recorded ++ (retired.map fun x => .retire (BitVec.ofNat 16 x) false)
                ++ (if j.journaled.worn = true then [.retire (BitVec.ofNat 16 (retired.getLastD 0xFFFF)) true] else [])
              let entries := .snapBegin g :: body ++ [.snapEnd g (BitVec.ofNat 16 (body.length + 2))]
              let other := if b = 6 then 7 else 6
              ∃ pages : List (List JEntry), pages.flatten = entries ∧ pages.length = (entries.length + 127) / 128
                ∧ (∀ (k : Nat) (h : k < pages.length), pages[k].length ≤ 128 ∧ (k + 1 < pages.length → pages[k].length = 128))
                ∧ arbitrate s = begun (.erase other) .compaction { s with flash := { f with journal := { j with
                    compaction := some { dest := other, generation := g, isErased := false, pages := pages, page := 0,
                                         format := false } } } })
          ∧ (j.compaction = none → j.batch = [] →
            (∀ x xs, f.system = x :: xs → arbitrate s = begun (systemOperation s x) .system s)
              ∧ (f.system = [] →
                (∀ r o n, (port s f.fetchTurn).fetch = .waiting r o n true → arbitrate s = reading f.fetchTurn r o n)
                  ∧ (¬ wants f.fetchTurn → ∀ r o n, (port s (peer f.fetchTurn)).fetch = .waiting r o n true →
                      arbitrate s = reading (peer f.fetchTurn) r o n)
                  ∧ (¬ wants f.fetchTurn → ¬ wants (peer f.fetchTurn) → ∀ x, f.recovery = some x →
                    (∀ t, serveSpool s = (t, false) → t.flash.running ≠ none → arbitrate s = t)
                      ∧ (∀ t, serveSpool s = (t, false) → t.flash.running = none →
                        (∀ z, t.flash.scrub = some z → z.replace = none →
                            arbitrate s = begunFor (some (z.record, (record t z.record).seq)) (.move z.old z.target z.moved) .scrub t)
                          ∧ ((∀ z, t.flash.scrub = some z → z.replace ≠ none) →
                            (t.flash.spool = .ready → ∀ before e rest, t.flash.erasePending = before ++ e :: rest → e.hold = .free →
                                (∀ y, y ∈ before → y.hold ≠ .free) → arbitrate s = begun (.erase e.block) .eraser t)
                              ∧ (t.flash.spool ≠ .ready ∨ (∀ y, y ∈ t.flash.erasePending → y.hold ≠ .free) → arbitrate s = t)))
                      ∧ (∀ t, serveSpool s = (t, true) → j.active ≠ none → arbitrate s = arbitrate t))
                  ∧ (¬ wants f.fetchTurn → ¬ wants (peer f.fetchTurn) → f.recovery = none →
                    (∀ before e after, s.spool.ring = before ++ e :: after → e.state = .full →
                        (∀ x, x ∈ before → x.state ≠ .full) →
                        (e.page % 64 ≠ 0 ∨ e.page / 64 < (record s e.record).extent.length) →
                        arbitrate s = begun
                          (.program ((record s e.record).extent.getD (e.page / 64) 0) (e.page % 64) e.data) (.staging e.record e.page)
                          { s with spool := { s.spool with ring := programming e } })
                      ∧ (∀ before e after', s.spool.ring = before ++ e :: after' → e.state = .full →
                        (∀ x, x ∈ before → x.state ≠ .full) → e.record < 32 → e.page % 64 = 0 →
                        let v := record s e.record
                        v.extent.length = e.page / 64 →
                        let draws : Prop := 0 < v.reservation ∨ reserved < pool
                        let detail : List Byte := [BitVec.ofNat 8 e.record, 3] ++ leWord v.title
                        let faulted : Part := { s with
                          ports := ⟨raiseIn .download detail s.ports.a, raiseIn .download detail s.ports.b⟩
                          spool := { s.spool with
                            ring := s.spool.ring.filter fun x => decide (x.record ≠ e.record) || decide (x.state = .programming)
                            records := tableSet s.spool.records e.record
                              { v with state := .fault, received := v.programmed, reservation := 0, running := none } }
                          flash := { f with journal := { j with
                            batch := [{ serial := j.nextSerial, entry := .faulted (BitVec.ofNat 8 e.record), live := true }]
                            nextSerial := j.nextSerial + 1 } } }
                        (∀ b, draws → found = some b →
                            arbitrate s = begun (.program b 0 e.data) (.staging e.record e.page)
                              { s with
                                spool := { s.spool with
                                  pointer := after b
                                  ring := programming e
                                  records := tableSet s.spool.records e.record
                                    { v with extent := v.extent ++ [b], reservation := v.reservation - 1 } }
                                flash := { f with free := f.free.filter fun x => decide (x ≠ b) } })
                          ∧ (draws → found = none → f.spool ≠ .worn → ∀ x, oldest x →
                              arbitrate s = begun (.erase x.block) (.allocation e.record) s)
                          ∧ (draws → found = none → held →
                              (∀ x, f.scrub = some x → x.replace = none → arbitrate s
                                = begunFor (some (x.record, (record s x.record).seq)) (.move x.old x.target x.moved) .scrub s)
                                ∧ ((∀ x, f.scrub = some x → x.replace ≠ none) → arbitrate s = s))
                          ∧ (¬ draws ∨ (found = none ∧ none_) → j.active ≠ none → arbitrate s = arbitrate faulted))
                      ∧ ((∀ x, x ∈ s.spool.ring → x.state ≠ .full) →
                        (∀ x, f.scrub = some x → x.replace = none → arbitrate s
                            = begunFor (some (x.record, (record s x.record).seq)) (.move x.old x.target x.moved) .scrub s)
                          ∧ (f.scrub = none → ∀ h rest, f.scrubList = h :: rest →
                            let dropped := arbitrate { s with flash := { f with scrubList := rest } }
                            (scrubbable h s = none ∨ pool ≤ reserved → arbitrate s = dropped)
                              ∧ (∀ r k, scrubbable h s = some (r, k) → reserved < pool →
                                (∀ b, found = some b →
                                    arbitrate s = begunFor (some (r, (record s r).seq)) (.move h b 0) .scrub
                                      { s with
                                        spool := { s.spool with pointer := after b }
                                        flash := { f with
                                          free := f.free.filter fun x => decide (x ≠ b)
                                          scrub := some { record := r, position := k, old := h, target := b, moved := 0,
                                                          replace := none } } })
                                  ∧ (found = none → f.spool ≠ .worn → ∀ x, oldest x →
                                      arbitrate s = begun (.erase x.block) .scrubTarget s)
                                  ∧ (found = none → none_ ∨ held → arbitrate s = dropped)))
                          ∧ (f.scrub = none → f.scrubList = [] →
                            (f.spool = .ready → ∀ x, oldest x → arbitrate s = begun (.erase x.block) .eraser s)
                              ∧ (f.spool ≠ .ready ∨ (∀ x, x ∈ f.erasePending → x.hold ≠ .free) → arbitrate s = s))))))))
    ∧ (∀ (b r k : Nat) (s : Part),
      (∀ i j, i < 32 → j < 32 → b ∈ (record s i).extent → b ∈ (record s j).extent → i = j) →
      (∀ i, i < 32 → (record s i).extent.Nodup) →
      (scrubbable b s = some (r, k) ↔ r < 32 ∧ (record s r).extent[k]? = some b ∧ k + 1 < (record s r).extent.length))
    ∧ (∀ (job : SysJob) (s : Part),
      let page : List Byte → List Byte := fun bytes => (bytes ++ List.replicate 4096 0xFF).take 4096
      let k := job.step
      systemOperation s job =
        match job.kind with
        | .rights => if k = 0 then .erase 0 else .program 0 0 (page job.image)
        | .waveform =>
            if k = 0 then .erase 1
            else .program 1 (k - 1) (page
              ((List.range (min 4096 (53040 - 4096 * (k - 1)))).map fun x => cell s 29 (524288 + 4096 * (k - 1) + x)))
        | .sleepScreen =>
            if k < 4 then .erase (2 + k)
            else .program (2 + (k - 4) / 64) ((k - 4) % 64) (page
              ((List.range (min 4096 (1038336 - 4096 * (k - 4)))).map fun x => seen s 31 (4096 * (k - 4) + x))))

/-- R168, R170, R179 and R197: what is written is read back. A journal entry takes 32 bytes and is parsed from them; a page
of entries holds them in order with erased places after them; a rights image of two legal records is valid and gives them.
The places of the fields within a journal entry are the model's (log entry 6). -/
def Obligations.FlashImagesReadBack : Prop :=
  (∀ e : JEntry, (∀ r f bs, e = .extent r f bs → bs.length ≤ 12) →
      (encodeEntry e).length = 32 ∧ parseEntry (encodeEntry e) = .entry e)
    ∧ (∀ es : List JEntry, es.length ≤ 128 → (∀ e, e ∈ es → ∀ r f bs, e = .extent r f bs → bs.length ≤ 12) →
        (journalPage es).length = 4096
          ∧ pageEntries (journalPage es) = es.map JRead.entry ++ List.replicate (128 - es.length) .erased)
    ∧ ∀ a b : Rights, a.mask.toNat < 2 ^ 28 → b.mask.toNat < 2 ^ 28 → a.caps &&& a.defer = 0 → b.caps &&& b.defer = 0 →
        let page := padPage (rightsImage ⟨a, b⟩)
        page.length = 4096 ∧ imageValid page = true ∧ rightsAt page 1 = a ∧ rightsAt page 7 = b

/-! ### Rights and peer requests (chapter 10) -/

/-- R180, R181 and R182: a command whose capability its port does not hold, and a SYSTEM-class command while the peer is
present. It is refused with DENIED or BUSY, or becomes the port's peer request with PEER_REQUEST raised on the peer, in
the order of the tests; nothing else changes. -/
def Obligations.CapabilityCheck : Prop :=
  ∀ (i : Instr) (code : Nat) (s : State), i.wellFormed = true → commandCode i = some code →
    isSample i = false → strayData i = 0 →
    let p := commandPort i
    takes s.part p = true →
    let n : Option Nat := match needOf code with
      | .capability n => some n
      | .system => some 7
      | .none => none
      | .slots => none
    let system : Prop := needOf code = .system
    let here : Prop := (s.part.debounce.presence.get (peer p)).level = true
    let r := s.part.rights.records.get p
    let refused : ResultCode → State := fun c => { s with part := { s.part with ports := answered s.part p { code := c } } }
    let formed : PeerRequest := { code := byteOf code, params := commandParams i, age := 0 }
    let referred : State := { s with
     part := { s.part with
      ports := (answered s.part p { code := .referred }).set (peer p)
        (raiseIn .peerRequest [if p = .A then 0 else 1, byteOf code, byteOf (commandParams i).length] (port s.part (peer p)))
      rights := { s.part.rights with requests := s.part.rights.requests.set p (some formed) } } }
    ∀ b, n = some b → (r.caps.getLsbD b = false ∨ (system ∧ here)) →
      exec i s = .next
        (if r.defer.getLsbD b = false ∧ r.caps.getLsbD b = false then refused .denied
         else if isReadCode code = true ∨ 32 < (commandParams i).length ∨ dataLength i ≠ 0 then refused .denied
         else if s.part.rights.requests.get p ≠ none then refused .busy
         else if here then referred
         else refused .denied)

/-- R178, R179, R186 and R166: RIGHTS SET and RIGHTS STORE, carried out with SYSTEM held and the peer absent. A record is
replaced only by a legal one; a store copies the records as they stand into a queued rewrite of block 0, one at a time. -/
def Obligations.RightsCommands : Prop :=
  ∀ (tx : Tx) (target : Byte) (mask : Word) (caps defer : Byte) (s : State), takes s.part tx.port = true → tx.extra = 0 →
    permitsSystem s.part tx.port = true → s.part.power.offPending = false →
    let r := s.part.rights
    let answer : ResultCode → Part → State := fun c x =>
      { s with part := { x with ports := answered s.part tx.port { code := c } } }
    let new : Rights := { mask := mask, caps := caps, defer := defer }
    let q := inTransaction s.part tx.port
    let body : List Byte := [1] ++ (leWord r.records.a.mask ++ [r.records.a.caps, r.records.a.defer])
      ++ (leWord r.records.b.mask ++ [r.records.b.caps, r.records.b.defer])
    exec (.rightsSet tx target mask caps defer) s = .next
        (if target.toNat ≤ 1 ∧ mask.toNat < 2 ^ 28 ∧ caps &&& defer = 0 then
          answer .ok { s.part with rights := { r with
            records := if target.toNat = 0 then ⟨new, r.records.b⟩ else ⟨r.records.a, new⟩ } }
        else answer .badParam s.part)
      ∧ exec (.rightsStore tx) s = .next
        (if r.writeOutstanding = true then answer .busy s.part
         else { s with
           part := settle tx.port { code := .ok } (ringSpace q (arbitrate { q with
            rights := { q.rights with writeOutstanding := true }
            flash := { q.flash with system := q.flash.system
              ++ [{ kind := .rights, step := 0, image := body ++ leWord (crc32 body) }] } })) })

/-- R183, R184, R185 and R191: the endings of a peer request. PEER WITHDRAW removes the port's own request; PEER DENY,
an expiry at 30 s and a fall of the answering port's presence end it with their outcome on the issuer; PEER GRANT hands
the command to its owner as the issuer's and delivers its result: what its owner does then is, command by command, what
the same command does when the issuer's own transaction is carried out (log entry 40: the model's reading). Every ending clears the pending PEER_REQUEST; with no
request each finds none. An outcome that carries no value has 0 in bytes 2 to 5 of its detail (log entry 53: the model's choice). R183, R185 and R191: a peer request's end by its age, and by the presence of the port that must
answer. A presence change settles its debouncer, a fall ends the peer's request with PEER_GONE, and a rise ends none. A presence change
without its candidate, and an expiry before 30 s or without a request, leave the part as it is (log entry 5: the model's
choice). -/
def Obligations.PeerRequestEndings : Prop :=
  (∀ (tx : Tx) (s : State), takes s.part tx.port = true → tx.extra = 0 →
    let p := tx.port
    let own := s.part.rights.requests.get p
    let waiting := s.part.rights.requests.get (peer p)
    let ports : Reply → Both PortUnit := fun r => answered s.part p r
    let ended : Port → Part → Part := fun issuer x =>
      { x with rights := { x.rights with requests := x.rights.requests.set issuer none } }
    let none_ : Reply := { code := .noRequest }
    let q := inTransaction s.part p
    exec (.peerWithdraw tx) s = .next { s with
        part :=
          if own = none then { s.part with ports := ports none_ }
          else { ended p s.part with ports := (ports { code := .ok }).set (peer p) (clearIn .peerRequest (port s.part (peer p))) } }
      ∧ exec (.peerDeny tx) s = .next { s with
        part :=
          match waiting with
          | none => { s.part with ports := ports none_ }
          | some r =>
              settle p { code := .ok } (raise (peer p) .peerOutcome [r.code, 7, 0, 0, 0, 0]
                (clearNotice p .peerRequest (ended (peer p) q))) }
      ∧ exec (.peerGrant tx) s = .next { s with
        part :=
          match waiting with
          | none => { s.part with ports := ports none_ }
          | some r =>
              let x := clearNotice p .peerRequest (ended (peer p) q)
              let i := buildCommand (peer p) r.code.toNat r.params []
              if s.part.power.offPending = true ∧ takenWhileOffPending r.code.toNat = false then
                settle p { code := .ok } (raise (peer p) .peerOutcome [r.code, 10, 0, 0, 0, 0] x)
              else
                match ownerEffect i x with
                | (y, some z) =>
                    settle p { code := .ok }
                      (raise (peer p) .peerOutcome ([r.code, byteOf (resultValue z.code)] ++ leWord z.value) y)
                | (y, none) => modifyPort p deselected y })
    ∧ (∀ (p : Port) (high : Bool) (s : State), alive s.part = true →
    let lapsed : Port → Byte → Part → Part := fun issuer outcome x =>
      match x.rights.requests.get issuer with
      | none => x
      | some r =>
          raise issuer .peerOutcome [r.code, outcome, 0, 0, 0, 0]
            (clearNotice (peer issuer) .peerRequest
              { x with rights := { x.rights with requests := x.rights.requests.set issuer none } })
    exec (.peerRequestExpiry p) s = .next { s with
        part :=
          match s.part.rights.requests.get p with
          | none => s.part
          | some r => if 30 ≤ r.age then lapsed p 28 s.part else s.part }
      ∧ ((s.part.debounce.presence.get p).candidate = some high →
          let x : Part := { s.part with debounce := { s.part.debounce with
            presence := s.part.debounce.presence.set p { level := high, candidate := none } } }
          exec (.presenceChange p high) s = .next { s with part := if high = true then x else lapsed (peer p) 29 x })
      ∧ ((s.part.debounce.presence.get p).candidate ≠ some high → exec (.presenceChange p high) s = .next s))
    ∧ (∀ (i : Instr) (code : Nat) (s : State), commandCode i = some code → isReadCode code = false →
    (needOf code = .system ∨ ∃ n, needOf code = .capability n) → strayData i = 0 →
    let p := commandPort i
    takes s.part p = true → verdict i p s.part = .pass → offRefuses s.part i = false →
    exec i s = .next { s with
      part :=
        match ownerEffect i (inTransaction s.part p) with
        | (y, some r) => settle p r y
        | (y, none) => modifyPort p deselected y })

/-! ### Ports, commands and notices (chapter 11) -/

/-- R188, R189 and R197: what a transaction spells when it is cut short or names no command: fewer than eight bits,
width code 3, a code that names no command, too few parameter bytes, a read not clocked out, and a deselect within a
byte, in this order (that a code that names no command goes before a partial byte: log entry 14, the model's choice).
R116, R121, R123, R127, R189 and R190: the answers that a transaction gets from its framing and from the power state at
its select, whatever its command: none when it is ignored, WOKEN when it woke the part, be it selected before or a whole
transaction at once (log entry 1), ABORTED, BAD_PARAM for a code that names no command and for data sent to a command that
takes none, STARTING in BOOT, and BAD_STATE while an orderly OFF is in progress. In BOOT, ABORTED and BAD_PARAM go before
STARTING, and a STATUS cut short records no result (log entry 14: the model's reading). Nothing but the port changes, but
where the part leaves HOLD (its status bytes sampled before, and a temperature sample in the same event: log entries 13 and
35, the model's reading). And the sample of a read that is not taken changes nothing but the select. -/
def Obligations.Framing : Prop :=
  (∀ (p : Port) (f : Frame),
    let code := f.command.toNat % 64
    (f.bits < 8 → commandOf p f = .aborted p .commandByte)
      ∧ (8 ≤ f.bits → 192 ≤ f.command.toNat → commandOf p f = .aborted p .width3)
      ∧ (8 ≤ f.bits → f.command.toNat < 192 →
        (0x33 ≤ code → commandOf p f = .unknownCommandCode p (BitVec.ofNat 8 code))
          ∧ ∀ n, paramCount code = some n →
            (f.bytes.length < n → commandOf p f = .aborted p .fewParameters)
              ∧ (n ≤ f.bytes.length →
                (isReadCode code = true → f.cutByte = true ∨ f.readAll = false →
                    commandOf p f = .aborted p (.shortRead (BitVec.ofNat 8 code)))
                  ∧ (isReadCode code = false → f.cutByte = true → commandOf p f = .aborted p .partialByte))))
    ∧ (∀ (p : Port) (s : State),
    let unit : PortUnit → State := fun u => { s with part := { s.part with ports := s.part.ports.set p u } }
    (∀ i, isTransaction i = true → commandPort i = p → isSample i = false →
        (selectsAs .ignored s.part p = true → exec i s = .next (unit { port s.part p with line := .deselected, sample := none }))
          ∧ ((port s.part p).line = .hold → exec i s = .next (unit (answeredUnit .hold s.part p { code := .woken })))
          ∧ ((port s.part p).line = .deselected → lineAtSelect s.part = .hold →
            let q : Part := { s.part with ports := s.part.ports.set p (unitIn .hold s.part p) }
            let c := s.part.pins.tempSense
            let left : Part := ringSpace q (arbitrate { q with
              power := { q.power with state := .settling }
              store := { q.store with retained := none }
              wave := { q.wave with reading := some (max (-160) (min c 400)), age := 0 } })
            exec i s = .next { s with part := settle p { code := .woken } left }))
      ∧ (∀ i, isSample i = true → commandPort i = p →
          (selectsAs .ignored s.part p = true → exec i s = .next (unit { port s.part p with line := .ignored }))
            ∧ ((port s.part p).line = .hold → exec i s = .next s)
            ∧ (selectsAs .boot s.part p = true → (∀ m, i ≠ .status ⟨p, m⟩) → (∀ m, i ≠ .identify ⟨p, m⟩) → (∀ m, i ≠ .noticeRead p m) →
                exec i s = .next (unit (unitIn .boot s.part p))))
      ∧ (∀ x, x = .taken ∨ x = .boot → selectsAs x s.part p = true →
        (∀ code, exec (.unknownCommandCode p code) s = .next (unit (answeredUnit x s.part p { code := .badParam })))
          ∧ (∀ cause, cause ≠ .shortRead 0 →
              exec (.aborted p cause) s = .next (unit (answeredUnit x s.part p { code := .aborted })))
          ∧ exec (.aborted p (.shortRead 0)) s
            = .next (unit { unitIn x s.part p with line := .deselected, sample := none, data := sentData (port s.part p) [] })
          ∧ (∀ i, commandPort i = p → strayData i ≠ 0 →
              exec i s = .next (unit (answeredUnit x s.part p { code := .badParam }))))
      ∧ ∀ i code, i.wellFormed = true → isSample i = false → commandPort i = p → commandCode i = some code → code ≤ 0x32 →
        strayData i = 0 →
        (2 < code → selectsAs .boot s.part p = true →
            exec i s = .next (unit (answeredUnit .boot s.part p { code := .starting })))
          ∧ (takes s.part p = true → verdict i p s.part = .pass → offRefuses s.part i = true →
            exec i s = .next (unit (answeredUnit .taken s.part p { code := .badState }))))

/-- R95, R108, R183, R187, R195 and R197: LIGHT READ, BATTERY READ, RIGHTS READ and PEER READ answer OK with their bytes,
field by field, and change nothing; so does IDENTIFY, in BOOT too (R127). R190 and R195: STATUS, in ACTIVE, SETTLING and
BOOT. Its 14 bytes go out, and the port's last result and value stay as they were. R188: each takes its bytes at its
sample, at the end of its command byte, and sends those at its deselect; a second sample of one transaction takes none.
Bytes 1 to 36 of an absent peer request record are 0xFF (log entry 51: the model's choice). -/
def Obligations.ReadsAndStatus : Prop :=
  (∀ (p : Port) (s : State), takes s.part p = true →
    let x := s.part
    let answers : (ReadMoment → Instr) → List Byte → Nat → Prop := fun i bytes n =>
      exec (i .deselect) s = .next { s with part := { x with ports := answered x p { code := .ok, data := bytes } } }
        ∧ exec (i .sample) s = .next { s with part := sampled .taken x p bytes } ∧ bytes.length = n
    let l := x.light
    let level := l.brightness * l.brightness / 1000
    let limited := min level l.ceiling
    let warm := (limited * l.warmth + 50) / 100
    let moving : Prop := l.warm ≠ l.warmTarget ∨ l.cool ≠ l.coolTarget
    let light := le2 l.brightness ++ [byteOf l.warmth] ++ le2 l.step ++ le2 level ++ le2 limited ++ le2 warm
      ++ le2 (limited - warm) ++ le2 l.ceiling ++ [byteOf (batteryCode x.battery.state)] ++ le2 l.warmTarget
      ++ le2 l.coolTarget ++ le2 l.warm ++ le2 l.cool
      ++ [byteOf ((if moving then 1 else 0) + (if x.power.offPending = true then 2 else 0))]
    let b := x.battery
    let half : (Sample → Nat) → List Byte := fun f => match b.last with
      | none => [0xFF, 0xFF]
      | some v => le2 (f v)
    let byte : (Sample → Nat) → Byte := fun f => match b.last with
      | none => 0xFF
      | some v => byteOf (f v)
    let period : Nat := match x.power.state with
      | .hold => 1
      | .off => 2
      | _ => 0
    let battery := (if b.window = [] then [0xFF, 0xFF] else le2 (b.window.sum / b.window.length))
      ++ [byteOf (batteryCode b.state), byteOf b.window.length] ++ half (fun v => v.code.toNat) ++ half Sample.volts
      ++ half Sample.compensated
      ++ [byte fun v => v.light + v.panel + v.flash, byte Sample.light, byte Sample.panel, byte Sample.flash]
      ++ le2 b.resistance ++ [byteOf period, if x.pins.charger = true then 1 else 0]
    let one : Rights → List Byte := fun r => leWord r.mask ++ [r.caps, r.defer]
    let flag : Bool → Byte := fun v => if v = true then 1 else 0
    let rights := one x.rights.records.a ++ one x.rights.records.b
      ++ [flag (!x.rights.fromFlash), flag x.rights.writeOutstanding, flag x.debounce.presence.a.level,
          flag x.debounce.presence.b.level]
    let record_ : Port → Option PeerRequest → List Byte := fun issuer r => match r with
      | none => 0 :: List.replicate 36 0xFF
      | some r => [1, BitVec.ofNat 8 (portCode issuer), r.code, BitVec.ofNat 8 r.age, BitVec.ofNat 8 r.params.length]
          ++ (r.params ++ List.replicate 32 0xFF).take 32
    let requests := x.rights.requests
    answers (fun m => .lightRead ⟨p, m⟩) light 25 ∧ answers (fun m => .batteryRead ⟨p, m⟩) battery 18 ∧ answers (fun m => .rightsRead ⟨p, m⟩) rights 16
      ∧ answers (fun m => .peerRead ⟨p, m⟩) (record_ (peer p) (requests.get (peer p)) ++ record_ p (requests.get p)) 74)
    ∧ (∀ (x : Line) (p : Port) (s : State), x = .taken ∨ x = .boot → selectsAs x s.part p = true →
    let id := s.part.flash.identity
    id.factoryBad.length ≤ 20 →
    let bytes := leHalf id.vendor ++ leHalf id.part ++ [id.revision, BitVec.ofNat 8 id.factoryBad.length]
      ++ (id.factoryBad.flatMap fun b => le2 b) ++ List.replicate (40 - 2 * id.factoryBad.length) 0xFF
      ++ le2 1248 ++ le2 1664 ++ [16, 32, 8, 32] ++ le2 1024 ++ [64]
    bytes.length = 57
      ∧ exec (.identify ⟨p, .deselect⟩) s = .next { s with
          part := { s.part with ports := s.part.ports.set p (answeredUnit x s.part p { code := .ok, data := bytes }) } }
      ∧ exec (.identify ⟨p, .sample⟩) s = .next { s with part := sampled x s.part p bytes })
    ∧ (∀ (x : Line) (p : Port) (s : State), x = .taken ∨ x = .boot → selectsAs x s.part p = true →
    let u := port s.part p
    let kinds : List NoticeKind :=
      [.booted, .battery, .powerKey, .peerRequest, .peerOutcome, .turnStarved, .renderAhead, .homeKey, .updateDone,
       .download, .fetchReady, .ringSpace, .flash, .alarm, .cover]
    let pending := (kinds.map fun k => if notice u.notices k = none then 0 else 2 ^ kindIndex k).sum
    let bit : Bool → Nat → Nat := fun b k => if b = true then 2 ^ k else 0
    let unread := match u.fetch with
      | .ready _ _ _ _ _ unread => unread
      | _ => false
    let flags := bit s.part.power.asleep 0 + bit s.part.power.offPending 1
      + bit (s.part.debounce.presence.get (peer p)).level 2 + bit (s.part.rights.requests.get p).isSome 3 + bit unread 4
      + bit (s.part.rights.requests.get (peer p)).isSome 5
    let bytes := [byteOf (powerCode s.part.power.state), byteOf (batteryCode s.part.battery.state), byteOf flags,
        byteOf (spoolCode s.part.flash.spool)]
      ++ le2 pending ++ leHalf u.notices.enables ++ [if u.notices.master = true then 1 else 0, byteOf (resultValue u.lastResult)]
      ++ leWord u.lastValue
    exec (.status ⟨p, .deselect⟩) s = .next { s with
        part := { s.part with
          ports := s.part.ports.set p
            { unitIn x s.part p with line := .deselected, sample := none, data := sentData (port s.part p) bytes } } }
      ∧ exec (.status ⟨p, .sample⟩) s = .next { s with part := sampled x s.part p bytes }
      ∧ bytes.length = 14)
    ∧ (∀ (u : PortUnit) (data : List Byte), (u.sample = none → sentData u data = data)
      ∧ ∀ v, u.sample = some v → sentData u data = v.data)

/-- R16, R37, R62, R81, R153, R175 and R197: SLOT TABLE READ, TURN STATE READ, ENGINE READ, TEMPERATURE READ, FLASH HEALTH
READ and DIRECTORY READ answer OK with the bytes that R197 lays out, field by field, and change nothing; DIRECTORY READ is
refused with BAD_STATE while the spool is FAULTED, and sends nothing then. The bytes of a running CRC that its presence bit
reports absent are a free value (log entry 33: the model's choice). R188: each takes its bytes at its sample. -/
def Obligations.ReadLayouts : Prop :=
  ∀ (p : Port) (s : State), takes s.part p = true →
    let x := s.part
    let answers : (ReadMoment → Instr) → List Byte → Nat → Prop := fun i bytes n =>
      exec (i .deselect) s = .next { s with part := { x with ports := answered x p { code := .ok, data := bytes } } }
        ∧ exec (i .sample) s = .next { s with part := sampled .taken x p bytes } ∧ bytes.length = n
    let n1 : Nat → Byte := fun n => BitVec.ofNat 8 n
    let flag : Bool → Nat → Nat := fun b k => if b = true then 2 ^ k else 0
    let absent1 : Option Nat → Byte := fun v => match v with
      | none => 0xFF
      | some n => BitVec.ofNat 8 n
    let absent4 : Option Word → List Byte := fun v => match v with
      | none => [0xFF, 0xFF, 0xFF, 0xFF]
      | some w => leWord w
    let filled : Nat → List Byte → List Byte := fun n bs => (bs ++ List.replicate n 0xFF).take n
    let slots := x.store.slots.toList.flatMap fun v =>
      [n1 (match v.state with
          | .empty => 0
          | .filling => 1
          | .ready => 2
          | .lost => 3),
        absent1 (v.writer.map portCode), n1 (flag v.retain 0 + flag v.key.isSome 1), n1 v.showing]
        ++ (match v.key with
          | none => [0, 0, 0, 0]
          | some k => leWord k) ++ le2 v.rows.length
    let t := x.turn
    let e := x.engine
    let mine : Update → Bool := fun u => decide (u.origin = .turn)
    let attached : List Update := e.lanes.toList.flatMap fun l => match l with
      | none => []
      | some l => l.followUps
    let waiting : Nat × Option Nat := match e.queue.find? mine with
      | some u => (1, some u.source)
      | none => match (e.release ++ attached).find? mine with
        | some u => (2, some u.source)
        | none => (0, none)
    let turn := [n1 t.list.length] ++ filled 28 (t.list.map n1)
      ++ [absent1 t.cursor, absent1 (t.cursor.bind fun i => t.list[i]?), BitVec.ofInt 8 t.backlog, n1 t.lookahead,
          n1 (modeCode t.mode), n1 waiting.1, absent1 waiting.2]
    let origin : FirstOrigin → Nat := fun o => match o with
      | .port .A => 0
      | .port .B => 1
      | .turn => 2
      | .power => 3
    let portOf_ : FirstOrigin → Byte := fun o => match o with
      | .port q => n1 (portCode q)
      | .turn => 0xFF
      | .power => 0xFF
    let rect : Rect → List Byte := fun q => le2 q.xs ++ le2 q.xe ++ le2 q.ys ++ le2 q.ye
    let lanes := e.lanes.toList.flatMap fun l => match l with
      | none => (0 : Byte) :: List.replicate 21 0xFF
      | some l => [1, n1 (origin l.update.origin + if l.followUp = true then 4 else 0), portOf_ l.update.origin, n1 l.update.source]
          ++ rect l.update.rect
          ++ [n1 l.exclusions.length, n1 (modeCode l.applied), n1 (flag l.promoted 0 + flag l.demoted 1), n1 l.band,
              n1 (match l.clamp with
                | .none => 0
                | .cold => 1
                | .hot => 2),
              n1 l.frames, n1 l.index, l.update.tag, n1 (flag l.update.notify 0), n1 l.followUps.length]
    let place : Update → List Byte := fun u => [n1 (origin u.origin), portOf_ u.origin, n1 u.source] ++ rect u.rect
      ++ [n1 (modeCode u.mode), u.tag]
    let engine := lanes
      ++ [n1 e.queue.length]
      ++ filled 255 (e.queue.flatMap fun u =>
          place u ++ [n1 (flag u.notify 0), if u.origin = .power then 1 else 0])
      ++ [n1 e.release.length] ++ filled 416 (e.release.flatMap place)
      ++ [n1 (e.release.length + attached.length),
          n1 (match e.outcome with
            | .empty => 0
            | .blockedFollowUps => 1
            | .blockedPool => 2
            | .blockedNoLane => 3
            | .waveformPending => 4),
          n1 (flag x.wave.replacementPending 0)]
    let w := x.wave
    let held := decide ((slot x 29).state = .ready)
    let file : Nat → Byte := fun k => cell x 29 k
    let band : Option Nat := w.reading.map fun c => if c < 0 then 0 else if 192 ≤ c then 11 else (c / 16).toNat
    let frames : Nat → Byte := fun m => match band with
      | none => 0xFF
      | some k => if held = true then file (8 + 4419 * k + m) else 0xFF
    let id : Nat → List Byte := fun a => [file (a + 4), file (a + 5), file (a + 6), file (a + 7)]
    let temperature := [n1 (flag w.reading.isSome 0 + flag held 1 + flag w.replacementPending 2 + flag w.reprogram 3)]
      ++ leHalf (BitVec.ofInt 16 (match w.reading with
        | none => 0
        | some c => c))
      ++ absent4 (w.reading.map fun _ => BitVec.ofNat 32 w.age)
      ++ [absent1 band, absent1 (w.reading.map fun c => if c < 0 then 1 else if 192 ≤ c then 2 else 0)]
      ++ (if held = true then id 0 else [0xFF, 0xFF, 0xFF, 0xFF]) ++ [frames 0, frames 1, frames 2]
      ++ (if w.replacementPending = true then id 524288 else [0xFF, 0xFF, 0xFF, 0xFF])
      ++ [n1 e.ghostLimit] ++ e.tiles.toList.map n1
    let f := x.flash
    let j := f.journal
    let target : List Byte := match f.recovery.bind Recovery.target with
      | some y => le2 y ++ [1]
      | none => match f.scrub with
        | some y => le2 y.target ++ [0]
        | none => [0xFF, 0xFF, 0xFF]
    let health := le2 f.free.length ++ le2 f.erasePending.length
      ++ le2 (f.erasePending.countP fun b => decide (b.hold ≠ .free)) ++ [n1 f.retired.length, n1 f.factoryBad.length,
        n1 (match f.spool with
          | .ready => 0
          | .worn => 1
          | .faulted => 2),
        absent1 j.active]
      ++ leWord j.generation ++ [n1 j.nextPage] ++ le2 (if 65535 < j.batch.length then 65535 else j.batch.length)
      ++ [n1 f.scrubList.length] ++ filled 16 (f.scrubList.flatMap fun b => le2 b) ++ target
      ++ [match f.running with
        | none => 0
        | some r => match r.operation with
          | .read _ _ => 1
          | .program _ _ _ => 2
          | .erase _ => 3
          | .move _ _ _ => 4]
    let directory := ((List.range 32).flatMap fun i =>
        let v := record x i
        let free := decide (v.state = .free)
        [n1 i,
          n1 (match v.state with
            | .free => 0
            | .opened => 1
            | .stalled => 2
            | .sealing => 3
            | .sealed => 4
            | .corrupt => 5
            | .fault => 6
            | .claimed => 7),
          if free = true then 0xFF else n1 (portCode v.writer), n1 (flag v.ending 0 + flag v.running.isNone 1)]
          ++ (if free = true then [0, 0, 0, 0] else leWord v.title) ++ le4 v.declared ++ le4 v.received ++ le4 v.programmed
          ++ le4 v.durable ++ leWord (v.running.getD Config.absentCrc) ++ leWord v.checkpoint ++ le2 v.extent.length ++ le2 v.reservation
          ++ [n1 v.stall, n1 v.damaged])
      ++ [n1 (match f.spool with
          | .ready => 0
          | .worn => 1
          | .faulted => 2)]
      ++ le2 (f.free.length + f.erasePending.length - (x.spool.records.toList.map Record.reservation).sum)
    answers (fun m => .slotTableRead ⟨p, m⟩) slots 320
      ∧ answers (fun m => .turnStateRead ⟨p, m⟩) turn 36
      ∧ answers (fun m => .engineRead ⟨p, m⟩) engine 852
      ∧ answers (fun m => .temperatureRead ⟨p, m⟩) temperature 213
      ∧ answers (fun m => .flashHealthRead ⟨p, m⟩) health 38
      ∧ (permits x p 5 = true →
          (x.flash.spool = .faulted →
              exec (.directoryRead ⟨p, .deselect⟩) s = .next { s with part := { x with ports := answered x p { code := .badState } } }
                ∧ exec (.directoryRead ⟨p, .sample⟩) s = .next { s with part := sampled .taken x p [] })
            ∧ (x.flash.spool ≠ .faulted → answers (fun m => .directoryRead ⟨p, m⟩) directory 1219))

/-- R192 and R193: in every state, a raise keeps the latest detail and counts up to 255, and a clearing removes one kind
(log entry 13: the model's reading of what it does to a sample). NOTICE READ samples the pending, enabled kind of
highest priority, sends what it sampled and clears that kind at its deselect, unless it was raised again since the sample,
when its count becomes the raises since; a kind that is no longer pending at that deselect stays so, and one that is cleared
during the read counts its raises from then on (log entry 13: the model's reading); with nothing to read it returns kind NONE (its occurrence count byte 0xFF: log
entry 41, the model's choice). The other kinds stay. R194: NOTICE MASK replaces the enables and the master enable, and its
value carries the ones before; the line is asserted exactly while the part runs outside OFF, the master enable is on and
an enabled kind is pending. -/
def Obligations.NoticeUnitRules : Prop :=
  (∀ (p : Port) (k : NoticeKind) (detail : List Byte) (s : Part),
    let u := port s p
    let t := raise p k detail s
    let c := clearNotice p k s
    let counted (f : Nat → Nat) : Option ReadSample → Option ReadSample := fun x =>
      x.map fun y => if y.kind = some k then { y with raises := f y.raises } else y
    (notice (port t p).notices k
          = some { detail := (detail ++ List.replicate 8 0xFF).take 8
                   count := match notice u.notices k with
                     | none => 1
                     | some n => min 255 (n.count + 1) }
        ∧ (∀ j, j ≠ k → notice (port t p).notices j = notice u.notices j)
        ∧ (port t p).sample = counted (fun m => m + 1) u.sample)
      ∧ (notice (port c p).notices k = none
        ∧ (∀ j, j ≠ k → notice (port c p).notices j = notice u.notices j)
        ∧ (port c p).sample = counted (fun _ => 0) u.sample)
      ∧ ∀ x, x = t ∨ x = c →
          x = { s with ports := x.ports } ∧ port x (peer p) = port s (peer p)
            ∧ port x p = { u with
                sample := (port x p).sample, notices := { u.notices with pending := (port x p).notices.pending } })
    ∧ (∀ (x : Line) (p : Port) (s : State), x = .taken ∨ x = .boot → selectsAs x s.part p = true →
    let u := port s.part p
    let readable : NoticeKind → Prop := fun k => notice u.notices k ≠ none ∧ u.notices.enables.getLsbD (kindIndex k) = true
    let unit : PortUnit → State := fun v => { s with part := { s.part with ports := s.part.ports.set p v } }
    (u.sample = none → (∀ k, ¬ readable k) →
          exec (.noticeRead p .deselect) s
            = .next (unit (answeredUnit x s.part p { code := .ok, data := [0] ++ List.replicate 9 0xFF })))
      ∧ (u.sample = none → ∀ k n, notice u.notices k = some n → readable k → (∀ j, kindIndex j < kindIndex k → ¬ readable j) →
          let bytes := [byteOf (kindIndex k + 1), byteOf n.count] ++ n.detail
          exec (.noticeRead p .deselect) s
              = .next (unit { answeredUnit x s.part p { code := .ok, data := bytes } with
                  notices := { u.notices with pending := tableSet u.notices.pending (kindIndex k) none } })
            ∧ exec (.noticeRead p .sample) s
              = .next (unit { unitIn x s.part p with sample := some { data := bytes, kind := some k, raises := 0 } }))
      ∧ (u.sample = none → (∀ k, ¬ readable k) →
          exec (.noticeRead p .sample) s = .next (unit { unitIn x s.part p with
            sample := some { data := [0] ++ List.replicate 9 0xFF, kind := none, raises := 0 } }))
      ∧ (u.sample ≠ none → exec (.noticeRead p .sample) s = .next (unit (unitIn x s.part p)))
      ∧ (∀ sent k m, u.sample = some { data := sent, kind := some k, raises := m } → notice u.notices k = none →
          exec (.noticeRead p .deselect) s = .next (unit { unitIn x s.part p with
            line := .deselected, sample := none, lastResult := .ok, lastValue := 0, data := sent }))
      ∧ (∀ sent m, u.sample = some { data := sent, kind := none, raises := m } →
          exec (.noticeRead p .deselect) s = .next (unit { unitIn x s.part p with
            line := .deselected, sample := none, lastResult := .ok, lastValue := 0, data := sent }))
      ∧ (∀ sent k n m, u.sample = some { data := sent, kind := some k, raises := m } → notice u.notices k = some n →
          let left : Option Notice := if m = 0 then none else some { n with count := min 255 m }
          exec (.noticeRead p .deselect) s
            = .next (unit { unitIn x s.part p with
                line := .deselected, sample := none, lastResult := .ok, lastValue := 0, data := sent
                notices := { u.notices with pending := tableSet u.notices.pending (kindIndex k) left } })))
    ∧ (∀ (tx : Tx) (enables : Half) (master : Byte) (s : State), takes s.part tx.port = true → tx.extra = 0 →
    let u := port s.part tx.port
    exec (.noticeMask tx enables master) s = .next { s with
        part := { s.part with
          ports :=
            if master.toNat ≤ 1 ∧ enables.toNat < 32768 then
              s.part.ports.set tx.port
                { answeredUnit .taken s.part tx.port
                    { code := .ok
                      value := BitVec.ofNat 32 (u.notices.enables.toNat + (if u.notices.master = true then 65536 else 0)) } with
                  notices := { u.notices with enables := enables, master := decide (master.toNat = 1) } }
            else answered s.part tx.port { code := .badParam } } }
      ∧ (attention s.part tx.port = true ↔ alive s.part = true ∧ s.part.power.state ≠ .off ∧ u.notices.master = true
          ∧ ∃ k, notice u.notices k ≠ none ∧ u.notices.enables.getLsbD (kindIndex k) = true))

/-! ### The whole machine -/

/-- R188, R189 and R197: every command is read back from the bytes that spell it. The command byte carries the code with
any of the widths 1, 2 and 4; the parameters follow in the order and sizes of R197, and data after them. -/
def Obligations.CommandReadsBack : Prop :=
  ∀ (i : Instr) (code width : Nat) (data : List Byte), i.wellFormed = true → commandCode i = some code →
    isSample i = false → width < 3 →
    (match i with
      | .slotWrite _ _ _ d => data = d
      | .slotWriteRect _ _ _ _ _ _ d => data = d
      | .chunkWrite _ _ _ d => data = d
      | _ => data.length = strayData i) →
    commandOf (commandPort i)
      { bits := 8, command := BitVec.ofNat 8 (code + 64 * width), bytes := commandParams i ++ data, cutByte := false,
        readAll := true } = i

/-- The DRAM and the flash array stay in their canonical form, and the identity area never changes (R157): every step
keeps it, from every state that has it. -/
def Obligations.MemoriesStayCanonical : Prop :=
  ∀ s t : State, memoriesCanonical s.part = true → step s = .next t →
    memoriesCanonical t.part = true ∧ t.part.flash.identity = s.part.flash.identity

/-- R84, R87, R88, R90, R92 and R94: every step keeps the light within its ceiling: the request within its ranges (brightness
up to 1,000, warmth up to 100, ramp step 1 to 4,095), the ceiling is the battery state's, the
targets are those the request, the ceiling and the power state give, the applied duties never exceed the limit together,
and both are 0 in OFF, BOOT and HOLD. -/
def Obligations.LightStaysLimited : Prop :=
  ∀ s t : State, lightLegal s.part = true → step s = .next t → lightLegal t.part = true

/-- R23, R24, R25, R30 and R32: every step keeps the turn state legal: at most 28 different page slots in the list, the
cursor within it, the backlog between -8 and 8 and nonzero only in ACTIVE, the lookahead 1 to 8, the turn mode not FULL. -/
def Obligations.TurnStateStaysLegal : Prop :=
  ∀ s t : State, turnLegal s.part = true → step s = .next t → turnLegal t.part = true

/-- R27, R28, R43, R46, R53, R76, R77 and R80: every step keeps the engine's collections and the ghost counts within their
bounds: 16 ordinary places, one POWER entry, one TURN entry in the queue, 32 follow-ups and 4 on a lane, every tile count
up to 15 and the ghost limit 1 to 15. -/
def Obligations.EngineStaysBounded : Prop :=
  ∀ s t : State, engineBounded s.part = true → step s = .next t → engineBounded t.part = true

/-- R2, R5 and R6: every step keeps the slot table legal: each slot's record as its state governs it (EMPTY and LOST without
key, writer or marks, FILLING with a writer and no key, READY with both, the system slots without any and, when READY, with
all 1,664 rows marked), each showing count equal to the number of running lanes with that source, every such source
READY, and no update naming another slot than a page slot or the sleep screen's. -/
def Obligations.SlotTableStaysLegal : Prop :=
  ∀ s t : State, slotTableLegal s.part = true → step s = .next t → slotTableLegal t.part = true

/-- R17 and R18: every step keeps that, while the power state is HOLD, every READY or FILLING page slot lies in a retained
segment and no transaction is in progress, and that outside HOLD no segment is marked retained. -/
def Obligations.HoldKeepsItsPages : Prop :=
  ∀ s t : State, holdLegal s.part = true → step s = .next t → holdLegal t.part = true

/-- R135, R136, R140, R148 and R161: every step keeps the spool legal wherever download records exist. Each spool block
belongs to exactly one of the free pool, the erase-pending list, the extents, the retired list, the factory-bad set and
the relocation target; the retired list holds at most 40 blocks, the scrub list 8 and the staging ring 64 entries; and
each record's lengths, extent list and staging entries fit its state. What a BOOT rebuilds comes from the array, which any
state may hold at will, so its replay is a premise; the replay of the array as delivered meets it. -/
def Obligations.SpoolStaysLegal : Prop :=
  (∀ s t : State, spoolLegal s.part = true →
    (∀ ecc rest, s.pending = .entryToActive ecc :: rest → s.part.power.state = .boot →
      spoolCore (replayJournal ecc s.part) = true) →
    step s = .next t → spoolLegal t.part = true)
    ∧ spoolCore (replayJournal [] State.reset.part) = true

/-- R128, R157 and the state tables of the chapters: what the machine holds after reset. The inputs at rest (log entry
2), the identity area (log entry 3), the bytes of the snapshot's entries (log entry 6) and that every page from block 7
on, the spool blocks included, is erased (log entry 10) are the model's choice. That every notice kind and the master enable
are on (R192 gives them after BOOT) is log entry 18: the model's reading. The seven invariants hold right after
reset. -/
def Obligations.ResetValues : Prop :=
  (let s := State.reset.part
  State.reset.pending = [] ∧ s.supply = true ∧ s.power.state = .off ∧ s.power.coldPending = true
    ∧ (s.power.asleep = false ∧ s.power.offPending = false ∧ s.power.coverFlag = true ∧ s.power.restoreFlag = true
        ∧ s.power.sleepFlag = true ∧ s.power.timebase = 0 ∧ s.power.alarms = ⟨none, none⟩ ∧ s.power.press = none
        ∧ s.power.chargerRetry = false ∧ s.power.sleepWrite = false)
    ∧ (∀ i, i < 32 → slot s i
        = { state := .empty, key := none, writer := none, retain := false, showing := 0, rows := [] })
    ∧ s.turn = { list := [], cursor := none, backlog := 0, lookahead := 2, mode := .quick }
    ∧ (s.engine.queue = [] ∧ s.engine.release = [] ∧ s.engine.lanes = Vector.replicate 8 none
        ∧ s.engine.tiles = Vector.replicate 192 15 ∧ s.engine.ghostLimit = 6 ∧ s.engine.outcome = .empty)
    ∧ s.wave = { replacementPending := false, reprogram := false, reading := none, age := 0 }
    ∧ s.light = { brightness := 0, warmth := 50, step := 32, ceiling := 1000, warmTarget := 0, coolTarget := 0, warm := 0,
                  cool := 0 }
    ∧ s.battery = { window := [], state := .normal, resistance := 200, last := none }
    ∧ (s.rights.records.a = { mask := 0x0FFFFFFF, caps := 0b11101111, defer := 0 }
        ∧ s.rights.records.b = { mask := 0x0C000000, caps := 0b00110010, defer := 0b01001100 }
        ∧ s.rights.requests = ⟨none, none⟩ ∧ s.rights.writeOutstanding = false)
    ∧ (∀ r, r < 32 → (record s r).state = .free) ∧ s.spool.ring = [] ∧ s.spool.pointer = 8 ∧ s.spool.arm = false
    ∧ (∀ p, (∀ k, notice (port s p).notices k = none ∧ kindEnabled (port s p).notices k = true)
        ∧ (port s p).notices.master = true ∧ (port s p).lastResult = .ok ∧ (port s p).lastValue = 0
        ∧ (port s p).fetch = .empty)
    ∧ (Nand.page s.flash.nand (64 * 6) = some (programmedPage (journalPage [.snapBegin 1, .snapEnd 1 2]))
        ∧ ∀ a, 64 * 7 ≤ a → a < 65536 → Nand.page s.flash.nand a = none))
    ∧ (memoriesCanonical State.reset.part = true ∧ lightLegal State.reset.part = true ∧ turnLegal State.reset.part = true
    ∧ engineBounded State.reset.part = true ∧ slotTableLegal State.reset.part = true ∧ holdLegal State.reset.part = true
    ∧ spoolLegal State.reset.part = true)
end

