-- ==== Sys2Proof/Laws/State.lean ====
section
/-! SUPPORT. One lemma for each field of the part under each update: what the update leaves as it was, and what it
makes of the field it changes. Each is true by unfolding, so that no later proof unfolds a record update. -/

namespace Sys2Proof.Machine

/-! ### modifyPort -/

@[simp] theorem modifyPort_supply (p : Port) (f : PortUnit → PortUnit) (s : Part) : (modifyPort p f s).supply = s.supply := rfl
@[simp] theorem modifyPort_pins (p : Port) (f : PortUnit → PortUnit) (s : Part) : (modifyPort p f s).pins = s.pins := rfl
@[simp] theorem modifyPort_debounce (p : Port) (f : PortUnit → PortUnit) (s : Part) : (modifyPort p f s).debounce = s.debounce := rfl
@[simp] theorem modifyPort_ports (p : Port) (f : PortUnit → PortUnit) (s : Part) : (modifyPort p f s).ports = s.ports.modify p f := rfl
@[simp] theorem modifyPort_rights (p : Port) (f : PortUnit → PortUnit) (s : Part) : (modifyPort p f s).rights = s.rights := rfl
@[simp] theorem modifyPort_store (p : Port) (f : PortUnit → PortUnit) (s : Part) : (modifyPort p f s).store = s.store := rfl
@[simp] theorem modifyPort_turn (p : Port) (f : PortUnit → PortUnit) (s : Part) : (modifyPort p f s).turn = s.turn := rfl
@[simp] theorem modifyPort_engine (p : Port) (f : PortUnit → PortUnit) (s : Part) : (modifyPort p f s).engine = s.engine := rfl
@[simp] theorem modifyPort_wave (p : Port) (f : PortUnit → PortUnit) (s : Part) : (modifyPort p f s).wave = s.wave := rfl
@[simp] theorem modifyPort_light (p : Port) (f : PortUnit → PortUnit) (s : Part) : (modifyPort p f s).light = s.light := rfl
@[simp] theorem modifyPort_battery (p : Port) (f : PortUnit → PortUnit) (s : Part) : (modifyPort p f s).battery = s.battery := rfl
@[simp] theorem modifyPort_power (p : Port) (f : PortUnit → PortUnit) (s : Part) : (modifyPort p f s).power = s.power := rfl
@[simp] theorem modifyPort_spool (p : Port) (f : PortUnit → PortUnit) (s : Part) : (modifyPort p f s).spool = s.spool := rfl
@[simp] theorem modifyPort_flash (p : Port) (f : PortUnit → PortUnit) (s : Part) : (modifyPort p f s).flash = s.flash := rfl
@[simp] theorem modifyPort_fresh (p : Port) (f : PortUnit → PortUnit) (s : Part) : (modifyPort p f s).fresh = s.fresh := rfl

/-! ### modifyPorts -/

@[simp] theorem modifyPorts_supply (f : PortUnit → PortUnit) (s : Part) : (modifyPorts f s).supply = s.supply := rfl
@[simp] theorem modifyPorts_pins (f : PortUnit → PortUnit) (s : Part) : (modifyPorts f s).pins = s.pins := rfl
@[simp] theorem modifyPorts_debounce (f : PortUnit → PortUnit) (s : Part) : (modifyPorts f s).debounce = s.debounce := rfl
@[simp] theorem modifyPorts_ports (f : PortUnit → PortUnit) (s : Part) : (modifyPorts f s).ports = ⟨f s.ports.a, f s.ports.b⟩ := rfl
@[simp] theorem modifyPorts_rights (f : PortUnit → PortUnit) (s : Part) : (modifyPorts f s).rights = s.rights := rfl
@[simp] theorem modifyPorts_store (f : PortUnit → PortUnit) (s : Part) : (modifyPorts f s).store = s.store := rfl
@[simp] theorem modifyPorts_turn (f : PortUnit → PortUnit) (s : Part) : (modifyPorts f s).turn = s.turn := rfl
@[simp] theorem modifyPorts_engine (f : PortUnit → PortUnit) (s : Part) : (modifyPorts f s).engine = s.engine := rfl
@[simp] theorem modifyPorts_wave (f : PortUnit → PortUnit) (s : Part) : (modifyPorts f s).wave = s.wave := rfl
@[simp] theorem modifyPorts_light (f : PortUnit → PortUnit) (s : Part) : (modifyPorts f s).light = s.light := rfl
@[simp] theorem modifyPorts_battery (f : PortUnit → PortUnit) (s : Part) : (modifyPorts f s).battery = s.battery := rfl
@[simp] theorem modifyPorts_power (f : PortUnit → PortUnit) (s : Part) : (modifyPorts f s).power = s.power := rfl
@[simp] theorem modifyPorts_spool (f : PortUnit → PortUnit) (s : Part) : (modifyPorts f s).spool = s.spool := rfl
@[simp] theorem modifyPorts_flash (f : PortUnit → PortUnit) (s : Part) : (modifyPorts f s).flash = s.flash := rfl
@[simp] theorem modifyPorts_fresh (f : PortUnit → PortUnit) (s : Part) : (modifyPorts f s).fresh = s.fresh := rfl

/-! ### raise -/

@[simp] theorem raise_supply (p : Port) (k : NoticeKind) (d : List Byte) (s : Part) : (raise p k d s).supply = s.supply := rfl
@[simp] theorem raise_pins (p : Port) (k : NoticeKind) (d : List Byte) (s : Part) : (raise p k d s).pins = s.pins := rfl
@[simp] theorem raise_debounce (p : Port) (k : NoticeKind) (d : List Byte) (s : Part) : (raise p k d s).debounce = s.debounce := rfl
@[simp] theorem raise_ports (p : Port) (k : NoticeKind) (d : List Byte) (s : Part) : (raise p k d s).ports = s.ports.modify p (raiseIn k d) := rfl
@[simp] theorem raise_rights (p : Port) (k : NoticeKind) (d : List Byte) (s : Part) : (raise p k d s).rights = s.rights := rfl
@[simp] theorem raise_store (p : Port) (k : NoticeKind) (d : List Byte) (s : Part) : (raise p k d s).store = s.store := rfl
@[simp] theorem raise_turn (p : Port) (k : NoticeKind) (d : List Byte) (s : Part) : (raise p k d s).turn = s.turn := rfl
@[simp] theorem raise_engine (p : Port) (k : NoticeKind) (d : List Byte) (s : Part) : (raise p k d s).engine = s.engine := rfl
@[simp] theorem raise_wave (p : Port) (k : NoticeKind) (d : List Byte) (s : Part) : (raise p k d s).wave = s.wave := rfl
@[simp] theorem raise_light (p : Port) (k : NoticeKind) (d : List Byte) (s : Part) : (raise p k d s).light = s.light := rfl
@[simp] theorem raise_battery (p : Port) (k : NoticeKind) (d : List Byte) (s : Part) : (raise p k d s).battery = s.battery := rfl
@[simp] theorem raise_power (p : Port) (k : NoticeKind) (d : List Byte) (s : Part) : (raise p k d s).power = s.power := rfl
@[simp] theorem raise_spool (p : Port) (k : NoticeKind) (d : List Byte) (s : Part) : (raise p k d s).spool = s.spool := rfl
@[simp] theorem raise_flash (p : Port) (k : NoticeKind) (d : List Byte) (s : Part) : (raise p k d s).flash = s.flash := rfl
@[simp] theorem raise_fresh (p : Port) (k : NoticeKind) (d : List Byte) (s : Part) : (raise p k d s).fresh = s.fresh := rfl

/-! ### raiseBoth -/

@[simp] theorem raiseBoth_supply (k : NoticeKind) (d : List Byte) (s : Part) : (raiseBoth k d s).supply = s.supply := rfl
@[simp] theorem raiseBoth_pins (k : NoticeKind) (d : List Byte) (s : Part) : (raiseBoth k d s).pins = s.pins := rfl
@[simp] theorem raiseBoth_debounce (k : NoticeKind) (d : List Byte) (s : Part) : (raiseBoth k d s).debounce = s.debounce := rfl
@[simp] theorem raiseBoth_ports (k : NoticeKind) (d : List Byte) (s : Part) : (raiseBoth k d s).ports = ⟨raiseIn k d s.ports.a, raiseIn k d s.ports.b⟩ := rfl
@[simp] theorem raiseBoth_rights (k : NoticeKind) (d : List Byte) (s : Part) : (raiseBoth k d s).rights = s.rights := rfl
@[simp] theorem raiseBoth_store (k : NoticeKind) (d : List Byte) (s : Part) : (raiseBoth k d s).store = s.store := rfl
@[simp] theorem raiseBoth_turn (k : NoticeKind) (d : List Byte) (s : Part) : (raiseBoth k d s).turn = s.turn := rfl
@[simp] theorem raiseBoth_engine (k : NoticeKind) (d : List Byte) (s : Part) : (raiseBoth k d s).engine = s.engine := rfl
@[simp] theorem raiseBoth_wave (k : NoticeKind) (d : List Byte) (s : Part) : (raiseBoth k d s).wave = s.wave := rfl
@[simp] theorem raiseBoth_light (k : NoticeKind) (d : List Byte) (s : Part) : (raiseBoth k d s).light = s.light := rfl
@[simp] theorem raiseBoth_battery (k : NoticeKind) (d : List Byte) (s : Part) : (raiseBoth k d s).battery = s.battery := rfl
@[simp] theorem raiseBoth_power (k : NoticeKind) (d : List Byte) (s : Part) : (raiseBoth k d s).power = s.power := rfl
@[simp] theorem raiseBoth_spool (k : NoticeKind) (d : List Byte) (s : Part) : (raiseBoth k d s).spool = s.spool := rfl
@[simp] theorem raiseBoth_flash (k : NoticeKind) (d : List Byte) (s : Part) : (raiseBoth k d s).flash = s.flash := rfl
@[simp] theorem raiseBoth_fresh (k : NoticeKind) (d : List Byte) (s : Part) : (raiseBoth k d s).fresh = s.fresh := rfl

/-! ### clearNotice -/

@[simp] theorem clearNotice_supply (p : Port) (k : NoticeKind) (s : Part) : (clearNotice p k s).supply = s.supply := rfl
@[simp] theorem clearNotice_pins (p : Port) (k : NoticeKind) (s : Part) : (clearNotice p k s).pins = s.pins := rfl
@[simp] theorem clearNotice_debounce (p : Port) (k : NoticeKind) (s : Part) : (clearNotice p k s).debounce = s.debounce := rfl
@[simp] theorem clearNotice_ports (p : Port) (k : NoticeKind) (s : Part) : (clearNotice p k s).ports = s.ports.modify p (clearIn k) := rfl
@[simp] theorem clearNotice_rights (p : Port) (k : NoticeKind) (s : Part) : (clearNotice p k s).rights = s.rights := rfl
@[simp] theorem clearNotice_store (p : Port) (k : NoticeKind) (s : Part) : (clearNotice p k s).store = s.store := rfl
@[simp] theorem clearNotice_turn (p : Port) (k : NoticeKind) (s : Part) : (clearNotice p k s).turn = s.turn := rfl
@[simp] theorem clearNotice_engine (p : Port) (k : NoticeKind) (s : Part) : (clearNotice p k s).engine = s.engine := rfl
@[simp] theorem clearNotice_wave (p : Port) (k : NoticeKind) (s : Part) : (clearNotice p k s).wave = s.wave := rfl
@[simp] theorem clearNotice_light (p : Port) (k : NoticeKind) (s : Part) : (clearNotice p k s).light = s.light := rfl
@[simp] theorem clearNotice_battery (p : Port) (k : NoticeKind) (s : Part) : (clearNotice p k s).battery = s.battery := rfl
@[simp] theorem clearNotice_power (p : Port) (k : NoticeKind) (s : Part) : (clearNotice p k s).power = s.power := rfl
@[simp] theorem clearNotice_spool (p : Port) (k : NoticeKind) (s : Part) : (clearNotice p k s).spool = s.spool := rfl
@[simp] theorem clearNotice_flash (p : Port) (k : NoticeKind) (s : Part) : (clearNotice p k s).flash = s.flash := rfl
@[simp] theorem clearNotice_fresh (p : Port) (k : NoticeKind) (s : Part) : (clearNotice p k s).fresh = s.fresh := rfl

/-! ### setSlot -/

@[simp] theorem setSlot_supply (i : Nat) (v : Slot) (s : Part) : (setSlot i v s).supply = s.supply := rfl
@[simp] theorem setSlot_pins (i : Nat) (v : Slot) (s : Part) : (setSlot i v s).pins = s.pins := rfl
@[simp] theorem setSlot_debounce (i : Nat) (v : Slot) (s : Part) : (setSlot i v s).debounce = s.debounce := rfl
@[simp] theorem setSlot_ports (i : Nat) (v : Slot) (s : Part) : (setSlot i v s).ports = s.ports := rfl
@[simp] theorem setSlot_rights (i : Nat) (v : Slot) (s : Part) : (setSlot i v s).rights = s.rights := rfl
@[simp] theorem setSlot_store (i : Nat) (v : Slot) (s : Part) : (setSlot i v s).store = { s.store with slots := tableSet s.store.slots i v } := rfl
@[simp] theorem setSlot_turn (i : Nat) (v : Slot) (s : Part) : (setSlot i v s).turn = s.turn := rfl
@[simp] theorem setSlot_engine (i : Nat) (v : Slot) (s : Part) : (setSlot i v s).engine = s.engine := rfl
@[simp] theorem setSlot_wave (i : Nat) (v : Slot) (s : Part) : (setSlot i v s).wave = s.wave := rfl
@[simp] theorem setSlot_light (i : Nat) (v : Slot) (s : Part) : (setSlot i v s).light = s.light := rfl
@[simp] theorem setSlot_battery (i : Nat) (v : Slot) (s : Part) : (setSlot i v s).battery = s.battery := rfl
@[simp] theorem setSlot_power (i : Nat) (v : Slot) (s : Part) : (setSlot i v s).power = s.power := rfl
@[simp] theorem setSlot_spool (i : Nat) (v : Slot) (s : Part) : (setSlot i v s).spool = s.spool := rfl
@[simp] theorem setSlot_flash (i : Nat) (v : Slot) (s : Part) : (setSlot i v s).flash = s.flash := rfl
@[simp] theorem setSlot_fresh (i : Nat) (v : Slot) (s : Part) : (setSlot i v s).fresh = s.fresh := rfl

/-! ### modifySlot -/

@[simp] theorem modifySlot_supply (i : Nat) (f : Slot → Slot) (s : Part) : (modifySlot i f s).supply = s.supply := rfl
@[simp] theorem modifySlot_pins (i : Nat) (f : Slot → Slot) (s : Part) : (modifySlot i f s).pins = s.pins := rfl
@[simp] theorem modifySlot_debounce (i : Nat) (f : Slot → Slot) (s : Part) : (modifySlot i f s).debounce = s.debounce := rfl
@[simp] theorem modifySlot_ports (i : Nat) (f : Slot → Slot) (s : Part) : (modifySlot i f s).ports = s.ports := rfl
@[simp] theorem modifySlot_rights (i : Nat) (f : Slot → Slot) (s : Part) : (modifySlot i f s).rights = s.rights := rfl
@[simp] theorem modifySlot_store (i : Nat) (f : Slot → Slot) (s : Part) : (modifySlot i f s).store = { s.store with slots := tableSet s.store.slots i (f (slot s i)) } := rfl
@[simp] theorem modifySlot_turn (i : Nat) (f : Slot → Slot) (s : Part) : (modifySlot i f s).turn = s.turn := rfl
@[simp] theorem modifySlot_engine (i : Nat) (f : Slot → Slot) (s : Part) : (modifySlot i f s).engine = s.engine := rfl
@[simp] theorem modifySlot_wave (i : Nat) (f : Slot → Slot) (s : Part) : (modifySlot i f s).wave = s.wave := rfl
@[simp] theorem modifySlot_light (i : Nat) (f : Slot → Slot) (s : Part) : (modifySlot i f s).light = s.light := rfl
@[simp] theorem modifySlot_battery (i : Nat) (f : Slot → Slot) (s : Part) : (modifySlot i f s).battery = s.battery := rfl
@[simp] theorem modifySlot_power (i : Nat) (f : Slot → Slot) (s : Part) : (modifySlot i f s).power = s.power := rfl
@[simp] theorem modifySlot_spool (i : Nat) (f : Slot → Slot) (s : Part) : (modifySlot i f s).spool = s.spool := rfl
@[simp] theorem modifySlot_flash (i : Nat) (f : Slot → Slot) (s : Part) : (modifySlot i f s).flash = s.flash := rfl
@[simp] theorem modifySlot_fresh (i : Nat) (f : Slot → Slot) (s : Part) : (modifySlot i f s).fresh = s.fresh := rfl

/-! ### setDram -/

@[simp] theorem setDram_supply (m : List Host.Cell) (s : Part) : (setDram m s).supply = s.supply := rfl
@[simp] theorem setDram_pins (m : List Host.Cell) (s : Part) : (setDram m s).pins = s.pins := rfl
@[simp] theorem setDram_debounce (m : List Host.Cell) (s : Part) : (setDram m s).debounce = s.debounce := rfl
@[simp] theorem setDram_ports (m : List Host.Cell) (s : Part) : (setDram m s).ports = s.ports := rfl
@[simp] theorem setDram_rights (m : List Host.Cell) (s : Part) : (setDram m s).rights = s.rights := rfl
@[simp] theorem setDram_store (m : List Host.Cell) (s : Part) : (setDram m s).store = { s.store with dram := m } := rfl
@[simp] theorem setDram_turn (m : List Host.Cell) (s : Part) : (setDram m s).turn = s.turn := rfl
@[simp] theorem setDram_engine (m : List Host.Cell) (s : Part) : (setDram m s).engine = s.engine := rfl
@[simp] theorem setDram_wave (m : List Host.Cell) (s : Part) : (setDram m s).wave = s.wave := rfl
@[simp] theorem setDram_light (m : List Host.Cell) (s : Part) : (setDram m s).light = s.light := rfl
@[simp] theorem setDram_battery (m : List Host.Cell) (s : Part) : (setDram m s).battery = s.battery := rfl
@[simp] theorem setDram_power (m : List Host.Cell) (s : Part) : (setDram m s).power = s.power := rfl
@[simp] theorem setDram_spool (m : List Host.Cell) (s : Part) : (setDram m s).spool = s.spool := rfl
@[simp] theorem setDram_flash (m : List Host.Cell) (s : Part) : (setDram m s).flash = s.flash := rfl
@[simp] theorem setDram_fresh (m : List Host.Cell) (s : Part) : (setDram m s).fresh = s.fresh := rfl

/-! ### setRecord -/

@[simp] theorem setRecord_supply (r : Nat) (v : Record) (s : Part) : (setRecord r v s).supply = s.supply := rfl
@[simp] theorem setRecord_pins (r : Nat) (v : Record) (s : Part) : (setRecord r v s).pins = s.pins := rfl
@[simp] theorem setRecord_debounce (r : Nat) (v : Record) (s : Part) : (setRecord r v s).debounce = s.debounce := rfl
@[simp] theorem setRecord_ports (r : Nat) (v : Record) (s : Part) : (setRecord r v s).ports = s.ports := rfl
@[simp] theorem setRecord_rights (r : Nat) (v : Record) (s : Part) : (setRecord r v s).rights = s.rights := rfl
@[simp] theorem setRecord_store (r : Nat) (v : Record) (s : Part) : (setRecord r v s).store = s.store := rfl
@[simp] theorem setRecord_turn (r : Nat) (v : Record) (s : Part) : (setRecord r v s).turn = s.turn := rfl
@[simp] theorem setRecord_engine (r : Nat) (v : Record) (s : Part) : (setRecord r v s).engine = s.engine := rfl
@[simp] theorem setRecord_wave (r : Nat) (v : Record) (s : Part) : (setRecord r v s).wave = s.wave := rfl
@[simp] theorem setRecord_light (r : Nat) (v : Record) (s : Part) : (setRecord r v s).light = s.light := rfl
@[simp] theorem setRecord_battery (r : Nat) (v : Record) (s : Part) : (setRecord r v s).battery = s.battery := rfl
@[simp] theorem setRecord_power (r : Nat) (v : Record) (s : Part) : (setRecord r v s).power = s.power := rfl
@[simp] theorem setRecord_spool (r : Nat) (v : Record) (s : Part) : (setRecord r v s).spool = { s.spool with records := tableSet s.spool.records r v } := rfl
@[simp] theorem setRecord_flash (r : Nat) (v : Record) (s : Part) : (setRecord r v s).flash = s.flash := rfl
@[simp] theorem setRecord_fresh (r : Nat) (v : Record) (s : Part) : (setRecord r v s).fresh = s.fresh := rfl

/-! ### modifyRecord -/

@[simp] theorem modifyRecord_supply (r : Nat) (f : Record → Record) (s : Part) : (modifyRecord r f s).supply = s.supply := rfl
@[simp] theorem modifyRecord_pins (r : Nat) (f : Record → Record) (s : Part) : (modifyRecord r f s).pins = s.pins := rfl
@[simp] theorem modifyRecord_debounce (r : Nat) (f : Record → Record) (s : Part) : (modifyRecord r f s).debounce = s.debounce := rfl
@[simp] theorem modifyRecord_ports (r : Nat) (f : Record → Record) (s : Part) : (modifyRecord r f s).ports = s.ports := rfl
@[simp] theorem modifyRecord_rights (r : Nat) (f : Record → Record) (s : Part) : (modifyRecord r f s).rights = s.rights := rfl
@[simp] theorem modifyRecord_store (r : Nat) (f : Record → Record) (s : Part) : (modifyRecord r f s).store = s.store := rfl
@[simp] theorem modifyRecord_turn (r : Nat) (f : Record → Record) (s : Part) : (modifyRecord r f s).turn = s.turn := rfl
@[simp] theorem modifyRecord_engine (r : Nat) (f : Record → Record) (s : Part) : (modifyRecord r f s).engine = s.engine := rfl
@[simp] theorem modifyRecord_wave (r : Nat) (f : Record → Record) (s : Part) : (modifyRecord r f s).wave = s.wave := rfl
@[simp] theorem modifyRecord_light (r : Nat) (f : Record → Record) (s : Part) : (modifyRecord r f s).light = s.light := rfl
@[simp] theorem modifyRecord_battery (r : Nat) (f : Record → Record) (s : Part) : (modifyRecord r f s).battery = s.battery := rfl
@[simp] theorem modifyRecord_power (r : Nat) (f : Record → Record) (s : Part) : (modifyRecord r f s).power = s.power := rfl
@[simp] theorem modifyRecord_spool (r : Nat) (f : Record → Record) (s : Part) : (modifyRecord r f s).spool = { s.spool with records := tableSet s.spool.records r (f (record s r)) } := rfl
@[simp] theorem modifyRecord_flash (r : Nat) (f : Record → Record) (s : Part) : (modifyRecord r f s).flash = s.flash := rfl
@[simp] theorem modifyRecord_fresh (r : Nat) (f : Record → Record) (s : Part) : (modifyRecord r f s).fresh = s.fresh := rfl

/-! ### modifyFlash -/

@[simp] theorem modifyFlash_supply (f : Flash → Flash) (s : Part) : (modifyFlash f s).supply = s.supply := rfl
@[simp] theorem modifyFlash_pins (f : Flash → Flash) (s : Part) : (modifyFlash f s).pins = s.pins := rfl
@[simp] theorem modifyFlash_debounce (f : Flash → Flash) (s : Part) : (modifyFlash f s).debounce = s.debounce := rfl
@[simp] theorem modifyFlash_ports (f : Flash → Flash) (s : Part) : (modifyFlash f s).ports = s.ports := rfl
@[simp] theorem modifyFlash_rights (f : Flash → Flash) (s : Part) : (modifyFlash f s).rights = s.rights := rfl
@[simp] theorem modifyFlash_store (f : Flash → Flash) (s : Part) : (modifyFlash f s).store = s.store := rfl
@[simp] theorem modifyFlash_turn (f : Flash → Flash) (s : Part) : (modifyFlash f s).turn = s.turn := rfl
@[simp] theorem modifyFlash_engine (f : Flash → Flash) (s : Part) : (modifyFlash f s).engine = s.engine := rfl
@[simp] theorem modifyFlash_wave (f : Flash → Flash) (s : Part) : (modifyFlash f s).wave = s.wave := rfl
@[simp] theorem modifyFlash_light (f : Flash → Flash) (s : Part) : (modifyFlash f s).light = s.light := rfl
@[simp] theorem modifyFlash_battery (f : Flash → Flash) (s : Part) : (modifyFlash f s).battery = s.battery := rfl
@[simp] theorem modifyFlash_power (f : Flash → Flash) (s : Part) : (modifyFlash f s).power = s.power := rfl
@[simp] theorem modifyFlash_spool (f : Flash → Flash) (s : Part) : (modifyFlash f s).spool = s.spool := rfl
@[simp] theorem modifyFlash_flash (f : Flash → Flash) (s : Part) : (modifyFlash f s).flash = f s.flash := rfl
@[simp] theorem modifyFlash_fresh (f : Flash → Flash) (s : Part) : (modifyFlash f s).fresh = s.fresh := rfl

/-! ### modifyJournal -/

@[simp] theorem modifyJournal_supply (f : Journal → Journal) (s : Part) : (modifyJournal f s).supply = s.supply := rfl
@[simp] theorem modifyJournal_pins (f : Journal → Journal) (s : Part) : (modifyJournal f s).pins = s.pins := rfl
@[simp] theorem modifyJournal_debounce (f : Journal → Journal) (s : Part) : (modifyJournal f s).debounce = s.debounce := rfl
@[simp] theorem modifyJournal_ports (f : Journal → Journal) (s : Part) : (modifyJournal f s).ports = s.ports := rfl
@[simp] theorem modifyJournal_rights (f : Journal → Journal) (s : Part) : (modifyJournal f s).rights = s.rights := rfl
@[simp] theorem modifyJournal_store (f : Journal → Journal) (s : Part) : (modifyJournal f s).store = s.store := rfl
@[simp] theorem modifyJournal_turn (f : Journal → Journal) (s : Part) : (modifyJournal f s).turn = s.turn := rfl
@[simp] theorem modifyJournal_engine (f : Journal → Journal) (s : Part) : (modifyJournal f s).engine = s.engine := rfl
@[simp] theorem modifyJournal_wave (f : Journal → Journal) (s : Part) : (modifyJournal f s).wave = s.wave := rfl
@[simp] theorem modifyJournal_light (f : Journal → Journal) (s : Part) : (modifyJournal f s).light = s.light := rfl
@[simp] theorem modifyJournal_battery (f : Journal → Journal) (s : Part) : (modifyJournal f s).battery = s.battery := rfl
@[simp] theorem modifyJournal_power (f : Journal → Journal) (s : Part) : (modifyJournal f s).power = s.power := rfl
@[simp] theorem modifyJournal_spool (f : Journal → Journal) (s : Part) : (modifyJournal f s).spool = s.spool := rfl
@[simp] theorem modifyJournal_flash (f : Journal → Journal) (s : Part) : (modifyJournal f s).flash = { s.flash with journal := f s.flash.journal } := rfl
@[simp] theorem modifyJournal_fresh (f : Journal → Journal) (s : Part) : (modifyJournal f s).fresh = s.fresh := rfl

/-! ### modifyPower -/

@[simp] theorem modifyPower_supply (f : Power → Power) (s : Part) : (modifyPower f s).supply = s.supply := rfl
@[simp] theorem modifyPower_pins (f : Power → Power) (s : Part) : (modifyPower f s).pins = s.pins := rfl
@[simp] theorem modifyPower_debounce (f : Power → Power) (s : Part) : (modifyPower f s).debounce = s.debounce := rfl
@[simp] theorem modifyPower_ports (f : Power → Power) (s : Part) : (modifyPower f s).ports = s.ports := rfl
@[simp] theorem modifyPower_rights (f : Power → Power) (s : Part) : (modifyPower f s).rights = s.rights := rfl
@[simp] theorem modifyPower_store (f : Power → Power) (s : Part) : (modifyPower f s).store = s.store := rfl
@[simp] theorem modifyPower_turn (f : Power → Power) (s : Part) : (modifyPower f s).turn = s.turn := rfl
@[simp] theorem modifyPower_engine (f : Power → Power) (s : Part) : (modifyPower f s).engine = s.engine := rfl
@[simp] theorem modifyPower_wave (f : Power → Power) (s : Part) : (modifyPower f s).wave = s.wave := rfl
@[simp] theorem modifyPower_light (f : Power → Power) (s : Part) : (modifyPower f s).light = s.light := rfl
@[simp] theorem modifyPower_battery (f : Power → Power) (s : Part) : (modifyPower f s).battery = s.battery := rfl
@[simp] theorem modifyPower_power (f : Power → Power) (s : Part) : (modifyPower f s).power = f s.power := rfl
@[simp] theorem modifyPower_spool (f : Power → Power) (s : Part) : (modifyPower f s).spool = s.spool := rfl
@[simp] theorem modifyPower_flash (f : Power → Power) (s : Part) : (modifyPower f s).flash = s.flash := rfl
@[simp] theorem modifyPower_fresh (f : Power → Power) (s : Part) : (modifyPower f s).fresh = s.fresh := rfl

/-! ### modifySpool -/

@[simp] theorem modifySpool_supply (f : Spool → Spool) (s : Part) : (modifySpool f s).supply = s.supply := rfl
@[simp] theorem modifySpool_pins (f : Spool → Spool) (s : Part) : (modifySpool f s).pins = s.pins := rfl
@[simp] theorem modifySpool_debounce (f : Spool → Spool) (s : Part) : (modifySpool f s).debounce = s.debounce := rfl
@[simp] theorem modifySpool_ports (f : Spool → Spool) (s : Part) : (modifySpool f s).ports = s.ports := rfl
@[simp] theorem modifySpool_rights (f : Spool → Spool) (s : Part) : (modifySpool f s).rights = s.rights := rfl
@[simp] theorem modifySpool_store (f : Spool → Spool) (s : Part) : (modifySpool f s).store = s.store := rfl
@[simp] theorem modifySpool_turn (f : Spool → Spool) (s : Part) : (modifySpool f s).turn = s.turn := rfl
@[simp] theorem modifySpool_engine (f : Spool → Spool) (s : Part) : (modifySpool f s).engine = s.engine := rfl
@[simp] theorem modifySpool_wave (f : Spool → Spool) (s : Part) : (modifySpool f s).wave = s.wave := rfl
@[simp] theorem modifySpool_light (f : Spool → Spool) (s : Part) : (modifySpool f s).light = s.light := rfl
@[simp] theorem modifySpool_battery (f : Spool → Spool) (s : Part) : (modifySpool f s).battery = s.battery := rfl
@[simp] theorem modifySpool_power (f : Spool → Spool) (s : Part) : (modifySpool f s).power = s.power := rfl
@[simp] theorem modifySpool_spool (f : Spool → Spool) (s : Part) : (modifySpool f s).spool = f s.spool := rfl
@[simp] theorem modifySpool_flash (f : Spool → Spool) (s : Part) : (modifySpool f s).flash = s.flash := rfl
@[simp] theorem modifySpool_fresh (f : Spool → Spool) (s : Part) : (modifySpool f s).fresh = s.fresh := rfl

/-! ### modifyEngine -/

@[simp] theorem modifyEngine_supply (f : Engine → Engine) (s : Part) : (modifyEngine f s).supply = s.supply := rfl
@[simp] theorem modifyEngine_pins (f : Engine → Engine) (s : Part) : (modifyEngine f s).pins = s.pins := rfl
@[simp] theorem modifyEngine_debounce (f : Engine → Engine) (s : Part) : (modifyEngine f s).debounce = s.debounce := rfl
@[simp] theorem modifyEngine_ports (f : Engine → Engine) (s : Part) : (modifyEngine f s).ports = s.ports := rfl
@[simp] theorem modifyEngine_rights (f : Engine → Engine) (s : Part) : (modifyEngine f s).rights = s.rights := rfl
@[simp] theorem modifyEngine_store (f : Engine → Engine) (s : Part) : (modifyEngine f s).store = s.store := rfl
@[simp] theorem modifyEngine_turn (f : Engine → Engine) (s : Part) : (modifyEngine f s).turn = s.turn := rfl
@[simp] theorem modifyEngine_engine (f : Engine → Engine) (s : Part) : (modifyEngine f s).engine = f s.engine := rfl
@[simp] theorem modifyEngine_wave (f : Engine → Engine) (s : Part) : (modifyEngine f s).wave = s.wave := rfl
@[simp] theorem modifyEngine_light (f : Engine → Engine) (s : Part) : (modifyEngine f s).light = s.light := rfl
@[simp] theorem modifyEngine_battery (f : Engine → Engine) (s : Part) : (modifyEngine f s).battery = s.battery := rfl
@[simp] theorem modifyEngine_power (f : Engine → Engine) (s : Part) : (modifyEngine f s).power = s.power := rfl
@[simp] theorem modifyEngine_spool (f : Engine → Engine) (s : Part) : (modifyEngine f s).spool = s.spool := rfl
@[simp] theorem modifyEngine_flash (f : Engine → Engine) (s : Part) : (modifyEngine f s).flash = s.flash := rfl
@[simp] theorem modifyEngine_fresh (f : Engine → Engine) (s : Part) : (modifyEngine f s).fresh = s.fresh := rfl

/-! ### modifyTurn -/

@[simp] theorem modifyTurn_supply (f : Turn → Turn) (s : Part) : (modifyTurn f s).supply = s.supply := rfl
@[simp] theorem modifyTurn_pins (f : Turn → Turn) (s : Part) : (modifyTurn f s).pins = s.pins := rfl
@[simp] theorem modifyTurn_debounce (f : Turn → Turn) (s : Part) : (modifyTurn f s).debounce = s.debounce := rfl
@[simp] theorem modifyTurn_ports (f : Turn → Turn) (s : Part) : (modifyTurn f s).ports = s.ports := rfl
@[simp] theorem modifyTurn_rights (f : Turn → Turn) (s : Part) : (modifyTurn f s).rights = s.rights := rfl
@[simp] theorem modifyTurn_store (f : Turn → Turn) (s : Part) : (modifyTurn f s).store = s.store := rfl
@[simp] theorem modifyTurn_turn (f : Turn → Turn) (s : Part) : (modifyTurn f s).turn = f s.turn := rfl
@[simp] theorem modifyTurn_engine (f : Turn → Turn) (s : Part) : (modifyTurn f s).engine = s.engine := rfl
@[simp] theorem modifyTurn_wave (f : Turn → Turn) (s : Part) : (modifyTurn f s).wave = s.wave := rfl
@[simp] theorem modifyTurn_light (f : Turn → Turn) (s : Part) : (modifyTurn f s).light = s.light := rfl
@[simp] theorem modifyTurn_battery (f : Turn → Turn) (s : Part) : (modifyTurn f s).battery = s.battery := rfl
@[simp] theorem modifyTurn_power (f : Turn → Turn) (s : Part) : (modifyTurn f s).power = s.power := rfl
@[simp] theorem modifyTurn_spool (f : Turn → Turn) (s : Part) : (modifyTurn f s).spool = s.spool := rfl
@[simp] theorem modifyTurn_flash (f : Turn → Turn) (s : Part) : (modifyTurn f s).flash = s.flash := rfl
@[simp] theorem modifyTurn_fresh (f : Turn → Turn) (s : Part) : (modifyTurn f s).fresh = s.fresh := rfl

/-! ### modifyLight -/

@[simp] theorem modifyLight_supply (f : Light → Light) (s : Part) : (modifyLight f s).supply = s.supply := rfl
@[simp] theorem modifyLight_pins (f : Light → Light) (s : Part) : (modifyLight f s).pins = s.pins := rfl
@[simp] theorem modifyLight_debounce (f : Light → Light) (s : Part) : (modifyLight f s).debounce = s.debounce := rfl
@[simp] theorem modifyLight_ports (f : Light → Light) (s : Part) : (modifyLight f s).ports = s.ports := rfl
@[simp] theorem modifyLight_rights (f : Light → Light) (s : Part) : (modifyLight f s).rights = s.rights := rfl
@[simp] theorem modifyLight_store (f : Light → Light) (s : Part) : (modifyLight f s).store = s.store := rfl
@[simp] theorem modifyLight_turn (f : Light → Light) (s : Part) : (modifyLight f s).turn = s.turn := rfl
@[simp] theorem modifyLight_engine (f : Light → Light) (s : Part) : (modifyLight f s).engine = s.engine := rfl
@[simp] theorem modifyLight_wave (f : Light → Light) (s : Part) : (modifyLight f s).wave = s.wave := rfl
@[simp] theorem modifyLight_light (f : Light → Light) (s : Part) : (modifyLight f s).light = f s.light := rfl
@[simp] theorem modifyLight_battery (f : Light → Light) (s : Part) : (modifyLight f s).battery = s.battery := rfl
@[simp] theorem modifyLight_power (f : Light → Light) (s : Part) : (modifyLight f s).power = s.power := rfl
@[simp] theorem modifyLight_spool (f : Light → Light) (s : Part) : (modifyLight f s).spool = s.spool := rfl
@[simp] theorem modifyLight_flash (f : Light → Light) (s : Part) : (modifyLight f s).flash = s.flash := rfl
@[simp] theorem modifyLight_fresh (f : Light → Light) (s : Part) : (modifyLight f s).fresh = s.fresh := rfl

/-! ### modifyWave -/

@[simp] theorem modifyWave_supply (f : Wave → Wave) (s : Part) : (modifyWave f s).supply = s.supply := rfl
@[simp] theorem modifyWave_pins (f : Wave → Wave) (s : Part) : (modifyWave f s).pins = s.pins := rfl
@[simp] theorem modifyWave_debounce (f : Wave → Wave) (s : Part) : (modifyWave f s).debounce = s.debounce := rfl
@[simp] theorem modifyWave_ports (f : Wave → Wave) (s : Part) : (modifyWave f s).ports = s.ports := rfl
@[simp] theorem modifyWave_rights (f : Wave → Wave) (s : Part) : (modifyWave f s).rights = s.rights := rfl
@[simp] theorem modifyWave_store (f : Wave → Wave) (s : Part) : (modifyWave f s).store = s.store := rfl
@[simp] theorem modifyWave_turn (f : Wave → Wave) (s : Part) : (modifyWave f s).turn = s.turn := rfl
@[simp] theorem modifyWave_engine (f : Wave → Wave) (s : Part) : (modifyWave f s).engine = s.engine := rfl
@[simp] theorem modifyWave_wave (f : Wave → Wave) (s : Part) : (modifyWave f s).wave = f s.wave := rfl
@[simp] theorem modifyWave_light (f : Wave → Wave) (s : Part) : (modifyWave f s).light = s.light := rfl
@[simp] theorem modifyWave_battery (f : Wave → Wave) (s : Part) : (modifyWave f s).battery = s.battery := rfl
@[simp] theorem modifyWave_power (f : Wave → Wave) (s : Part) : (modifyWave f s).power = s.power := rfl
@[simp] theorem modifyWave_spool (f : Wave → Wave) (s : Part) : (modifyWave f s).spool = s.spool := rfl
@[simp] theorem modifyWave_flash (f : Wave → Wave) (s : Part) : (modifyWave f s).flash = s.flash := rfl
@[simp] theorem modifyWave_fresh (f : Wave → Wave) (s : Part) : (modifyWave f s).fresh = s.fresh := rfl

/-! ### modifyRights -/

@[simp] theorem modifyRights_supply (f : RightsUnit → RightsUnit) (s : Part) : (modifyRights f s).supply = s.supply := rfl
@[simp] theorem modifyRights_pins (f : RightsUnit → RightsUnit) (s : Part) : (modifyRights f s).pins = s.pins := rfl
@[simp] theorem modifyRights_debounce (f : RightsUnit → RightsUnit) (s : Part) : (modifyRights f s).debounce = s.debounce := rfl
@[simp] theorem modifyRights_ports (f : RightsUnit → RightsUnit) (s : Part) : (modifyRights f s).ports = s.ports := rfl
@[simp] theorem modifyRights_rights (f : RightsUnit → RightsUnit) (s : Part) : (modifyRights f s).rights = f s.rights := rfl
@[simp] theorem modifyRights_store (f : RightsUnit → RightsUnit) (s : Part) : (modifyRights f s).store = s.store := rfl
@[simp] theorem modifyRights_turn (f : RightsUnit → RightsUnit) (s : Part) : (modifyRights f s).turn = s.turn := rfl
@[simp] theorem modifyRights_engine (f : RightsUnit → RightsUnit) (s : Part) : (modifyRights f s).engine = s.engine := rfl
@[simp] theorem modifyRights_wave (f : RightsUnit → RightsUnit) (s : Part) : (modifyRights f s).wave = s.wave := rfl
@[simp] theorem modifyRights_light (f : RightsUnit → RightsUnit) (s : Part) : (modifyRights f s).light = s.light := rfl
@[simp] theorem modifyRights_battery (f : RightsUnit → RightsUnit) (s : Part) : (modifyRights f s).battery = s.battery := rfl
@[simp] theorem modifyRights_power (f : RightsUnit → RightsUnit) (s : Part) : (modifyRights f s).power = s.power := rfl
@[simp] theorem modifyRights_spool (f : RightsUnit → RightsUnit) (s : Part) : (modifyRights f s).spool = s.spool := rfl
@[simp] theorem modifyRights_flash (f : RightsUnit → RightsUnit) (s : Part) : (modifyRights f s).flash = s.flash := rfl
@[simp] theorem modifyRights_fresh (f : RightsUnit → RightsUnit) (s : Part) : (modifyRights f s).fresh = s.fresh := rfl

/-! ### stepFresh -/

@[simp] theorem stepFresh_supply (s : Part) : (stepFresh s).supply = s.supply := rfl
@[simp] theorem stepFresh_pins (s : Part) : (stepFresh s).pins = s.pins := rfl
@[simp] theorem stepFresh_debounce (s : Part) : (stepFresh s).debounce = s.debounce := rfl
@[simp] theorem stepFresh_ports (s : Part) : (stepFresh s).ports = s.ports := rfl
@[simp] theorem stepFresh_rights (s : Part) : (stepFresh s).rights = s.rights := rfl
@[simp] theorem stepFresh_store (s : Part) : (stepFresh s).store = s.store := rfl
@[simp] theorem stepFresh_turn (s : Part) : (stepFresh s).turn = s.turn := rfl
@[simp] theorem stepFresh_engine (s : Part) : (stepFresh s).engine = s.engine := rfl
@[simp] theorem stepFresh_wave (s : Part) : (stepFresh s).wave = s.wave := rfl
@[simp] theorem stepFresh_light (s : Part) : (stepFresh s).light = s.light := rfl
@[simp] theorem stepFresh_battery (s : Part) : (stepFresh s).battery = s.battery := rfl
@[simp] theorem stepFresh_power (s : Part) : (stepFresh s).power = s.power := rfl
@[simp] theorem stepFresh_spool (s : Part) : (stepFresh s).spool = s.spool := rfl
@[simp] theorem stepFresh_flash (s : Part) : (stepFresh s).flash = s.flash := rfl
@[simp] theorem stepFresh_fresh (s : Part) : (stepFresh s).fresh = s.fresh + 1 := rfl

/-! ### modifyDebounce -/

@[simp] theorem modifyDebounce_supply (f : Debouncers → Debouncers) (s : Part) : (modifyDebounce f s).supply = s.supply := rfl
@[simp] theorem modifyDebounce_pins (f : Debouncers → Debouncers) (s : Part) : (modifyDebounce f s).pins = s.pins := rfl
@[simp] theorem modifyDebounce_debounce (f : Debouncers → Debouncers) (s : Part) : (modifyDebounce f s).debounce = f s.debounce := rfl
@[simp] theorem modifyDebounce_ports (f : Debouncers → Debouncers) (s : Part) : (modifyDebounce f s).ports = s.ports := rfl
@[simp] theorem modifyDebounce_rights (f : Debouncers → Debouncers) (s : Part) : (modifyDebounce f s).rights = s.rights := rfl
@[simp] theorem modifyDebounce_store (f : Debouncers → Debouncers) (s : Part) : (modifyDebounce f s).store = s.store := rfl
@[simp] theorem modifyDebounce_turn (f : Debouncers → Debouncers) (s : Part) : (modifyDebounce f s).turn = s.turn := rfl
@[simp] theorem modifyDebounce_engine (f : Debouncers → Debouncers) (s : Part) : (modifyDebounce f s).engine = s.engine := rfl
@[simp] theorem modifyDebounce_wave (f : Debouncers → Debouncers) (s : Part) : (modifyDebounce f s).wave = s.wave := rfl
@[simp] theorem modifyDebounce_light (f : Debouncers → Debouncers) (s : Part) : (modifyDebounce f s).light = s.light := rfl
@[simp] theorem modifyDebounce_battery (f : Debouncers → Debouncers) (s : Part) : (modifyDebounce f s).battery = s.battery := rfl
@[simp] theorem modifyDebounce_power (f : Debouncers → Debouncers) (s : Part) : (modifyDebounce f s).power = s.power := rfl
@[simp] theorem modifyDebounce_spool (f : Debouncers → Debouncers) (s : Part) : (modifyDebounce f s).spool = s.spool := rfl
@[simp] theorem modifyDebounce_flash (f : Debouncers → Debouncers) (s : Part) : (modifyDebounce f s).flash = s.flash := rfl
@[simp] theorem modifyDebounce_fresh (f : Debouncers → Debouncers) (s : Part) : (modifyDebounce f s).fresh = s.fresh := rfl

end Sys2Proof.Machine
end

