-- ==== Sys2Proof/Laws/Table.lean ====
section
/-! SUPPORT. Reading a table, a pair of ports or an ascending list after a change to it. -/

namespace Sys2Proof.Machine

/-! ### Tables -/

@[simp] theorem tableSet_toList {α : Type} {n : Nat} (t : Vector α n) (i : Nat) (v : α) :
    (tableSet t i v).toList = t.toList.set i v := by
  simp [tableSet, Vector.toList]

@[simp] theorem tableMap_toList {α : Type} {n : Nat} (f : α → α) (t : Vector α n) :
    (tableMap f t).toList = t.toList.map f := by
  simp [tableMap, Vector.toList]

@[simp] theorem tableMapIdx_toList {α : Type} {n : Nat} (f : Nat → α → α) (t : Vector α n) :
    (tableMapIdx f t).toList = t.toList.mapIdx f := by
  simp [tableMapIdx, Vector.toList]

theorem tableGet_of_lt {α : Type} {n : Nat} (t : Vector α n) (i : Nat) (d : α) (h : i < n) :
    tableGet t i d = t[i] := by
  simp [tableGet, Vector.toList, List.getD, h]

theorem tableGet_of_ge {α : Type} {n : Nat} (t : Vector α n) (i : Nat) (d : α) (h : n ≤ i) : tableGet t i d = d := by
  have : ¬ i < n := by omega
  simp [tableGet, Vector.toList, List.getD, this]

/-- A read of the entry just replaced, at a place of the table. -/
theorem tableGet_tableSet_same {α : Type} {n : Nat} (t : Vector α n) (i : Nat) (v d : α) (h : i < n) :
    tableGet (tableSet t i v) i d = v := by
  simp [tableGet, List.getD, Vector.length_toList, h]

/-- A read of another entry than the one replaced. -/
theorem tableGet_tableSet_other {α : Type} {n : Nat} (t : Vector α n) (i j : Nat) (v d : α) (h : i ≠ j) :
    tableGet (tableSet t i v) j d = tableGet t j d := by
  simp [tableGet, List.getD, h]

/-- A replacement past the end of the table changes nothing. -/
theorem tableSet_of_ge {α : Type} {n : Nat} (t : Vector α n) (i : Nat) (v : α) (h : n ≤ i) : tableSet t i v = t := by
  have h' : t.toList.length ≤ i := by simpa using h
  apply Vector.toList_inj.mp
  simp [List.set_eq_of_length_le h']

/-- A read after a change of every entry. -/
theorem tableGet_tableMap {α : Type} {n : Nat} (f : α → α) (t : Vector α n) (i : Nat) (d : α) (h : i < n) :
    tableGet (tableMap f t) i d = f (tableGet t i d) := by
  simp [tableGet, List.getD, Vector.length_toList, h]

/-! ### The two ports -/

@[simp] theorem Both.get_set_same {α : Type} (x : Both α) (p : Port) (v : α) : (x.set p v).get p = v := by
  cases p <;> rfl

@[simp] theorem Both.get_set_peer {α : Type} (x : Both α) (p : Port) (v : α) : (x.set p v).get (peer p) = x.get (peer p) := by
  cases p <;> rfl

@[simp] theorem Both.get_set_of_peer {α : Type} (x : Both α) (p : Port) (v : α) : (x.set (peer p) v).get p = x.get p := by
  cases p <;> rfl

@[simp] theorem Both.set_set {α : Type} (x : Both α) (p : Port) (v w : α) : (x.set p v).set p w = x.set p w := by
  cases p <;> rfl

@[simp] theorem Both.set_get {α : Type} (x : Both α) (p : Port) : x.set p (x.get p) = x := by
  cases p <;> rfl

@[simp] theorem Both.get_modify_same {α : Type} (x : Both α) (p : Port) (f : α → α) :
    (x.modify p f).get p = f (x.get p) := by
  simp [Both.modify]

@[simp] theorem Both.get_modify_peer {α : Type} (x : Both α) (p : Port) (f : α → α) :
    (x.modify p f).get (peer p) = x.get (peer p) := by
  simp [Both.modify]

@[simp] theorem Both.get_modify_of_peer {α : Type} (x : Both α) (p : Port) (f : α → α) :
    (x.modify (peer p) f).get p = x.get p := by
  simp [Both.modify]

@[simp] theorem peer_peer (p : Port) : peer (peer p) = p := by cases p <;> rfl

/-! ### Slots and records -/

@[simp] theorem slot_setSlot_same (s : Part) (i : Nat) (v : Slot) (h : i < 32) : slot (setSlot i v s) i = v := by
  simpa [slot] using tableGet_tableSet_same s.store.slots i v emptySlot h

theorem slot_setSlot_other (s : Part) (i j : Nat) (v : Slot) (h : i ≠ j) : slot (setSlot i v s) j = slot s j := by
  simpa [slot] using tableGet_tableSet_other s.store.slots i j v emptySlot h

@[simp] theorem record_setRecord_same (s : Part) (r : Nat) (v : Record) (h : r < 32) : record (setRecord r v s) r = v := by
  simpa [record] using tableGet_tableSet_same s.spool.records r v freeRecord h

theorem record_setRecord_other (s : Part) (r q : Nat) (v : Record) (h : r ≠ q) : record (setRecord r v s) q = record s q := by
  simpa [record] using tableGet_tableSet_other s.spool.records r q v freeRecord h

/-! ### Ascending lists -/

theorem mem_insertAscending (n m : Nat) (l : List Nat) : m ∈ insertAscending n l ↔ m = n ∨ m ∈ l := by
  induction l with
  | nil => simp [insertAscending]
  | cons a l ih =>
      simp only [insertAscending]
      split
      · simp
      · split
        · simp_all
        · simp only [List.mem_cons, ih]; tauto

end Sys2Proof.Machine
end

