-- ==== Sys2Proof/Laws/Flash.lean ====
section
/-! SUPPORT. How far the spool controller and the flash engine reach: what the arbiter does touches the ports, the spool
and the flash engine, and nothing else of the part; what a page read gives, and what the end of an allocation's erase can
do. -/

namespace Sys2Proof.Machine

/-- `t` differs from `s` in the ports, the spool and the flash engine at most. -/
def SpoolSide (s t : Part) : Prop := t = { s with ports := t.ports, spool := t.spool, flash := t.flash }

theorem SpoolSide.refl (s : Part) : SpoolSide s s := rfl

/-- What a part shares with `s` on the other side, field by field. -/
theorem spoolSide_iff (s t : Part) :
    SpoolSide s t ↔
      t.supply = s.supply ∧ t.pins = s.pins ∧ t.debounce = s.debounce ∧ t.rights = s.rights ∧ t.store = s.store
        ∧ t.turn = s.turn ∧ t.engine = s.engine ∧ t.wave = s.wave ∧ t.light = s.light ∧ t.battery = s.battery
        ∧ t.power = s.power ∧ t.fresh = s.fresh := by
  cases s; cases t; simp [SpoolSide]

/-- An update of the ports, the spool or the flash engine stays on that side. -/
theorem spoolSide_congr {s t u : Part} (h : SpoolSide t u) : SpoolSide s u ↔ SpoolSide s t := by
  simp only [spoolSide_iff] at h ⊢
  simp only [h]

@[simp] theorem spoolSide_modifyFlash (s t : Part) (f : Flash → Flash) : SpoolSide s (modifyFlash f t) ↔ SpoolSide s t :=
  spoolSide_congr rfl
@[simp] theorem spoolSide_modifyJournal (s t : Part) (f : Journal → Journal) :
    SpoolSide s (modifyJournal f t) ↔ SpoolSide s t := spoolSide_congr rfl
@[simp] theorem spoolSide_modifySpool (s t : Part) (f : Spool → Spool) : SpoolSide s (modifySpool f t) ↔ SpoolSide s t :=
  spoolSide_congr rfl
@[simp] theorem spoolSide_modifyPort (s t : Part) (p : Port) (f : PortUnit → PortUnit) :
    SpoolSide s (modifyPort p f t) ↔ SpoolSide s t := spoolSide_congr rfl
@[simp] theorem spoolSide_setRecord (s t : Part) (r : Nat) (v : Record) : SpoolSide s (setRecord r v t) ↔ SpoolSide s t :=
  spoolSide_congr rfl
@[simp] theorem spoolSide_modifyRecord (s t : Part) (r : Nat) (f : Record → Record) :
    SpoolSide s (modifyRecord r f t) ↔ SpoolSide s t := spoolSide_congr rfl
@[simp] theorem spoolSide_raise (s t : Part) (p : Port) (k : NoticeKind) (d : List Byte) :
    SpoolSide s (raise p k d t) ↔ SpoolSide s t := spoolSide_congr rfl
@[simp] theorem spoolSide_raiseBoth (s t : Part) (k : NoticeKind) (d : List Byte) :
    SpoolSide s (raiseBoth k d t) ↔ SpoolSide s t := by simp [raiseBoth]
@[simp] theorem spoolSide_raiseFlash (s t : Part) (d : List Byte) : SpoolSide s (raiseFlash d t) ↔ SpoolSide s t := by
  simp [raiseFlash]
@[simp] theorem spoolSide_queueEntry (s t : Part) (e : JEntry) : SpoolSide s (queueEntry e t) ↔ SpoolSide s t := by
  simp [queueEntry]
@[simp] theorem spoolSide_beginOperation (s t : Part) (o : Operation) (j : Job) :
    SpoolSide s (beginOperation o j t) ↔ SpoolSide s t := by simp [beginOperation]
@[simp] theorem spoolSide_beginReading (s t : Part) (r : Nat) (o : Operation) (j : Job) :
    SpoolSide s (beginReading r o j t) ↔ SpoolSide s t := by simp [beginReading]
@[simp] theorem spoolSide_setRecovery (s t : Part) (x : Option Recovery) : SpoolSide s (setRecovery x t) ↔ SpoolSide s t := by
  simp [setRecovery]
@[simp] theorem spoolSide_modifyRing (s t : Part) (f : List Staged → List Staged) :
    SpoolSide s (modifyRing f t) ↔ SpoolSide s t := by simp [modifyRing]
@[simp] theorem spoolSide_setStaged (s t : Part) (r p : Nat) (x : StagedState) :
    SpoolSide s (setStaged r p x t) ↔ SpoolSide s t := by simp [setStaged]
@[simp] theorem spoolSide_dropStaged (s t : Part) (r : Nat) : SpoolSide s (dropStaged r t) ↔ SpoolSide s t := by
  simp [dropStaged]
@[simp] theorem spoolSide_takeFree (s t : Part) (b : Nat) : SpoolSide s (takeFree b t) ↔ SpoolSide s t := by simp [takeFree]
@[simp] theorem spoolSide_drawReservation (s t : Part) (r : Nat) : SpoolSide s (drawReservation r t) ↔ SpoolSide s t := by
  simp [drawReservation]
@[simp] theorem spoolSide_extend (s t : Part) (r b : Nat) : SpoolSide s (extend r b t) ↔ SpoolSide s t := by simp [extend]
@[simp] theorem spoolSide_faultRecord (s t : Part) (r : Nat) : SpoolSide s (faultRecord r t) ↔ SpoolSide s t := by
  simp [faultRecord]
@[simp] theorem spoolSide_failRecovery (s t : Part) (x : Recovery) : SpoolSide s (failRecovery x t) ↔ SpoolSide s t := by
  simp [failRecovery]

@[simp] theorem spoolSide_ringSpace (s b t : Part) : SpoolSide s (ringSpace b t) ↔ SpoolSide s t := by
  unfold ringSpace; split <;> simp

@[simp] theorem spoolSide_serveJournal (s t : Part) : SpoolSide s (serveJournal t) ↔ SpoolSide s t := by
  unfold serveJournal; repeat' (first | split | simp [beginCompactionStep])
@[simp] theorem spoolSide_serveSystem (s t : Part) : SpoolSide s (serveSystem t) ↔ SpoolSide s t := by
  unfold serveSystem; split <;> simp
@[simp] theorem spoolSide_serveFetch (s t : Part) : SpoolSide s (serveFetch t) ↔ SpoolSide s t := by
  unfold serveFetch; repeat' (first | split | simp [beginFetch])
@[simp] theorem spoolSide_serveStaging (s t : Part) : SpoolSide s (serveStaging t).1 ↔ SpoolSide s t := by
  unfold serveStaging; repeat' (first | split | simp [beginStaging, takeBlock])
@[simp] theorem spoolSide_giveUpScrub (s t : Part) : SpoolSide s (giveUpScrub t) ↔ SpoolSide s t := by
  unfold giveUpScrub; split <;> simp
@[simp] theorem spoolSide_beginRecoveryStep (s t : Part) (x : Recovery) (y : Nat) :
    SpoolSide s (beginRecoveryStep x y t) ↔ SpoolSide s t := by
  unfold beginRecoveryStep; repeat' (first | split | simp)
@[simp] theorem spoolSide_serveRecovery (s t : Part) (x : Recovery) : SpoolSide s (serveRecovery x t).1 ↔ SpoolSide s t := by
  unfold serveRecovery; repeat' (first | split | simp)
@[simp] theorem spoolSide_serveSpool (s t : Part) : SpoolSide s (serveSpool t).1 ↔ SpoolSide s t := by
  unfold serveSpool; split <;> simp
@[simp] theorem spoolSide_dropScrubHead (s t : Part) : SpoolSide s (dropScrubHead t) ↔ SpoolSide s t := by
  simp [dropScrubHead]
@[simp] theorem spoolSide_serveScrubHeads (s : Part) (n : Nat) : ∀ t, SpoolSide s (serveScrubHeads n t) ↔ SpoolSide s t := by
  induction n with
  | zero => intro t; simp [serveScrubHeads]
  | succ n ih => intro t; unfold serveScrubHeads; repeat' (first | split | simp [ih, beginScrub])
@[simp] theorem spoolSide_serveScrub (s t : Part) : SpoolSide s (serveScrub t) ↔ SpoolSide s t := by
  unfold serveScrub; repeat' (first | split | simp)
@[simp] theorem spoolSide_serveEraser (s t : Part) : SpoolSide s (serveEraser t) ↔ SpoolSide s t := by
  unfold serveEraser; repeat' (first | split | simp)
@[simp] theorem spoolSide_orServe (s t : Part) (f : Part → Part) (hf : ∀ t, SpoolSide s (f t) ↔ SpoolSide s t) :
    SpoolSide s (orServe f t) ↔ SpoolSide s t := by
  unfold orServe; split <;> simp [hf]

theorem spoolSide_serveClasses (s : Part) (n : Nat) : ∀ t, SpoolSide s (serveClasses n t) ↔ SpoolSide s t := by
  induction n with
  | zero => intro t; simp [serveClasses]
  | succ n ih =>
      intro t
      have e : SpoolSide s (orServe serveFetch (orServe serveSystem (serveJournal t))) ↔ SpoolSide s t := by simp
      simp only [serveClasses]
      split
      · split
        · rename_i u h
          have hu := spoolSide_serveSpool s (orServe serveFetch (orServe serveSystem (serveJournal t)))
          rw [h] at hu
          rw [ih, hu, e]
        · rename_i u h
          have hu := spoolSide_serveSpool s (orServe serveFetch (orServe serveSystem (serveJournal t)))
          rw [h] at hu
          have hs : SpoolSide s (orServe serveEraser (orServe serveScrub u)) ↔ SpoolSide s u := by simp
          rw [hs, hu, e]
      · exact e

/-- The arbiter touches the ports, the spool and the flash engine only. -/
@[simp] theorem spoolSide_arbitrate (s t : Part) : SpoolSide s (arbitrate t) ↔ SpoolSide s t := by
  unfold arbitrate; split
  · exact spoolSide_serveClasses s 33 t
  · exact Iff.rfl

theorem arbitrate_side (s : Part) : SpoolSide s (arbitrate s) := (spoolSide_arbitrate s s).mpr (SpoolSide.refl s)

@[simp] theorem spoolSide_thenArbitrate (s t : Part) (f : Part → Part) :
    SpoolSide s (thenArbitrate f t) ↔ SpoolSide s (f t) := by simp [thenArbitrate]

/-! ### A page read (R158) -/

/-- A programmed page never reads ERASED, whatever its data. -/
theorem readOutcome_programmed (data spare : List Byte) (fresh address : Nat) (ecc : List Sector) :
    readOutcome (some (.programmed data spare)) fresh address ecc ≠ .erased := by
  unfold readOutcome; split <;> simp

/-- An erased page reads ERASED exactly when no sector and no more than 8 spare bits of it are wrong. -/
theorem readOutcome_erased (fresh address : Nat) (ecc : List Sector) :
    readOutcome none fresh address ecc = .erased ↔ anyFails ecc = false ∧ spareFails ecc = false := by
  unfold readOutcome
  cases anyFails ecc <;> cases spareFails ecc <;> simp

/-- A page of 4,096 programmed bytes without a wrong sector reads as programmed. -/
theorem readBytes_programmed (data spare : List Byte) (fresh address : Nat) (h : data.length = 4096) :
    readBytes (some (.programmed data spare)) fresh address [] = data := by
  refine List.ext_getElem? fun i => ?_
  have hf : ∀ k, byteFails [] k = false := fun k => rfl
  simp only [readBytes, hf, List.getElem?_map, byteAt, List.getD_eq_getElem?_getD, Config.pageBytes]
  by_cases hi : i < 4096
  · rw [List.getElem?_range hi]; simp [List.getElem?_eq_getElem (h ▸ hi)]
  · rw [List.getElem?_eq_none (by simp; omega), List.getElem?_eq_none (by omega)]; rfl

/-- A page cut from a run of bytes holds 4,096 of them. -/
theorem pageOf_length (bs : List Byte) (i : Nat) : (pageOf bs i).length = 4096 := by
  rw [pageOf, padPage, padTo, List.length_take, List.length_append, List.length_replicate]
  simp only [Config.pageBytes]; omega

/-- A four-byte field is read back where it was written (R196). -/
theorem wordAt_leWord (xs : List Byte) (w : Word) : wordAt (xs ++ leWord w) xs.length = w := by
  unfold wordAt byteAt
  simp only [List.getD_eq_getElem?_getD, List.getElem?_append_right (Nat.le_add_right _ _),
    List.getElem?_append_right (Nat.le_refl _), Nat.add_sub_cancel_left, Nat.sub_self, leWord,
    List.getElem?_cons_succ, List.getElem?_cons_zero, Option.getD_some]
  refine BitVec.eq_of_getElem_eq fun i hi => ?_
  simp only [BitVec.getElem_append, BitVec.getElem_extractLsb']
  split
  · rw [Nat.zero_add]; rfl
  · split
    · rw [show 8 + (i - 8) = i by omega]; rfl
    · split
      · rw [show 16 + (i - 8 - 8) = i by omega]; rfl
      · rw [show 24 + (i - 8 - 8 - 8) = i by omega]; rfl

/-- Page `i + 1` of a run is page `i` of the rest. -/
theorem pageOf_succ (bs : List Byte) (i : Nat) : pageOf bs (i + 1) = pageOf (bs.drop 4096) i := by
  simp [pageOf, Config.pageBytes, Nat.mul_add, Nat.add_comm]
/-- What is cut into pages and written is read back, whole, from pages read in order (R67, R126). -/
theorem take_flatMap_pageOf : ∀ (n : Nat) (bs : List Byte), bs.length ≤ 4096 * n →
    ((List.range n).flatMap (pageOf bs)).take bs.length = bs
  | 0, bs, h => by simp at h; simp [h]
  | n + 1, bs, h => by
    have e : ∀ l : List Nat, (l.map Nat.succ).flatMap (pageOf bs) = l.flatMap (pageOf (bs.drop 4096)) := fun l => by
      simp [List.flatMap_map, pageOf_succ]
    rw [List.range_succ_eq_map, List.flatMap_cons, e]
    have hp : pageOf bs 0 = (bs.take 4096 ++ List.replicate 4096 0xFF).take 4096 := by
      rw [pageOf, padPage, padTo, Nat.mul_zero, List.drop_zero]
    by_cases hl : bs.length ≤ 4096
    · rw [List.take_of_length_le hl] at hp
      have hw : ((bs ++ List.replicate 4096 (0xFF : Byte)).take 4096).length = 4096 := by
        rw [List.length_take, List.length_append, List.length_replicate]; omega
      rw [hp, List.take_append_of_le_length (by omega), List.take_take, Nat.min_eq_left hl, List.take_left]
    · have ht : (bs.take 4096).length = 4096 := by simp; omega
      have hp' : pageOf bs 0 = bs.take 4096 := by
        rw [hp, List.take_append_of_le_length (by omega), List.take_of_length_le (by omega)]
      have ih := take_flatMap_pageOf n (bs.drop 4096) (by simp; omega)
      rw [List.length_drop] at ih
      rw [hp', List.take_append, ht, ih, List.take_take, Nat.min_eq_right (by omega), List.take_append_drop]

/-! ### The arbiter does nothing (R123, R158, R160) -/

theorem arbitrate_of_not_runs (s : Part) (h : engineRuns s = false) : arbitrate s = s := by simp [arbitrate, h]

theorem arbitrate_of_busy (s : Part) (h : engineIdle s = false) : arbitrate s = s := by simp [arbitrate, h]

/-- The arm is clear after the ring was emptied (R171, R174). -/
@[simp] theorem emptySpool_arm (s : Part) : (emptySpool s).spool.arm = false := rfl

/-- An event that leaves the occupancy as it was raises no RING_SPACE (R141). -/
theorem ringSpace_of_same (b s : Part) (h : occupancy s = occupancy b) : ringSpace b s = s := by
  unfold ringSpace
  rw [if_neg]
  simp only [Bool.and_eq_true, decide_eq_true_eq, h]
  omega

/-! ### The end of an allocation's erase (R142, R143) -/

/-- The first FULL entry of a record in the ring is its oldest (R142). -/
theorem oldestFullOf_of_split (r : Nat) (s : Part) (before after : List Staged) (e : Staged)
    (h : s.spool.ring = before ++ e :: after) (hr : e.record = r) (he : e.state = .full)
    (hb : ∀ y, y ∈ before → y.record = r → y.state ≠ .full) : oldestFullOf r s = some e := by
  have : before.find? (fun e => decide (e.record = r) && decide (e.state = .full)) = none := by
    simpa [List.find?_eq_none] using hb
  simp [oldestFullOf, h, List.find?_append, this, hr, he]

theorem oldestFullOf_eq_none {r : Nat} {s : Part} :
    oldestFullOf r s = none ↔ ∀ y, y ∈ s.spool.ring → y.record = r → y.state ≠ .full := by
  simp [oldestFullOf, List.find?_eq_none]

/-- What the end of an allocation's erase can do: the block is taken for the record's own oldest FULL entry, or joins the
free pool (R143). -/
theorem allocationErased_cases (r b : Nat) (s : Part) :
    (∃ e, oldestFullOf r s = some e ∧ needsBlock e s = true ∧ mayDraw r s = true ∧ s.flash.recovery = none
      ∧ allocationErased r b s = takeBlock r b (modifyFlash (unpend b) s))
    ∨ ((∀ e, oldestFullOf r s = some e → needsBlock e s = false ∨ mayDraw r s = false ∨ s.flash.recovery ≠ none)
      ∧ allocationErased r b s = modifyFlash (joinFree b) s) := by
  unfold allocationErased
  split
  · next h => exact .inr ⟨by simp [h], rfl⟩
  · next e h =>
    split
    · next c => exact .inl ⟨e, h, c.1, c.2.1, by simpa using c.2.2, rfl⟩
    · next c =>
      refine .inr ⟨fun x hx => ?_, rfl⟩
      cases h.symm.trans hx
      by_contra hc
      simp only [not_or, Bool.not_eq_false, not_not] at hc
      exact c ⟨hc.1, hc.2.1, by simp [hc.2.2]⟩

end Sys2Proof.Machine
end

