-- ==== Sys2Proof/Laws/Memory.lean ====
section
/-! SUPPORT. The canonical form of the DRAM and of the array: every operation keeps it, and a read after a write gives
the byte written at that place and the byte that was there elsewhere. -/

namespace Sys2Proof.Machine

/-! ### The canonical form of the DRAM -/

theorem Memory.risesFrom_weaken {lo lo' : Nat} (h : lo' ≤ lo) :
    ∀ m : List Host.Cell, Memory.risesFrom lo m = true → Memory.risesFrom lo' m = true
  | [], _ => rfl
  | (k, v) :: m, hm => by
      simp only [Memory.risesFrom, Bool.and_eq_true, decide_eq_true_eq] at hm ⊢
      exact ⟨⟨by omega, hm.1.2⟩, hm.2⟩

theorem Memory.read_below {lo a : Nat} (h : a < lo) :
    ∀ m : List Host.Cell, Memory.risesFrom lo m = true → Memory.read m a = Memory.unlisted
  | [], _ => rfl
  | (k, v) :: m, hm => by
      simp only [Memory.risesFrom, Bool.and_eq_true, decide_eq_true_eq] at hm
      have hk : k ≠ a := by omega
      simp only [Memory.read, hk, if_false]
      exact Memory.read_below (by omega) m hm.2

theorem Memory.risesFrom_write {lo : Nat} (a : Nat) (v : Byte) (h : lo ≤ a) :
    ∀ m : List Host.Cell, Memory.risesFrom lo m = true → Memory.risesFrom lo (Memory.write m a v) = true := by
  intro m
  induction m generalizing lo with
  | nil =>
      intro _
      simp only [Memory.write]
      split
      · rfl
      · rename_i hv; simp [Memory.risesFrom, h, hv]
  | cons c m ih =>
      obtain ⟨k, w⟩ := c
      intro hm
      have hm' := hm
      simp only [Memory.risesFrom, Bool.and_eq_true, decide_eq_true_eq] at hm'
      obtain ⟨⟨hlo, hw⟩, hrest⟩ := hm'
      simp only [Memory.write]
      split
      · rename_i hak
        split
        · exact hm
        · rename_i hv
          simp only [Memory.risesFrom, Bool.and_eq_true, decide_eq_true_eq]
          exact ⟨⟨h, by simpa using hv⟩, ⟨by omega, hw⟩, hrest⟩
      · split
        · rename_i hak
          split
          · exact Memory.risesFrom_weaken (by omega) m hrest
          · rename_i hv
            simp only [Memory.risesFrom, Bool.and_eq_true, decide_eq_true_eq]
            exact ⟨⟨h, by simpa using hv⟩, by rw [hak]; exact hrest⟩
        · simp only [Memory.risesFrom, Bool.and_eq_true, decide_eq_true_eq]
          exact ⟨⟨hlo, hw⟩, ih (by omega) hrest⟩

/-- A write keeps the canonical form. -/
theorem Memory.wf_write (m : List Host.Cell) (a : Nat) (v : Byte) (h : Memory.wf m = true) :
    Memory.wf (Memory.write m a v) = true := Memory.risesFrom_write a v (Nat.zero_le a) m h

/-- A run of writes keeps the canonical form. -/
theorem Memory.wf_writeRun (bs : List Byte) :
    ∀ (m : List Host.Cell) (a : Nat), Memory.wf m = true → Memory.wf (Memory.writeRun m a bs) = true := by
  induction bs with
  | nil => intro m a h; exact h
  | cons b bs ih => intro m a h; exact ih _ _ (Memory.wf_write m a b h)

theorem Memory.risesFrom_filter (f : Host.Cell → Bool) :
    ∀ (m : List Host.Cell) (lo : Nat), Memory.risesFrom lo m = true → Memory.risesFrom lo (m.filter f) = true := by
  intro m
  induction m with
  | nil => intro lo _; rfl
  | cons c m ih =>
      obtain ⟨k, v⟩ := c
      intro lo hm
      simp only [Memory.risesFrom, Bool.and_eq_true, decide_eq_true_eq] at hm
      simp only [List.filter_cons]
      split
      · simp only [Memory.risesFrom, Bool.and_eq_true, decide_eq_true_eq]
        exact ⟨hm.1, ih _ hm.2⟩
      · exact Memory.risesFrom_weaken (by omega) _ (ih _ hm.2)

/-- A clear keeps the canonical form. -/
theorem Memory.wf_clear (m : List Host.Cell) (lo hi : Nat) (h : Memory.wf m = true) :
    Memory.wf (Memory.clear m lo hi) = true := Memory.risesFrom_filter _ m 0 h

/-! ### Reading after writing -/

theorem Memory.read_write_from {lo : Nat} (a : Nat) (v : Byte) (x : Nat) :
    ∀ m : List Host.Cell, Memory.risesFrom lo m = true →
      Memory.read (Memory.write m a v) x = if x = a then v else Memory.read m x := by
  intro m
  induction m generalizing lo with
  | nil =>
      intro _
      simp only [Memory.write]
      by_cases hx : x = a
      · by_cases hv : v = Memory.unlisted <;> simp [hv, hx, Memory.read]
      · by_cases hv : v = Memory.unlisted <;> simp [hv, hx, Memory.read, Ne.symm hx]
  | cons c m ih =>
      obtain ⟨k, w⟩ := c
      intro hm
      have hm' := hm
      simp only [Memory.risesFrom, Bool.and_eq_true, decide_eq_true_eq] at hm'
      obtain ⟨⟨hlo, hw⟩, hrest⟩ := hm'
      simp only [Memory.write]
      by_cases h1 : a < k
      · simp only [h1, if_true]
        by_cases hv : v = Memory.unlisted
        · simp only [hv, if_true]
          by_cases hx : x = a
          · subst hx
            have hk : k ≠ x := by omega
            simp only [Memory.read, hk, if_false, if_true]
            exact Memory.read_below (by omega) m hrest
          · simp [hx]
        · simp only [hv, if_false, Memory.read]
          by_cases hx : x = a
          · simp [hx]
          · simp [hx, Ne.symm hx]
      · simp only [h1, if_false]
        by_cases h2 : a = k
        · simp only [h2, if_true]
          by_cases hv : v = Memory.unlisted
          · simp only [hv, if_true]
            by_cases hx : x = k
            · subst hx; simp only [if_true]; exact Memory.read_below (by omega) m hrest
            · simp [hx, Memory.read, Ne.symm hx]
          · simp only [hv, if_false, Memory.read]
            by_cases hx : x = k
            · simp [hx]
            · simp [hx, Ne.symm hx]
        · simp only [h2, if_false, Memory.read]
          by_cases hk : k = x
          · have : x ≠ a := by omega
            simp [hk, this]
          · simp only [hk, if_false]; exact ih hrest

/-- A read after a write: the byte written at its place, and the byte that was there elsewhere. -/
theorem Memory.read_write (m : List Host.Cell) (a : Nat) (v : Byte) (x : Nat) (h : Memory.wf m = true) :
    Memory.read (Memory.write m a v) x = if x = a then v else Memory.read m x :=
  Memory.read_write_from a v x m h

/-- A read after a run of writes. -/
theorem Memory.read_writeRun (bs : List Byte) :
    ∀ (m : List Host.Cell) (a x : Nat), Memory.wf m = true →
      Memory.read (Memory.writeRun m a bs) x
        = if a ≤ x ∧ x < a + bs.length then bs.getD (x - a) Memory.unlisted else Memory.read m x := by
  induction bs with
  | nil =>
      intro m a x _
      have : ¬ (a ≤ x ∧ x < a + ([] : List Byte).length) := by simp
      rw [if_neg this]; rfl
  | cons b bs ih =>
      intro m a x h
      simp only [Memory.writeRun]
      rw [ih _ _ _ (Memory.wf_write m a b h), Memory.read_write m a b x h]
      by_cases h1 : x = a
      · subst h1; simp
      · by_cases h2 : a + 1 ≤ x ∧ x < a + 1 + bs.length
        · rw [if_pos h2, if_pos (by simp; omega)]
          obtain ⟨n, hn⟩ : ∃ n, x - a = n + 1 := ⟨x - a - 1, by omega⟩
          rw [hn, show x - (a + 1) = n by omega, List.getD_cons_succ]
        · rw [if_neg h2, if_neg h1, if_neg (by simp; omega)]

/-- A read after the removal of whole addresses. -/
theorem Memory.read_filter (f : Host.Cell → Bool) (x : Nat) (keep : Bool) (hf : ∀ v, f (x, v) = keep) :
    ∀ m : List Host.Cell, Memory.read (m.filter f) x = if keep then Memory.read m x else Memory.unlisted := by
  intro m
  induction m with
  | nil => cases keep <;> rfl
  | cons c m ih =>
      obtain ⟨k, v⟩ := c
      by_cases hk : k = x
      · subst hk
        cases keep with
        | true => simp [hf, Memory.read]
        | false => simp only [List.filter_cons, hf, Bool.false_eq_true, if_false]; simpa using ih
      · simp only [List.filter_cons]
        split
        · simp only [Memory.read, hk, if_false]; exact ih
        · simp only [Memory.read, hk, if_false]; exact ih

/-- A read after a clear: 0xFF inside it, and the byte that was there outside. -/
theorem Memory.read_clear (m : List Host.Cell) (lo hi x : Nat) :
    Memory.read (Memory.clear m lo hi) x = if lo ≤ x ∧ x < hi then Memory.unlisted else Memory.read m x := by
  have := Memory.read_filter (fun c => decide (c.1 < lo) || decide (hi ≤ c.1)) x
    (decide (x < lo) || decide (hi ≤ x)) (fun _ => rfl) m
  rw [Memory.clear, this]
  by_cases h1 : lo ≤ x ∧ x < hi
  · have : ¬ (x < lo) ∧ ¬ (hi ≤ x) := by omega
    simp [h1, this]
  · have : x < lo ∨ hi ≤ x := by omega
    simp [h1, this]

/-! ### The canonical form of the array -/

theorem Nand.risesFrom_weaken {lo lo' : Nat} (h : lo' ≤ lo) :
    ∀ m : List (Nat × Page), Nand.risesFrom lo m = true → Nand.risesFrom lo' m = true
  | [], _ => rfl
  | (k, v) :: m, hm => by
      simp only [Nand.risesFrom, Bool.and_eq_true, decide_eq_true_eq] at hm ⊢
      exact ⟨by omega, hm.2⟩

theorem Nand.risesFrom_put {lo : Nat} (a : Nat) (v : Page) (h : lo ≤ a) :
    ∀ m : List (Nat × Page), Nand.risesFrom lo m = true → Nand.risesFrom lo (Nand.put m a v) = true := by
  intro m
  induction m generalizing lo with
  | nil => intro _; simp [Nand.put, Nand.risesFrom, h]
  | cons c m ih =>
      obtain ⟨k, w⟩ := c
      intro hm
      simp only [Nand.risesFrom, Bool.and_eq_true, decide_eq_true_eq] at hm
      simp only [Nand.put]
      split
      · simp only [Nand.risesFrom, Bool.and_eq_true, decide_eq_true_eq]
        exact ⟨h, by omega, hm.2⟩
      · split
        · rename_i hak
          simp only [Nand.risesFrom, Bool.and_eq_true, decide_eq_true_eq]
          exact ⟨h, by rw [hak]; exact hm.2⟩
        · simp only [Nand.risesFrom, Bool.and_eq_true, decide_eq_true_eq]
          exact ⟨hm.1, ih (by omega) hm.2⟩

/-- A page put keeps the canonical form. -/
theorem Nand.wf_put (m : List (Nat × Page)) (a : Nat) (v : Page) (h : Nand.wf m = true) :
    Nand.wf (Nand.put m a v) = true := Nand.risesFrom_put a v (Nat.zero_le a) m h

theorem Nand.risesFrom_filter (f : Nat × Page → Bool) :
    ∀ (m : List (Nat × Page)) (lo : Nat), Nand.risesFrom lo m = true → Nand.risesFrom lo (m.filter f) = true := by
  intro m
  induction m with
  | nil => intro lo _; rfl
  | cons c m ih =>
      obtain ⟨k, v⟩ := c
      intro lo hm
      simp only [Nand.risesFrom, Bool.and_eq_true, decide_eq_true_eq] at hm
      simp only [List.filter_cons]
      split
      · simp only [Nand.risesFrom, Bool.and_eq_true, decide_eq_true_eq]
        exact ⟨hm.1, ih _ hm.2⟩
      · exact Nand.risesFrom_weaken (by omega) _ (ih _ hm.2)

/-- An erase keeps the canonical form. -/
theorem Nand.wf_eraseBlock (m : List (Nat × Page)) (b : Nat) (h : Nand.wf m = true) :
    Nand.wf (Nand.eraseBlock m b) = true := Nand.risesFrom_filter _ m 0 h

/-- A failed erase keeps the canonical form. -/
theorem Nand.wf_tearBlock (m : List (Nat × Page)) (b : Nat) (h : Nand.wf m = true) :
    Nand.wf (Nand.tearBlock m b) = true := by
  unfold Nand.tearBlock
  generalize List.range Config.blockPages = l
  induction l generalizing m with
  | nil => exact h
  | cons p l ih => exact ih _ (Nand.wf_put m _ _ h)

/-- A page read after a page put: the page put at its address, and the page that was there elsewhere. -/
theorem Nand.page_put (a : Nat) (v : Page) (x : Nat) :
    ∀ m : List (Nat × Page), Nand.page (Nand.put m a v) x = if x = a then some v else Nand.page m x := by
  intro m
  induction m with
  | nil => simp [Nand.put, Nand.page, eq_comm]
  | cons c m ih =>
      obtain ⟨k, w⟩ := c
      simp only [Nand.put]
      by_cases h1 : a < k
      · simp only [h1, if_true, Nand.page, eq_comm (a := a)]
      · simp only [h1, if_false]
        by_cases h2 : a = k
        · simp only [h2, if_true, Nand.page, eq_comm (a := x)]
          by_cases hx : k = x <;> simp [hx]
        · simp only [h2, if_false, Nand.page, ih]
          by_cases hk : k = x
          · have : x ≠ a := by omega
            simp [hk, this]
          · simp [hk]

/-- A page read after an erase: erased in the block, and the page that was there elsewhere. -/
theorem Nand.page_eraseBlock (b x : Nat) :
    ∀ m : List (Nat × Page),
      Nand.page (Nand.eraseBlock m b) x = if x / Config.blockPages = b then none else Nand.page m x := by
  intro m
  induction m with
  | nil => simp [Nand.eraseBlock, Nand.page]
  | cons c m ih =>
      obtain ⟨k, w⟩ := c
      simp only [Nand.eraseBlock, List.filter_cons] at ih ⊢
      by_cases hk : k = x
      · subst hk
        by_cases hb : k / Config.blockPages = b
        · simp only [hb, ne_eq, not_true, decide_false, Bool.false_eq_true, if_false, if_true]
          simpa [hb] using ih
        · simp [hb, Nand.page]
      · by_cases hb : k / Config.blockPages = b
        · simp only [hb, ne_eq, not_true, decide_false, Bool.false_eq_true, if_false, Nand.page, hk]
          exact ih
        · simp only [hb, ne_eq, not_false_eq_true, decide_true, if_true, Nand.page, hk, if_false]
          exact ih

/-- A page read after some pages of a block were torn: torn where the list has it, and the page that was there elsewhere. -/
theorem Nand.page_tearPages (b x : Nat) :
    ∀ (l : List Nat) (m : List (Nat × Page)),
      Nand.page (l.foldl (fun m p => Nand.put m (Nand.address b p) .torn) m) x
        = if ∃ p, p ∈ l ∧ x = Nand.address b p then some .torn else Nand.page m x := by
  intro l
  induction l with
  | nil => intro m; simp
  | cons p l ih =>
      intro m
      rw [List.foldl_cons, ih, Nand.page_put]
      by_cases hp : x = Nand.address b p <;> simp [hp]

/-- A page read after a failed erase: torn in the block, and the page that was there elsewhere. -/
theorem Nand.page_tearBlock (m : List (Nat × Page)) (b x : Nat) :
    Nand.page (Nand.tearBlock m b) x = if x / Config.blockPages = b then some .torn else Nand.page m x := by
  have e : (∃ p, p ∈ List.range Config.blockPages ∧ x = Nand.address b p) ↔ x / Config.blockPages = b := by
    simp only [List.mem_range, Nand.address, Config.blockPages]
    exact ⟨fun ⟨p, _, _⟩ => by omega, fun _ => ⟨x % 64, by omega, by omega⟩⟩
  simp only [Nand.tearBlock, Nand.page_tearPages, e]

/-! ### The check bytes of a page (R157, R158) -/

/-- A number whose lowest `k` bytes are all 0xFF. -/
theorem mod_of_full_bytes (n : Nat) : ∀ k, (∀ i, i < k → n / 256 ^ i % 256 = 255) → n % 256 ^ k = 256 ^ k - 1 := by
  intro k
  induction k with
  | zero => intro _; simp [Nat.mod_one]
  | succ k ih =>
      intro h
      rw [Nat.mod_pow_succ, ih fun i hi => h i (by omega), h k (by omega), Nat.pow_succ]
      have := Nat.pow_pos (n := k) (show 0 < 256 by omega)
      omega

@[simp] theorem spareOf_length (data : List Byte) : (spareOf data).length = 256 := by
  simp only [spareOf, List.length_map, List.length_range]

/-- The check bytes are never 0xFF throughout (R158). -/
theorem spareOf_ne_erased (data : List Byte) : spareOf data ≠ List.replicate 256 0xFF := by
  intro h
  have hk : 1 < 256 ^ Config.spareBytes := Nat.one_lt_pow (by decide) (by decide)
  have hlt : Config.checkCode data % (256 ^ Config.spareBytes - 1) < 256 ^ Config.spareBytes - 1 := Nat.mod_lt _ (by omega)
  have hb : ∀ i, i < Config.spareBytes → Config.checkCode data % (256 ^ Config.spareBytes - 1) / 256 ^ i % 256 = 255 := by
    intro i hi
    have hg := congrArg (fun l => l[i]?) h
    simp only [spareOf, List.getElem?_map, List.getElem?_range hi, Option.map_some] at hg
    rw [List.getElem?_replicate_of_lt hi] at hg
    have hv := congrArg BitVec.toNat (Option.some.inj hg)
    rw [byteOf, BitVec.toNat_ofNat] at hv
    exact hv
  have := mod_of_full_bytes _ _ hb
  rw [Nat.mod_eq_of_lt (by omega)] at this
  omega

/-! ### The machine after reset -/

/-- The memories of the machine after reset have their canonical forms. -/
theorem reset_memory_wf : Memory.wf State.reset.part.store.dram = true ∧ Nand.wf State.reset.part.flash.nand = true :=
  ⟨rfl, rfl⟩

end Sys2Proof.Machine
end

