-- ==== Sys2Proof/Laws/PerInstr.lean ====
section
/-! SUPPORT. A statement about every command as syntax: a well-formed command sends as many parameter bytes as R197's
table gives its code. -/

namespace Sys2Proof.Laws.ParamCount

open Sys2Proof.Machine

/-- The parameter bytes of a well-formed command are those of its code; the codes that name no command have none. -/
def Statement (i : Instr) : Prop :=
  i.wellFormed = true → ∀ c, commandCode i = some c →
    paramCount c = some (commandParams i).length ∨ (paramCount c = none ∧ 0x33 ≤ c ∧ c ≤ 0x3F)

/-- A command whose parameter bytes are as many as its code takes. -/
theorem of_code (i : Instr) (n : Nat) (h : commandCode i = some n) (hp : paramCount n = some (commandParams i).length) :
    Statement i := by
  intro _ c hc
  rw [h] at hc
  cases hc
  exact .inl hp

/-- An event has no code. -/
theorem of_event (i : Instr) (h : commandCode i = none) : Statement i := by
  intro _ c hc
  rw [h] at hc
  cases hc

theorem status (rx : Rx) : Statement (.status rx) := of_code _ 0x00 rfl rfl

theorem identify (rx : Rx) : Statement (.identify rx) := of_code _ 0x01 rfl rfl

theorem noticeRead (p : Port) (m : ReadMoment) : Statement (.noticeRead p m) := of_code _ 0x02 rfl rfl

theorem noticeMask (tx : Tx) (enables : Half) (master : Byte) : Statement (.noticeMask tx enables master) := of_code _ 0x03 rfl rfl

theorem slotWrite (p : Port) (slot : Byte) (offset : Word) (data : List Byte) : Statement (.slotWrite p slot offset data) := of_code _ 0x04 rfl rfl

theorem slotWriteRect (p : Port) (slot : Byte) (bc row bw h : Half) (data : List Byte) : Statement (.slotWriteRect p slot bc row bw h data) := of_code _ 0x05 rfl rfl

theorem slotPost (tx : Tx) (slot : Byte) (key : Word) : Statement (.slotPost tx slot key) := of_code _ 0x06 rfl rfl

theorem slotDiscard (tx : Tx) (slot : Byte) : Statement (.slotDiscard tx slot) := of_code _ 0x07 rfl rfl

theorem slotRetain (tx : Tx) (slot flag : Byte) : Statement (.slotRetain tx slot flag) := of_code _ 0x08 rfl rfl

theorem slotRead (rx : Rx) (slot : Byte) (offset length : Word) : Statement (.slotRead rx slot offset length) := of_code _ 0x09 rfl rfl

theorem shownRead (rx : Rx) (offset length : Word) : Statement (.shownRead rx offset length) := of_code _ 0x0A rfl rfl

theorem slotTableRead (rx : Rx) : Statement (.slotTableRead rx) := of_code _ 0x0B rfl rfl

theorem turnListSet (tx : Tx) (n : Byte) (places : List Byte) (cursor : Byte) : Statement (.turnListSet tx n places cursor) := by
  intro hw c hc
  simp only [Instr.wellFormed, decide_eq_true_eq] at hw
  simp only [commandCode, Option.some.injEq] at hc
  subst hc
  simp [paramCount, commandParams, hw]

theorem turnSettings (tx : Tx) (lookahead mode : Byte) : Statement (.turnSettings tx lookahead mode) := of_code _ 0x0D rfl rfl

theorem turnStateRead (rx : Rx) : Statement (.turnStateRead rx) := of_code _ 0x0E rfl rfl

theorem updateSubmit (tx : Tx) (slot : Byte) (x0 y0 w h : Half) (mode tag notify : Byte) : Statement (.updateSubmit tx slot x0 y0 w h mode tag notify) := of_code _ 0x0F rfl rfl

theorem updateCancel (tx : Tx) : Statement (.updateCancel tx) := of_code _ 0x10 rfl rfl

theorem engineRead (rx : Rx) : Statement (.engineRead rx) := of_code _ 0x11 rfl rfl

theorem ghostSet (tx : Tx) (limit : Byte) : Statement (.ghostSet tx limit) := of_code _ 0x12 rfl rfl

theorem ghostClear (tx : Tx) : Statement (.ghostClear tx) := of_code _ 0x13 rfl rfl

theorem waveformLoad (tx : Tx) (slot : Byte) : Statement (.waveformLoad tx slot) := of_code _ 0x14 rfl rfl

theorem temperatureRead (rx : Rx) : Statement (.temperatureRead rx) := of_code _ 0x15 rfl rfl

theorem lightSet (tx : Tx) (brightness : Half) (warmth : Byte) (rampStep : Half) : Statement (.lightSet tx brightness warmth rampStep) := of_code _ 0x16 rfl rfl

theorem lightRead (rx : Rx) : Statement (.lightRead rx) := of_code _ 0x17 rfl rfl

theorem batterySettings (tx : Tx) (resistance : Half) : Statement (.batterySettings tx resistance) := of_code _ 0x18 rfl rfl

theorem batteryRead (rx : Rx) : Statement (.batteryRead rx) := of_code _ 0x19 rfl rfl

theorem sleep (tx : Tx) : Statement (.sleep tx) := of_code _ 0x1A rfl rfl

theorem wake (tx : Tx) : Statement (.wake tx) := of_code _ 0x1B rfl rfl

theorem powerOff (tx : Tx) : Statement (.powerOff tx) := of_code _ 0x1C rfl rfl

theorem powerPolicy (tx : Tx) (cover restore sleepScreen : Byte) : Statement (.powerPolicy tx cover restore sleepScreen) := of_code _ 0x1D rfl rfl

theorem alarmSet (tx : Tx) (seconds : Word) : Statement (.alarmSet tx seconds) := of_code _ 0x1E rfl rfl

theorem sleepScreenStore (tx : Tx) (slot : Byte) : Statement (.sleepScreenStore tx slot) := of_code _ 0x1F rfl rfl

theorem downloadOpen (tx : Tx) (title declared : Word) : Statement (.downloadOpen tx title declared) := of_code _ 0x20 rfl rfl

theorem chunkWrite (p : Port) (record : Byte) (offset : Word) (data : List Byte) : Statement (.chunkWrite p record offset data) := of_code _ 0x21 rfl rfl

theorem downloadSeal (tx : Tx) (record : Byte) (expected : Word) : Statement (.downloadSeal tx record expected) := of_code _ 0x22 rfl rfl

theorem downloadAbandon (tx : Tx) (record : Byte) : Statement (.downloadAbandon tx record) := of_code _ 0x23 rfl rfl

theorem downloadClaim (tx : Tx) (record : Byte) : Statement (.downloadClaim tx record) := of_code _ 0x24 rfl rfl

theorem downloadRelease (tx : Tx) (record : Byte) : Statement (.downloadRelease tx record) := of_code _ 0x25 rfl rfl

theorem fetch (tx : Tx) (record : Byte) (offset : Word) (length : Half) : Statement (.fetch tx record offset length) := of_code _ 0x26 rfl rfl

theorem fetchData (rx : Rx) : Statement (.fetchData rx) := of_code _ 0x27 rfl rfl

theorem directoryRead (rx : Rx) : Statement (.directoryRead rx) := of_code _ 0x28 rfl rfl

theorem spoolFormat (tx : Tx) : Statement (.spoolFormat tx) := of_code _ 0x29 rfl rfl

theorem flashHealthRead (rx : Rx) : Statement (.flashHealthRead rx) := of_code _ 0x2A rfl rfl

theorem rightsSet (tx : Tx) (target : Byte) (mask : Word) (caps defer : Byte) : Statement (.rightsSet tx target mask caps defer) := of_code _ 0x2B rfl rfl

theorem rightsStore (tx : Tx) : Statement (.rightsStore tx) := of_code _ 0x2C rfl rfl

theorem rightsRead (rx : Rx) : Statement (.rightsRead rx) := of_code _ 0x2D rfl rfl

theorem chipReset (tx : Tx) : Statement (.chipReset tx) := of_code _ 0x2E rfl rfl

theorem peerRead (rx : Rx) : Statement (.peerRead rx) := of_code _ 0x2F rfl rfl

theorem peerGrant (tx : Tx) : Statement (.peerGrant tx) := of_code _ 0x30 rfl rfl

theorem peerDeny (tx : Tx) : Statement (.peerDeny tx) := of_code _ 0x31 rfl rfl

theorem peerWithdraw (tx : Tx) : Statement (.peerWithdraw tx) := of_code _ 0x32 rfl rfl

theorem unknownCommandCode (p : Port) (code : Byte) : Statement (.unknownCommandCode p code) := by
  intro hw n hn
  simp only [commandCode, Option.some.injEq] at hn
  simp only [Instr.wellFormed, Bool.and_eq_true, decide_eq_true_eq] at hw
  right
  subst hn
  refine ⟨?_, hw.1, hw.2⟩
  obtain ⟨h1, h2⟩ := hw
  generalize code.toNat = n at h1 h2
  interval_cases n <;> rfl

theorem aborted (p : Port) (cause : AbortCause) : Statement (.aborted p cause) := of_event _ rfl

theorem portSelect (p : Port) : Statement (.portSelect p) := of_event _ rfl

theorem inputChange (input : Input) : Statement (.inputChange input) := of_event _ rfl

theorem keyPress (k : TurnKey) : Statement (.keyPress k) := of_event _ rfl

theorem keyRelease (k : TurnKey) : Statement (.keyRelease k) := of_event _ rfl

theorem powerPress : Statement (.powerPress) := of_event _ rfl

theorem powerRelease : Statement (.powerRelease) := of_event _ rfl

theorem powerHeld2s : Statement (.powerHeld2s) := of_event _ rfl

theorem powerHeld8s : Statement (.powerHeld8s) := of_event _ rfl

theorem powerHeld1s : Statement (.powerHeld1s) := of_event _ rfl

theorem coverChange (closed : Bool) : Statement (.coverChange closed) := of_event _ rfl

theorem presenceChange (p : Port) (high : Bool) : Statement (.presenceChange p high) := of_event _ rfl

theorem chargerRise : Statement (.chargerRise) := of_event _ rfl

theorem chargerFall : Statement (.chargerFall) := of_event _ rfl

theorem entryToActive (ecc : List (Nat × List Sector)) : Statement (.entryToActive ecc) := of_event _ rfl

theorem coldStart : Statement (.coldStart) := of_event _ rfl

theorem resetLineFall : Statement (.resetLineFall) := of_event _ rfl

theorem resetLineRise : Statement (.resetLineRise) := of_event _ rfl

theorem secondTick : Statement (.secondTick) := of_event _ rfl

theorem alarmExpiry (p : Port) : Statement (.alarmExpiry p) := of_event _ rfl

theorem peerRequestExpiry (p : Port) : Statement (.peerRequestExpiry p) := of_event _ rfl

theorem stallTick : Statement (.stallTick) := of_event _ rfl

theorem frameBoundary : Statement (.frameBoundary) := of_event _ rfl

theorem rampTick : Statement (.rampTick) := of_event _ rfl

theorem temperatureSample : Statement (.temperatureSample) := of_event _ rfl

theorem batterySample : Statement (.batterySample) := of_event _ rfl

theorem holdEntry : Statement (.holdEntry) := of_event _ rfl

theorem offEntry : Statement (.offEntry) := of_event _ rfl

theorem readEnd (ecc : List Sector) : Statement (.readEnd ecc) := of_event _ rfl

theorem programEnd (ok : Bool) : Statement (.programEnd ok) := of_event _ rfl

theorem eraseEnd (ok : Bool) : Statement (.eraseEnd ok) := of_event _ rfl

theorem moveEnd (ecc : List Sector) (ok : Bool) : Statement (.moveEnd ecc ok) := of_event _ rfl

theorem flashOperationTimeout (ecc : List Sector) : Statement (.flashOperationTimeout ecc) := of_event _ rfl

theorem supplyLoss : Statement (.supplyLoss) := of_event _ rfl

end Sys2Proof.Laws.ParamCount
end

