-- ==== Sys2Proof/Laws/Ports.lean ====
section
/-! SUPPORT. What a transaction does, said once for each way it can be answered: the claims about commands rest on these
lemmas and unfold neither the select nor the check. -/

namespace Sys2Proof.Machine

/-! ### What a change of the ports leaves alone -/

@[simp] theorem verdict_ports (i : Instr) (p : Port) (s : Part) (x : Both PortUnit) :
    verdict i p { s with ports := x } = verdict i p s := rfl

@[simp] theorem lineAtSelect_ports (s : Part) (x : Both PortUnit) : lineAtSelect { s with ports := x } = lineAtSelect s := rfl

@[simp] theorem port_setPorts (s : Part) (p : Port) (u : PortUnit) :
    port { s with ports := s.ports.set p u } p = u := by simp [port]

/-- A select leaves the sample of a read as it is. -/
@[simp] theorem unitIn_sample (x : Line) (s : Part) (p : Port) : (unitIn x s p).sample = (port s p).sample := by
  unfold unitIn; split <;> rfl

@[simp] theorem sentData_unitIn (x : Line) (s : Part) (p : Port) (d : List Byte) :
    sentData (unitIn x s p) d = sentData (port s p) d := by simp [sentData]

theorem unitIn_line (x : Line) (s : Part) (p : Port) (h : selectsAs x s p = true) : (unitIn x s p).line = x := by
  simp only [selectsAs, Bool.or_eq_true, Bool.and_eq_true, decide_eq_true_eq] at h
  unfold unitIn
  split
  · rfl
  · rcases h with h | ⟨h, _⟩
    · exact h
    · contradiction

/-! ### The select (R116, R188, R190) -/

theorem lineAtSelect_taken_state (s : Part) (h : lineAtSelect s = .taken) :
    alive s = true ∧ s.power.forcedOff = false ∧ (s.power.state = .active ∨ s.power.state = .settling) := by
  unfold lineAtSelect at h
  split at h
  · cases h
  · rename_i h0
    simp only [Bool.or_eq_true, Bool.not_eq_true', not_or, Bool.not_eq_false, Bool.not_eq_true] at h0
    refine ⟨h0.1, h0.2, ?_⟩
    split at h <;> first | (cases h; done) | (left; assumption) | (right; assumption)

theorem lineAtSelect_boot_state (s : Part) (h : lineAtSelect s = .boot) :
    alive s = true ∧ s.power.forcedOff = false ∧ s.power.state = .boot := by
  unfold lineAtSelect at h
  split at h
  · cases h
  · rename_i h0
    simp only [Bool.or_eq_true, Bool.not_eq_true', not_or, Bool.not_eq_false, Bool.not_eq_true] at h0
    refine ⟨h0.1, h0.2, ?_⟩
    split at h <;> first | (cases h; done) | assumption

theorem leaveHold_of_ne (s : Part) (h : s.power.state ≠ .hold) : leaveHold s = s := by simp [leaveHold, h]

/-- A port already selected stays as it is. -/
theorem selectPort_of_selected (s : Part) (p : Port) (h : (port s p).line ≠ .deselected) : selectPort p s = s := by
  simp only [selectPort]; rw [if_pos h]

theorem modifyPort_eq (p : Port) (f : PortUnit → PortUnit) (s : Part) :
    modifyPort p f s = { s with ports := s.ports.set p (f (port s p)) } := rfl

/-- A select that is taken, or made in BOOT, leaves the part in its transaction. -/
theorem selectPort_of_selects (x : Line) (hx : x = .taken ∨ x = .boot) (s : Part) (p : Port)
    (h : selectsAs x s p = true) : selectPort p s = { s with ports := s.ports.set p (unitIn x s p) } := by
  have hd : x ≠ .deselected := by rcases hx with rfl | rfl <;> simp
  have hi : x ≠ .ignored := by rcases hx with rfl | rfl <;> simp
  simp only [selectsAs, Bool.or_eq_true, Bool.and_eq_true, decide_eq_true_eq] at h
  by_cases hl : (port s p).line = .deselected
  · have hs : lineAtSelect s = x := by
      rcases h with h | ⟨_, h⟩
      · exact absurd (h.symm.trans hl) hd
      · exact h
    have hh : s.power.state ≠ .hold := by
      rcases hx with rfl | rfl
      · rcases (lineAtSelect_taken_state s hs).2.2 with h | h <;> simp [h]
      · simp [(lineAtSelect_boot_state s hs).2.2]
    simp only [selectPort]
    rw [if_neg (by simp [hl]), hs, if_neg hi, leaveHold_of_ne _ (by simpa using hh), modifyPort_eq]
    simp only [unitIn, if_pos hl, sampleStatus]
  · rw [selectPort_of_selected s p hl]
    have : unitIn x s p = s.ports.get p := by simp only [unitIn, if_neg hl]; rfl
    rw [this, Both.set_get]

theorem selectPort_of_takes (s : Part) (p : Port) (h : takes s p = true) : selectPort p s = inTransaction s p :=
  selectPort_of_selects .taken (.inl rfl) s p h

/-! ### Transactions by their line (R116, R190) -/

/-- A taken transaction answers as its command does. -/
theorem transaction_of_takes (p : Port) (f : Line → Part → Part) (s : Part) (h : takes s p = true) :
    transaction p f s = f .taken (inTransaction s p) := by
  simp only [transaction, selectPort_of_takes s p h, inTransaction, port_setPorts, unitIn_line .taken s p h]

/-- A transaction in BOOT. -/
theorem transaction_of_boot (p : Port) (f : Line → Part → Part) (s : Part) (h : selectsAs .boot s p = true) :
    transaction p f s = f .boot { s with ports := s.ports.set p (unitIn .boot s p) } := by
  simp only [transaction, selectPort_of_selects .boot (.inr rfl) s p h, port_setPorts, unitIn_line .boot s p h]

/-- A select that is ignored marks the transaction (R190). -/
theorem selectPort_of_ignored (s : Part) (p : Port) (hl : (port s p).line = .deselected)
    (hs : lineAtSelect s = .ignored) : selectPort p s = modifyPort p (fun u => { u with line := .ignored }) s := by
  simp only [selectPort]
  rw [if_neg (by simp [hl]), if_pos hs]

/-- An ignored transaction does nothing (R190). -/
theorem transaction_of_ignored (p : Port) (f : Line → Part → Part) (s : Part) (h : selectsAs .ignored s p = true) :
    transaction p f s = { s with ports := s.ports.set p (deselected (port s p)) } := by
  simp only [selectsAs, Bool.or_eq_true, Bool.and_eq_true, decide_eq_true_eq] at h
  by_cases hl : (port s p).line = .deselected
  · have hs : lineAtSelect s = .ignored := by
      rcases h with h | ⟨_, h⟩
      · rw [hl] at h; cases h
      · exact h
    simp only [transaction, selectPort_of_ignored s p hl hs, modifyPort_eq, port_setPorts]
    simp [deselected]
  · have hs : (port s p).line = .ignored := by
      rcases h with h | ⟨h, _⟩
      · exact h
      · contradiction
    simp only [transaction, selectPort_of_selected s p hl, hs, modifyPort_eq]

/-- The transaction in progress that woke the part answers WOKEN (R116). -/
theorem transaction_of_hold (p : Port) (f : Line → Part → Part) (s : Part) (h : (port s p).line = .hold) :
    transaction p f s = settle p { code := .woken } s := by
  simp only [transaction, selectPort_of_selected s p (by simp [h]), h]

/-! ### Commands (R121, R180 to R182, R189) -/

@[simp] theorem inTransaction_rest (s : Part) (p : Port) :
    (inTransaction s p).power = s.power ∧ (inTransaction s p).rights = s.rights ∧ (inTransaction s p).store = s.store
      ∧ (inTransaction s p).turn = s.turn ∧ (inTransaction s p).engine = s.engine ∧ (inTransaction s p).wave = s.wave
      ∧ (inTransaction s p).light = s.light ∧ (inTransaction s p).battery = s.battery
      ∧ (inTransaction s p).spool = s.spool ∧ (inTransaction s p).flash = s.flash ∧ (inTransaction s p).pins = s.pins
      ∧ (inTransaction s p).debounce = s.debounce ∧ (inTransaction s p).supply = s.supply
      ∧ (inTransaction s p).fresh = s.fresh :=
  ⟨rfl, rfl, rfl, rfl, rfl, rfl, rfl, rfl, rfl, rfl, rfl, rfl, rfl, rfl⟩

@[simp] theorem port_inTransaction (s : Part) (p : Port) : port (inTransaction s p) p = unitIn .taken s p := by
  simp [inTransaction]

@[simp] theorem port_inTransaction_peer (s : Part) (p : Port) : port (inTransaction s p) (peer p) = port s (peer p) := by
  simp [inTransaction, port]

/-- A taken command that the rights unit passes and an orderly OFF does not refuse answers as its owning block does. -/
theorem transact_pass (i : Instr) (f : Part → Part × Option Reply) (s : Part) (ht : takes s (commandPort i) = true)
    (hx : strayData i = 0) (hv : verdict i (commandPort i) s = .pass) (ho : offRefuses s i = false) :
    transact i f s = settleWith (commandPort i) (f (inTransaction s (commandPort i))) := by
  simp only [transact, transaction_of_takes _ _ _ ht, hx, ne_eq, not_true, if_false, checked]
  have : ¬ ((Line.taken = Line.boot) ∧ (!takenInBoot (codeOf i)) = true) := by simp
  rw [if_neg this]
  have hv' : verdict i (commandPort i) (inTransaction s (commandPort i)) = .pass := hv
  rw [hv']
  have ho' : ((inTransaction s (commandPort i)).power.offPending && !takenWhileOffPending (codeOf i)) = false := ho
  simp only [owned, ho', Bool.false_eq_true, if_false]

/-- A taken command that an orderly OFF in progress refuses. -/
theorem transact_offRefuses (i : Instr) (f : Part → Part × Option Reply) (s : Part)
    (ht : takes s (commandPort i) = true) (hx : strayData i = 0) (hv : verdict i (commandPort i) s = .pass)
    (ho : offRefuses s i = true) :
    transact i f s = settle (commandPort i) { code := .badState } (inTransaction s (commandPort i)) := by
  simp only [transact, transaction_of_takes _ _ _ ht, hx, ne_eq, not_true, if_false, checked]
  have : ¬ ((Line.taken = Line.boot) ∧ (!takenInBoot (codeOf i)) = true) := by simp
  rw [if_neg this]
  have hv' : verdict i (commandPort i) (inTransaction s (commandPort i)) = .pass := hv
  rw [hv']
  have ho' : ((inTransaction s (commandPort i)).power.offPending && !takenWhileOffPending (codeOf i)) = true := ho
  simp only [owned, ho', if_true, settleWith]

/-- A taken command that the rights unit refuses. -/
theorem transact_refuse (i : Instr) (f : Part → Part × Option Reply) (s : Part) (c : ResultCode)
    (ht : takes s (commandPort i) = true) (hx : strayData i = 0) (hv : verdict i (commandPort i) s = .refuse c) :
    transact i f s = settle (commandPort i) { code := c } (inTransaction s (commandPort i)) := by
  simp only [transact, transaction_of_takes _ _ _ ht, hx, ne_eq, not_true, if_false, checked]
  have : ¬ ((Line.taken = Line.boot) ∧ (!takenInBoot (codeOf i)) = true) := by simp
  rw [if_neg this]
  have hv' : verdict i (commandPort i) (inTransaction s (commandPort i)) = .refuse c := hv
  rw [hv']

/-- A taken command that becomes a peer request. -/
theorem transact_refer (i : Instr) (f : Part → Part × Option Reply) (s : Part)
    (ht : takes s (commandPort i) = true) (hx : strayData i = 0) (hv : verdict i (commandPort i) s = .refer) :
    transact i f s
      = settle (commandPort i) { code := .referred } (refer i (commandPort i) (inTransaction s (commandPort i))) := by
  simp only [transact, transaction_of_takes _ _ _ ht, hx, ne_eq, not_true, if_false, checked]
  have : ¬ ((Line.taken = Line.boot) ∧ (!takenInBoot (codeOf i)) = true) := by simp
  rw [if_neg this]
  have hv' : verdict i (commandPort i) (inTransaction s (commandPort i)) = .refer := hv
  rw [hv']

/-- A taken command that takes no data and got some (R189). -/
theorem transact_stray (i : Instr) (f : Part → Part × Option Reply) (s : Part)
    (ht : takes s (commandPort i) = true) (hx : strayData i ≠ 0) :
    transact i f s = settle (commandPort i) { code := .badParam } (inTransaction s (commandPort i)) := by
  simp only [transact, transaction_of_takes _ _ _ ht, hx, ne_eq, not_false_eq_true, if_true]

/-- A command selected in BOOT answers STARTING, unless it is one that BOOT takes (R127, R190). -/
theorem transact_boot (i : Instr) (f : Part → Part × Option Reply) (s : Part)
    (ht : selectsAs .boot s (commandPort i) = true) (hx : strayData i = 0) (hb : takenInBoot (codeOf i) = false) :
    transact i f s
      = settle (commandPort i) { code := .starting }
          { s with ports := s.ports.set (commandPort i) (unitIn .boot s (commandPort i)) } := by
  simp [transact, transaction_of_boot _ _ _ ht, hx, hb]

/-- A result settled on a part whose own port has not been touched since the select. -/
theorem settle_inTransaction (p : Port) (r : Reply) (s : Part) :
    settle p r (inTransaction s p) = { s with ports := answered s p r } := by
  simp [settle, inTransaction, modifyPort, Both.modify, answered, answeredUnit, deselected]

/-! ### The sample of a read (R188) -/

/-- A read's sample in a transaction that takes it: the port holds the sample, unless it held one before, and nothing
else of the part changes. -/
theorem sampleRead_of_selects (x : Line) (hx : x = .taken ∨ x = .boot) (code : Nat) (p : Port) (f : Part → ReadSample)
    (s : Part) (h : selectsAs x s p = true) (hc : samplesIn code x = true) :
    sampleRead code p f s
      = { s with ports := s.ports.set p (ensureSample (f { s with ports := s.ports.set p (unitIn x s p) }) (unitIn x s p)) } := by
  simp [sampleRead, selectPort_of_selects x hx s p h, unitIn_line x s p h, hc, modifyPort_eq]

/-- A capability that the port holds lets its command pass (R181). -/
theorem verdict_of_permits (i : Instr) (p : Port) (s : Part) (n : Nat) (hn : needOf (codeOf i) = .capability n)
    (h : permits s p n = true) : verdict i p s = .pass := by
  have h' : hasCapability (s.rights.records.get p).caps n = true := h
  simp [verdict, hn, capabilityVerdict, h']

/-- SYSTEM held with the peer absent lets a SYSTEM-class command pass (R182). -/
theorem verdict_of_permitsSystem (i : Instr) (p : Port) (s : Part) (hn : needOf (codeOf i) = .system)
    (h : permitsSystem s p = true) : verdict i p s = .pass := by
  simp only [permitsSystem, permits, Bool.and_eq_true, Bool.not_eq_true'] at h
  simp [verdict, hn, systemVerdict, h.1, h.2]

/-- A command that needs no capability, or a slot's, passes (R180). -/
theorem verdict_of_free (i : Instr) (p : Port) (s : Part) (h : needOf (codeOf i) = .none ∨ needOf (codeOf i) = .slots) :
    verdict i p s = .pass := by
  rcases h with h | h <;> simp [verdict, h]

end Sys2Proof.Machine
end

