-- ==== Sys2Proof/Tests/Slice0.lean ====
section
/-! SUPPORT. Tests of the model: what `Instr.wellFormed` refuses, values worked out in the spec's own examples, and for each
statement with hypotheses a state and operands that meet them. -/

set_option Elab.async false

namespace Sys2Proof.Tests
open Sys2Proof.Machine

/-! ### Small states -/

/-- A supplied part in ACTIVE with everything at its default and nothing in the array. -/
def part : Part :=
  let s := defaultPart restingPins [] modelIdentity false 0
  { s with power := { s.power with state := .active } }

/-- The part in another power state. -/
def inState (x : PowerState) : Part := { part with power := { part.power with state := x } }

/-- The part with an orderly OFF in progress. -/
def offPending : Part := { part with power := { part.power with offPending := true } }

/-- The part with a waveform table held. -/
def withTable : Part := setSlot 29 imageSlot part

/-- A slot in a state, written by a port. -/
def slotIn (x : SlotState) (p : Port) : Slot := { emptySlot with state := x, writer := some p, rows := [0] }

/-- The list 0, 1, 2 with the cursor at 0, slots 1 and 2 READY, and a backlog. -/
def withList (backlog : Int) (s : Part) : Part :=
  { setSlot 2 (slotIn .ready .A) (setSlot 1 (slotIn .ready .A) s) with
    turn := { list := [0, 1, 2], cursor := some 0, backlog := backlog, lookahead := 2, mode := .quick } }

/-- A download record in a state, opened by Port B. -/
def recordIn (x : RecordState) (received declared : Nat) : Record :=
  { freeRecord with state := x, writer := .B, received := received, programmed := received, declared := declared, running := some 0 }

/-- The part with a record at index 0. -/
def withRecord (v : Record) (s : Part) : Part := setRecord 0 v s

/-- A staging entry of record 0. -/
def staged (x : StagedState) (n : Nat) : Staged :=
  { record := 0, page := 0, data := List.replicate n 7, fill := n, crcAfter := 0, state := x }

/-- The part with an operation in progress. -/
def running (o : Operation) (j : Job) (s : Part) : Part :=
  { s with flash := { s.flash with running := some { operation := o, job := j, live := true, reads := none } } }

/-- The part with a candidate at the FWD key. -/
def fwdCandidate (v : Bool) (s : Part) : Part :=
  { s with debounce := { s.debounce with fwd := { level := !v, candidate := some v } } }

/-- A port's transaction in progress in a line state. -/
def onLine (x : Line) (p : Port) (s : Part) : Part := modifyPort p (fun u => { u with line := x }) s

/-- The part with a forced OFF entry waiting. -/
def forcedOff (s : Part) : Part := { s with power := { s.power with forcedOff := true } }

/-- The part with a recovery. -/
def recovering (x : Recovery) (s : Part) : Part := { s with flash := { s.flash with recovery := some x } }

/-- The part with its retired list full. -/
def retiredOut (s : Part) : Part := { s with flash := { s.flash with retired := List.range 40 } }

/-- A part as a state with nothing waiting. -/
def st (s : Part) : State := { part := s, pending := [] }

/-- The part after a command. -/
def after (i : Instr) (s : Part) : Part :=
  match exec i (st s) with
  | .next t => t.part
  | .fault _ => s
  | .refused _ => s

/-- A transaction of Port A without stray data. -/
def txA : Tx := { port := .A }
/-- A transaction of Port B without stray data. -/
def txB : Tx := { port := .B }

/-! ### What is not well formed -/

theorem test_illformed_turn_list : (Instr.turnListSet txA 1 (List.replicate 27 0) 0).wellFormed = false := by decide
theorem test_illformed_known_code : (Instr.unknownCommandCode .A 0x32).wellFormed = false := by decide
theorem test_illformed_wide_code : (Instr.unknownCommandCode .A 0x40).wellFormed = false := by decide
theorem test_illformed_short_write : (Instr.aborted .A (.shortRead 0x04)).wellFormed = false := by decide
theorem test_illformed_boot_order :
    (Instr.entryToActive [(5, List.replicate 8 .failed), (4, List.replicate 8 .failed)]).wellFormed = false := by decide
theorem test_illformed_boot_address : (Instr.entryToActive [(65536, List.replicate 8 .failed)]).wellFormed = false := by decide
theorem test_illformed_boot_sectors : (Instr.entryToActive [(5, List.replicate 7 .failed)]).wellFormed = false := by decide
theorem test_illformed_read_sectors : (Instr.readEnd (List.replicate 7 .failed)).wellFormed = false := by decide
theorem test_illformed_corrected : (Instr.readEnd (List.replicate 8 (.corrected 9))).wellFormed = false := by decide
theorem test_illformed_move : (Instr.moveEnd [] true).wellFormed = false := by decide
theorem test_illformed_timeout : (Instr.flashOperationTimeout []).wellFormed = false := by decide

/-! ### Values from the spec's examples and tables -/

/-- The check value of the CRC-32 of R66, for the characters 123456789. -/
theorem test_crc32 : crc32 [0x31, 0x32, 0x33, 0x34, 0x35, 0x36, 0x37, 0x38, 0x39] = 0xCBF43926 := by decide +kernel
/-- The check value of the CRC-16 with polynomial 0x1021 and initial value 0xFFFF (R168). -/
theorem test_crc16 : crc16 [0x31, 0x32, 0x33, 0x34, 0x35, 0x36, 0x37, 0x38, 0x39] = 0x29B1 := by decide +kernel
/-- R85's table. -/
theorem test_light_levels : [0, 100, 316, 500, 632, 633, 700, 1000].map lightLevel = [0, 10, 99, 250, 399, 400, 490, 1000] := by decide
/-- R86: full brightness split evenly gives targets of 2,047 each. -/
theorem test_light_set : (after (.lightSet txA 1000 50 32) part).light.coolTarget = 2047 := by decide +kernel
/-- R86: level 1 at warmth 50 gives a warm duty of 4. -/
theorem test_light_small : shareDuty (warmShare { defaultLight with brightness := 32 }) = 4 := by decide
/-- R89: a step of 4,095 reaches its target at once. -/
theorem test_ramp : (after .rampTick (after (.lightSet txA 1000 100 4095) part)).light.warm = 4095 := by decide +kernel
/-- R99's codes. -/
theorem test_voltages : [4095, 2830, 2960, 2703].map voltageOf = [4998, 3454, 3613, 3299] := by decide
/-- R103, from CUTOFF in OFF. -/
theorem test_battery_from_cutoff : [3549, 3550].map (fun m => settledState true m .cutoff) = [.low, .normal] := by decide
/-- R40's three examples. -/
theorem test_normalize_grid : [normalize 5 0 3 1, normalize 1247 0 1 1, normalize 1240 0 100 1].map (fun q => (q.xs, q.xe)) = [(0, 8), (1240, 1248), (1240, 1248)] := by decide
theorem test_normalize_clipped : [regionClamped 1247 0 1 1, regionClamped 1240 0 100 1] = [false, true] := by decide
/-- R74: under QUICK levels 10 and 14 both count as white, and the shown image keeps 10. -/
theorem test_quick_keeps_grey : targetLevel .quick 10 14 = 10 := by decide
/-- R8: the last byte of the image is placed, the one after it dropped. -/
theorem test_slot_write_clipped : (port (after (.slotWrite .A 3 1038335 [1, 2]) part) .A).lastResult = .clipped := by decide +kernel
theorem test_slot_write_last : seen (after (.slotWrite .A 3 1038335 [1, 2]) part) 3 1038335 = 1 := by decide +kernel
/-- R9: byte 1 of a one-byte-wide block goes to the next row. -/
theorem test_slot_write_rect : seen (after (.slotWriteRect .A 3 5 10 1 2 [1, 2]) part) 3 (624 * 11 + 5) = 2 := by decide +kernel
/-- R11: a post by the writer. -/
theorem test_slot_post : (slot (after (.slotPost txA 3 9) (setSlot 3 (slotIn .filling .A) part)) 3).key = some 9 := by decide +kernel
/-- R12: a discard takes a slot abandoned by the peer. -/
theorem test_slot_discard : (slot (after (.slotDiscard txA 3) (setSlot 3 (slotIn .filling .B) part)) 3).state = .empty := by decide +kernel
/-- R13: the flag can be set on an EMPTY slot. -/
theorem test_slot_retain : (slot (after (.slotRetain txA 3 1) part) 3).retain = true := by decide +kernel
/-- R14: a read of an EMPTY slot returns 0xFF, shortened at the end. -/
theorem test_slot_read : (port (after (.slotRead ⟨.A, .deselect⟩ 3 1038334 5) part) .A).data = [0xFF, 0xFF] := by decide +kernel
/-- R24: a slot that appears twice is refused. -/
theorem test_turn_list_twice : (port (after (.turnListSet txA 2 ([4, 4] ++ List.replicate 26 0xFF) 0) part) .A).lastResult = .badParam := by decide +kernel
theorem test_turn_list_taken : (after (.turnListSet txA 2 ([4, 6] ++ List.replicate 26 0xFF) 1) part).turn.cursor = some 1 := by decide +kernel
/-- R25: a lookahead of 0 is taken as 1. -/
theorem test_turn_settings : (after (.turnSettings txA 0 1) part).turn.lookahead = 1 := by decide +kernel
/-- R30: a press against the backlog's sign moves it toward zero. -/
theorem test_key_press_backlog : (after (.keyPress .fwd) (fwdCandidate true (withList (-2) part))).turn.backlog = -1 := by decide +kernel
/-- R26: a press onto a READY entry moves the cursor. -/
theorem test_key_press_turns : (after (.keyPress .fwd) (fwdCandidate true (withList 0 withTable))).turn.cursor = some 1 := by decide +kernel
/-- R33's example, with index 9 of ten entries READY and nothing beyond: count 2. -/
theorem test_render_ahead_count :
    aheadCount 1 { setSlot 9 (slotIn .ready .A) (setSlot 8 (slotIn .ready .A) part) with
      turn := { list := List.range 10, cursor := some 7, backlog := 0, lookahead := 4, mode := .quick } } = 2 := by decide +kernel
/-- R44: the number removed. -/
theorem test_update_cancel :
    (port (after (.updateCancel txA) (after (.updateSubmit txA 1 5 0 3 1 2 9 1) withTable)) .A).lastValue = 1 := by decide +kernel
/-- R41: the same region again is absorbed, and the answer carries the covering entry's tag. -/
theorem test_update_absorbed :
    (port (after (.updateSubmit txA 1 5 0 3 1 2 7 0) (after (.updateSubmit txA 1 5 0 3 1 2 9 1) withTable)) .A).lastValue = 9 := by decide +kernel
/-- R80: a limit above 15 is taken as 15. -/
theorem test_ghost_set : (after (.ghostSet txA 200) part).engine.ghostLimit = 15 := by decide +kernel
/-- R107: a resistance above 1,000 is taken as 1,000. -/
theorem test_battery_settings : (after (.batterySettings txA 65535) part).battery.resistance = 1000 := by decide +kernel
/-- R112: SLEEP in ACTIVE. -/
theorem test_sleep : (after (.sleep txA) part).power.state = .settling := by decide +kernel
/-- R117: WAKE in SETTLING. -/
theorem test_wake : (after (.wake txA) (inState .settling)).power.state = .active := by decide +kernel
/-- R129: more than a day is taken as a day. -/
theorem test_alarm_set : (after (.alarmSet txB 86401) (modifyRights (fun r => { r with records := ⟨r.records.a, { mask := 0, caps := 8, defer := 0 }⟩ }) part)).power.alarms.b = some 86400 := by decide +kernel
/-- R129: a second tick. -/
theorem test_second_tick : (after .secondTick part).power.timebase = 1 := by decide +kernel
/-- R137 and R138: a length of one byte reserves one block. -/
theorem test_download_open_no_space : (port (after (.downloadOpen txB 1 1) part) .B).lastResult = .noSpace := by decide +kernel
/-- R139: a chunk that does not follow on answers the length received. -/
theorem test_chunk_out_of_order :
    (port (after (.chunkWrite .B 0 5 [1]) (withRecord (recordIn .opened 3 10) part)) .B).lastValue = 3 := by decide +kernel
theorem test_chunk_taken :
    (record (after (.chunkWrite .B 0 3 [1, 2]) (withRecord (recordIn .opened 3 10) part)) 0).received = 5 := by decide +kernel
/-- R146: a seal before the declared length is received. -/
theorem test_seal_short : (port (after (.downloadSeal txB 0 0) (withRecord (recordIn .opened 3 10) part)) .B).lastResult = .short := by decide +kernel
/-- R181: a capability that the port neither holds nor may defer. -/
theorem test_denied : (port (after (.ghostClear txB) (modifyRights (fun r => { r with records := ⟨r.records.a, { mask := 0, caps := 0, defer := 0 }⟩ }) part)) .B).lastResult = .denied := by decide +kernel
/-- R182: a SYSTEM command of a port that does not hold SYSTEM. -/
theorem test_system_denied : (port (after (.spoolFormat txB) part) .B).lastResult = .denied := by decide +kernel
/-- R194: bit 15 of the enables must be 0. -/
theorem test_notice_mask : (port (after (.noticeMask txA 0x8000 1) part) .A).lastResult = .badParam := by decide +kernel
/-- R189: an unknown code. -/
theorem test_unknown : (port (after (.unknownCommandCode .A 0x33) part) .A).lastResult = .badParam := by decide +kernel
/-- R127: a command in BOOT. -/
theorem test_starting : (port (after (.slotTableRead ⟨.A, .deselect⟩) (inState .boot)) .A).lastResult = .starting := by decide +kernel
/-- R116: the transaction that wakes the part. -/
theorem test_woken : (port (after (.lightRead ⟨.A, .deselect⟩) (inState .hold)) .A).lastResult = .woken := by decide +kernel
/-- R193: nothing to read returns kind NONE. -/
theorem test_notice_none : (port (after (.noticeRead .A .deselect) part) .A).data = [0, 0xFF, 0xFF, 0xFF, 0xFF, 0xFF, 0xFF, 0xFF, 0xFF, 0xFF] := by decide +kernel
/-- R188: the bytes of a read are those of its sample, whatever happens before its deselect. -/
theorem test_read_sample :
    (port (after (.lightRead ⟨.A, .deselect⟩) (after (.lightSet txB 1000 0 0) (onLine .taken .B (after (.lightRead ⟨.A, .sample⟩) part)))) .A).data
      = (port (after (.lightRead ⟨.A, .deselect⟩) part) .A).data := by decide +kernel
/-- R158: eight wrong bits in a sector of a page never programmed still read ERASED, and nine spare bits do not. -/
theorem test_erased :
    [(bootRead [(5, List.replicate 9 (.corrected 8))] part 5).1, (bootRead [(5, List.replicate 8 (.corrected 0) ++ [.failed])] part 5).1]
      = [.erased, .corrected 0] := by decide +kernel
/-- R197: FETCH's transaction, its bytes written out: record 2, offset 0x00010203, length 0x0405. -/
theorem test_command_of_fetch :
    commandOf .B { bits := 8, command := 0x66, bytes := [2, 3, 2, 1, 0, 5, 4], cutByte := false, readAll := true }
      = .fetch txB 2 0x00010203 0x0405 := by decide +kernel
/-- R197: UPDATE SUBMIT's twelve parameter bytes. -/
theorem test_command_of_submit :
    commandOf .A { bits := 8, command := 0x0F, bytes := [3, 8, 0, 9, 0, 16, 0, 1, 2, 1, 77, 1], cutByte := false, readAll := true }
      = .updateSubmit txA 3 8 9 16 0x0201 1 77 1 := by decide +kernel
/-- R158: a failed program leaves its page partly programmed. -/
theorem test_program_failed :
    (after (.programEnd false) (running (.program 9 3 [1]) (.staging 0 0) part)).flash.nand = [(579, .torn)] := by decide +kernel
/-- R143, R161: while block 9 is erased for record 0, an older entry of record 1 has become FULL; record 0 takes the block. -/
theorem test_allocation_of_its_record :
    (let opened (b : Nat) : Record := { recordIn .opened 262144 300000 with extent := [b], reservation := 1 }
     let s := setRecord 1 (opened 12) (setRecord 0 (opened 11)
       (modifyRing (fun _ => [{ staged .full 3 with record := 1, page := 3 }, { staged .full 3 with page := 64 }]) part))
     let t := after (.eraseEnd true) (running (.erase 9) (.allocation 0) { s with flash := { s.flash with erasePending := [{ block := 9, hold := .free }] } })
     ((record t 0).extent, t.flash.free, t.flash.erasePending.length)) = ([11, 9], [], 0) := by decide +kernel
/-- R161: the eraser's block joins the free pool. -/
theorem test_eraser : (after (.eraseEnd true) (running (.erase 9) .eraser part)).flash.free = [9] := by decide +kernel

/-! ### Witnesses: states and operands that meet the statements' hypotheses -/

/-- The refusal of a slot write, as `SlotWriteRefusals` computes it. -/
def writeRefusal (s : Part) (p : Port) (i : Byte) (good : Bool) : Option ResultCode :=
  if 28 ≤ i.toNat then some .badParam
  else if (s.rights.records.get p).mask.getLsbD i.toNat = false then some .denied
  else if good = false then some .badParam
  else if (slot s i.toNat).showing ≠ 0 then some .slotBusy
  else if (slot s i.toNat).state = .filling ∧ (slot s i.toNat).writer = some (peer p) then some .slotOwned
  else none

theorem witness_slot_write_refusals :
    takes part .A = true ∧ takes part .B = true ∧ part.power.offPending = false
      ∧ writeRefusal part .A 28 true = some .badParam ∧ writeRefusal part .B 25 true = some .denied
      ∧ writeRefusal part .A 27 (decide ((1038336 : Word).toNat < 1038336 ∧ [(0 : Byte)] ≠ [])) = some .badParam
      ∧ writeRefusal (setSlot 3 { emptySlot with showing := 1 } part) .A 3 true = some .slotBusy
      ∧ writeRefusal (setSlot 3 (slotIn .filling .B) part) .A 3 true = some .slotOwned := by decide +kernel

/-- Slot 27 of SLOT WRITE and slot 0 of SLOT WRITE RECT, each at the last places it may name. -/
theorem witness_slot_write_places :
    takes part .A = true ∧ part.power.offPending = false ∧ Memory.wf part.store.dram = true
      ∧ (part.rights.records.get .A).mask.getLsbD 27 = true ∧ (1038335 : Word).toNat < 1038336
      ∧ (slot part 27).showing = 0 ∧ ¬ ((slot part 27).state = .filling ∧ (slot part 27).writer = some (peer .A))
      ∧ (slot part 27).rows = []
      ∧ (part.rights.records.get .A).mask.getLsbD 0 = true ∧ (623 : Half).toNat < 624 ∧ (1663 : Half).toNat < 1664
      ∧ (1 : Half) ≠ 0 ∧ (slot part 0).showing = 0
      ∧ ¬ ((slot part 0).state = .filling ∧ (slot part 0).writer = some (peer .A)) ∧ (slot part 0).rows = [] := by decide +kernel

theorem witness_slot_post_discard_retain :
    takes part txA.port = true ∧ txA.extra = 0 ∧ part.power.offPending = false
      ∧ (part.rights.records.get .B).mask.getLsbD 25 = false ∧ takes part txB.port = true
      ∧ (slot (setSlot 27 (slotIn .filling .A) part) 27).state = .filling
      ∧ takes (setSlot 27 (slotIn .filling .A) part) .A = true := by decide +kernel

theorem witness_image_reads :
    takes part .A = true ∧ (1038335 : Word).toNat < 1038336 ∧ (port part .A).sample = none := by decide +kernel

theorem witness_hold_entry :
    alive part = true ∧ quiet part = false ∧ alive (inState .settling) = true ∧ quiet (inState .settling) = true := by decide +kernel

theorem witness_turn_list_set :
    takes part txA.port = true ∧ txA.extra = 0 ∧ permits part txA.port 0 = true ∧ part.power.offPending = false
      ∧ ([27] ++ List.replicate 27 (0xFF : Byte)).length = 28
      ∧ listValid 1 ([27] ++ List.replicate 27 0xFF) 0 = true ∧ listValid 1 ([28] ++ List.replicate 27 0xFF) 0 = false := by
  decide +kernel

/-- A part with a candidate PRESS at each turn key and both kinds of candidate at FWD, in the states KeysAndInputs names. -/
theorem witness_keys_and_inputs :
    (∀ x ∈ [PowerState.off, .boot, .active, .settling, .hold],
      alive (fwdCandidate true (inState x)) = true ∧ (keyOf (fwdCandidate true (inState x)).debounce .fwd).candidate = some true
        ∧ (inState x).power.forcedOff = false)
      ∧ (keyOf (fwdCandidate false part).debounce .fwd).candidate = some false
      ∧ (keyOf ({ part with debounce := { part.debounce with home := { level := false, candidate := some true } } } : Part).debounce
          .home).candidate = some true := by decide +kernel

theorem witness_turn_press :
    (let s := fwdCandidate true (withList 8 part)
     alive s = true ∧ s.power.forcedOff = false ∧ s.power.state = .active ∧ (keyOf s.debounce .fwd).candidate = some true
       ∧ s.turn.backlog ≠ 0)
      ∧ (let s := fwdCandidate true (withList 0 withTable)
         alive s = true ∧ s.power.state = .active ∧ s.turn.backlog = 0 ∧ entryAt s.turn 1 = some 1
           ∧ (slot s 1).state = .ready ∧ (slot s 29).state = .ready) := by decide +kernel

theorem witness_backlog_and_render_ahead :
    (withList 2 part).turn.list.length ≤ 28 ∧ (withList 2 part).turn.cursor = some 0
      ∧ (withList 2 part).turn.backlog ≠ 0 ∧ entryAt (withList 2 part).turn 1 = some 1
      ∧ (slot (withList 2 part) 1).state = .ready ∧ (slot (withList 2 part) 29).state ≠ .ready
      ∧ (slot (withList 2 withTable) 29).state = .ready ∧ roomForTurn (withList 2 withTable).engine = true
      ∧ (withList 2 withTable).turn.cursor = some 0 ∧ (slot (withList 2 withTable) 1).state = .ready := by decide +kernel

theorem witness_update_submit :
    takes withTable txA.port = true ∧ txA.extra = 0 ∧ permits withTable txA.port 1 = true
      ∧ withTable.power.offPending = false ∧ withTable.power.asleep = false ∧ (slot withTable 29).state = .ready
      ∧ (withTable.rights.records.get .A).mask.getLsbD 27 = true ∧ withTable.engine.queue = [] := by decide +kernel

theorem witness_update_cancel :
    takes part txA.port = true ∧ txA.extra = 0 ∧ permits part txA.port 1 = true ∧ part.power.offPending = false := by decide +kernel

/-- A lane over the first eight columns of the first row. -/
def lane : Lane :=
  { update := { origin := .turn, source := 1, rect := { xs := 0, xe := 8, ys := 0, ye := 1 }, mode := .quick, tag := 0,
                notify := false, serial := 0 },
    followUp := false, exclusions := [], applied := .quick, promoted := false, demoted := false, band := 0, clamp := .none,
    frames := 4, index := 0, followUps := [] }

/-- A boundary in ACTIVE with a lane at its last frame, a boundary that cannot arise, and a replacement pending or not. -/
theorem witness_frame_boundary :
    alive part = true ∧ part.power.forcedOff = false ∧ part.power.state = .active ∧ Memory.wf part.store.dram = true
      ∧ part.wave.replacementPending = false ∧ (inState .hold).power.state ≠ .active ∧ (inState .hold).power.state ≠ .settling
      ∧ (let s := { part with engine := { part.engine with lanes := tableSet part.engine.lanes 3 (some { lane with index := 4 }) } }
         s.engine.lanes.toList.getD 3 none = some { lane with index := 4 } ∧ lane.frames ≤ 4)
      ∧ ({ part with wave := { part.wave with replacementPending := true } } : Part).wave.replacementPending = true := by
  decide +kernel

/-- The part with `lane`'s item at the queue's head, its source in a state, and given lanes. -/
def considering (x : SlotState) (lanes : Vector (Option Lane) 8) (release : List Update) : Part :=
  let s := setSlot 1 (slotIn x .A) part
  { s with engine := { s.engine with queue := [lane.update], lanes := lanes, release := release } }

/-- An item considered: its source not READY, a lane it meets full, the pool full, every lane taken, and one that commits. -/
theorem witness_frame_boundary_items :
    (let none_ : Vector (Option Lane) 8 := Vector.replicate 8 none
     let four : Lane := { lane with followUps := List.replicate 4 lane.update }
     let beside : Lane := { lane with update := { lane.update with rect := { xs := 8, xe := 16, ys := 0, ye := 1 } } }
     let met (l : Lane) : Prop := ((lane.update.rect.meet l.update.rect).isSome = true)
     (considering .ready none_ []).wave.replacementPending = false
       ∧ (considering .ready none_ []).engine.release ++ (considering .ready none_ []).engine.queue = lane.update :: []
       ∧ (slot (considering .filling none_ []) lane.update.source).state ≠ .ready
       ∧ (slot (considering .ready none_ []) lane.update.source).state = .ready
       ∧ (met four ∧ 4 ≤ four.followUps.length)
       ∧ (considering .ready none_ (List.replicate 33 lane.update)).engine.release.length = 33
       ∧ (¬ met beside ∧ ∀ i, i < 8 → (considering .ready (Vector.replicate 8 (some beside)) []).engine.lanes.toList.getD i none ≠ none)
       ∧ (considering .ready none_ []).engine.lanes.toList.getD 0 none = none
       ∧ (met lane ∧ lane.followUps = [])) := by decide +kernel

theorem witness_lane_completes :
    Memory.wf part.store.dram = true ∧ lane.update.source < 32 ∧ lane.update.rect.xe ≤ 1248 ∧ lane.update.rect.ye ≤ 1664 := by
  decide +kernel

theorem witness_lane_start_and_drive :
    (let s := { part with wave := { part.wave with reading := some 191 } }
     s.wave.reading = some 191) ∧ part.wave.reading = none ∧ lane.update.rect.xs < lane.update.rect.xe ∧ lane.update.rect.ys < lane.update.rect.ye := by
  decide +kernel

theorem witness_ticks_count :
    alive part = true ∧ part.power.forcedOff = false ∧ part.power.state = .active ∧ part.light.warm ≤ 4095 ∧ part.light.cool ≤ 4095
      ∧ (let s := withRecord { recordIn .opened 3 10 with stall := 2 } part
         (record s 0).state = .opened ∧ 3 ≤ (record s 0).stall + 1 ∧ ∀ y, y < 32 → 0 < y → (record s y).state ≠ .opened) := by
  decide +kernel

theorem witness_battery_sample :
    alive part = true ∧ part.flash.running = none
      ∧ (running (.program 9 3 [1]) .system part).flash.running.isSome = true := by decide +kernel

theorem witness_settings_clamp :
    takes part txA.port = true ∧ txA.extra = 0 ∧ permits part txA.port 0 = true ∧ permits part txA.port 1 = true
      ∧ permits part txA.port 2 = true ∧ permits part txA.port 3 = true ∧ part.power.offPending = false := by decide +kernel

theorem witness_sleep_and_wake :
    takes part txA.port = true ∧ txA.extra = 0 ∧ permits part txA.port 3 = true ∧ part.power.offPending = false := by decide +kernel

/-- The part with a POWER press record. -/
def pressed (held : Nat) : Part :=
  { part with power := { part.power with press := some { start := .active, held := held, long := decide (held ≠ 0) } } }

theorem witness_power_key_and_cover :
    (let s := { part with debounce := { part.debounce with cover := { level := false, candidate := some true } } }
     alive s = true ∧ s.power.forcedOff = false ∧ s.debounce.cover.candidate = some true)
      ∧ alive (pressed 0) = true ∧ (pressed 0).power.forcedOff = false ∧ (pressed 0).power.press = some { start := .active, held := 0, long := false }
      ∧ (pressed 2000).power.press = some { start := .active, held := 2000, long := true }
      ∧ ({ part with debounce := { part.debounce with power := { level := false, candidate := some true } } } : Part).debounce.power.candidate
          = some true := by decide +kernel

theorem witness_boot_triggers :
    (let s := { inState .off with power := { (inState .off).power with bootTiming := true } }
     alive s = true ∧ s.power.bootTiming = true ∧ s.pins.charger = false) := by decide +kernel

theorem witness_policy_and_alarms :
    takes part txA.port = true ∧ txA.extra = 0 ∧ permits part txA.port 3 = true ∧ part.power.offPending = false
      ∧ (let s := { part with power := { part.power with alarms := ⟨some 0, none⟩ } }
         alive s = true ∧ s.power.forcedOff = false ∧ s.power.alarms.get .A = some 0) := by decide +kernel

/-- SYSTEM-class commands of Port A, whose peer's presence input is LOW. -/
theorem witness_system_commands :
    takes part txA.port = true ∧ txA.extra = 0 ∧ permitsSystem part txA.port = true ∧ part.power.offPending = false
      ∧ part.supply = true := by decide +kernel

/-- A forced OFF entry waiting, with a candidate at each key and at the cover and both alarms at 0. -/
theorem witness_forced_off_waits :
    (let d := part.debounce
     let x : Debouncer := { level := false, candidate := some true }
     let s := forcedOff { part with
       debounce := { d with fwd := x, power := x, cover := x }, power := { part.power with alarms := ⟨some 0, some 0⟩ } }
     alive s = true ∧ s.power.forcedOff = true ∧ (keyOf s.debounce .fwd).candidate = some true ∧ s.debounce.power.candidate = some true
       ∧ s.debounce.cover.candidate = some true ∧ s.power.bootTiming = false ∧ s.pins.charger = false
       ∧ s.power.alarms.a = some 0 ∧ s.power.alarms.b = some 0) := by decide +kernel

theorem witness_off_entry :
    alive part = true ∧ offDue part = false
      ∧ (let s := { inState .settling with power := { (inState .settling).power with offPending := true } }
         alive s = true ∧ offDue s = true) := by decide +kernel

theorem witness_boot_ends : alive (inState .boot) = true ∧ (inState .boot).power.state = .boot ∧ (inState .boot).power.forcedOff = false := by
  decide +kernel

/-- An array whose block 0 holds the factory rights as a valid image. -/
def ratedPart : Part :=
  { part with flash := { part.flash with nand := [(0, programmedPage (rightsImage defaultRecords))] } }

/-- An array whose blocks 2 to 5 hold a sleep screen. -/
def screenPart : Part :=
  { part with flash := { part.flash with nand := (List.range 254).map fun k => (128 + k, .programmed [] []) } }

theorem witness_boot_loads :
    Memory.wf ratedPart.store.dram = true ∧ (bootRead [] ratedPart 0).1 = .corrected 0 ∧ imageValid (bootRead [] ratedPart 0).2 = true
      ∧ (bootRead [] part 0).1 = .erased ∧ (bootRead [(64, [.failed])] part 64).1 = .uncorrectable
      ∧ ((List.range 254).map fun k => bootRead [] screenPart (128 + k)).all
          (fun x => decide (x.1 ≠ .uncorrectable ∧ x.1 ≠ .erased)) = true
      ∧ (bootRead [] part 128).1 = .erased
      ∧ Nand.page ({ part with flash := { part.flash with nand := [(0, .torn)] } } : Part).flash.nand 0 = some .torn
      ∧ Nand.page part.flash.nand 0 = none
      ∧ (∀ y, y ∈ (eccOf [(0, [.corrected 8, .corrected 2])] 0).take 8 → y = .corrected 8 ∨ y = .corrected 2)
      ∧ Sector.failed ∈ (eccOf [(0, [.corrected 8, .failed])] 0).take 8
      ∧ (eccOf [(0, [.corrected 8, .failed])] 0).getD 0 (.corrected 0) = .corrected 8 := by decide +kernel

/-- A programmed page of 4,096 bytes. -/
theorem witness_boot_loads_page (spare : List Byte) :
    Nand.page ({ part with flash := { part.flash with nand := [(0, .programmed (List.replicate 4096 5) spare)] } } : Part).flash.nand 0
      = some (.programmed (List.replicate 4096 5) spare) ∧ (List.replicate 4096 (5 : Byte)).length = 4096 :=
  ⟨rfl, List.length_replicate⟩

/-! A waveform table that R66's checks take, in the array. -/

/-- The first 53,036 bytes of a table in which every frame count and every sequence byte is 1. -/
def tableBody : List Byte := [1, 0, 12, 64, 0, 0, 0, 0] ++ List.replicate 53028 1

/-- That table, with its CRC-32. -/
def onesTable : List Byte := tableBody ++ leWord (crc32 tableBody)

theorem tableBody_length : tableBody.length = 53036 := by
  rw [tableBody, List.length_append, List.length_replicate]; rfl

theorem onesTable_length : onesTable.length = 53040 := by rw [onesTable, List.length_append, tableBody_length]; rfl

theorem onesTable_at (n : Nat) (h : 8 ≤ n) (h' : n < 53036) : onesTable[n]? = some 1 := by
  rw [onesTable, List.getElem?_append_left (by rw [tableBody_length]; exact h'), tableBody,
    List.getElem?_append_right h, List.getElem?_replicate_of_lt (by change n - 8 < _; omega)]

theorem onesTable_head (n : Nat) (h : n < 8) : byteAt onesTable n = [(1 : Byte), 0, 12, 64, 0, 0, 0, 0].getD n 0xFF := by
  rw [byteAt, List.getD_eq_getElem?_getD, onesTable, List.getElem?_append_left (by rw [tableBody_length]; omega), tableBody,
    List.getElem?_append_left h, List.getD_eq_getElem?_getD]

theorem onesTable_band (k : Nat) (hk : k < 12) : bandValid onesTable k = true := by
  simp only [bandValid, Bool.and_eq_true, List.all_eq_true, List.mem_range, bandOffset]
  refine ⟨fun i hi => ?_, fun x hx => ?_⟩
  · have h : byteAt onesTable (8 + 4419 * k + i) = 1 := by
      rw [byteAt, List.getD_eq_getElem?_getD, onesTable_at _ (by omega) (by omega)]; rfl
    simp [h]
  · obtain ⟨i, hi⟩ := List.mem_iff_getElem?.mp hx
    rw [List.getElem?_take] at hi
    split at hi
    · rw [List.getElem?_drop, onesTable_at _ (by omega) (by omega)] at hi
      cases hi; rfl
    · cases hi

theorem onesTable_valid : tableValid onesTable = true := by
  have h : onesTable.take 53036 = tableBody := by rw [onesTable, ← tableBody_length, List.take_left]
  have h' : wordAt onesTable 53036 = crc32 tableBody := tableBody_length ▸ wordAt_leWord tableBody _
  simp only [tableValid, h, h', onesTable_length, halfAt, onesTable_head 0 (by omega), onesTable_head 1 (by omega),
    onesTable_head 2 (by omega), onesTable_head 3 (by omega)]
  simp
  exact onesTable_band

/-- An array whose block 1 holds that table. -/
def tablePart : Part :=
  { part with flash := { part.flash with nand := (List.range 13).map fun k => (64 + k, .programmed (pageOf onesTable k) []) } }

theorem tablePart_page (k : Nat) (h : k < 13) : Nand.page tablePart.flash.nand (64 + k) = some (.programmed (pageOf onesTable k) []) := by
  interval_cases k <;> rfl


/-- BOOT reads the table from the array, with no page of it uncorrectable. -/
theorem witness_boot_loads_table :
    Memory.wf tablePart.store.dram = true
      ∧ (∀ x, x ∈ (List.range 13).map (fun k => bootRead [] tablePart (64 + k)) → x.1 ≠ .uncorrectable)
      ∧ tableValid ((((List.range 13).map fun k => bootRead [] tablePart (64 + k)).flatMap Prod.snd).take 53040) = true := by
  refine ⟨by decide +kernel, fun x hx => ?_, ?_⟩
  · obtain ⟨k, hk, rfl⟩ := List.mem_map.mp hx
    rw [bootRead, tablePart_page k (List.mem_range.mp hk), show eccOf [] (64 + k) = [] from rfl]
    simp [readOutcome, anyFails, worstSector]
  · have h : ((List.range 13).map fun k => bootRead [] tablePart (64 + k)).flatMap Prod.snd = (List.range 13).flatMap (pageOf onesTable) := by
      rw [List.flatMap_map]
      refine List.flatMap_congr fun k hk => ?_
      rw [bootRead, tablePart_page k (List.mem_range.mp hk), show eccOf [] (64 + k) = [] from rfl]
      rw [readBytes_programmed _ _ _ _ (pageOf_length _ _)]
    have t := take_flatMap_pageOf 13 onesTable (by rw [onesTable_length]; decide)
    rw [onesTable_length] at t
    rw [h, t]
    exact onesTable_valid

/-- A page of one entry, then an erased page; a snapshot in block 6 and none in block 7; no snapshot at all. -/
theorem witness_journal_replay :
    (let places : Nat → List JRead := fun k => if k = 0 then [.entry (.freed 3), .erased] else [.erased]
     let whole : List (List JEntry) := [[.freed 3]]
     whole.length = 1 ∧ (∀ (i : Nat) (h : i < whole.length), whole[i] ≠ []
        ∧ ∃ rest, places i = whole[i].map JRead.entry ++ rest ∧ (rest = [] ∨ ∃ more, rest = .erased :: more))
       ∧ (∃ more, places 1 = .erased :: more))
      ∧ (let s := State.reset.part
         validSnapshot (scanBlock s.flash.nand s.fresh [] 6).1 = some 1 ∧ validSnapshot (scanBlock s.flash.nand s.fresh [] 7).1 = none)
      ∧ validSnapshot (scanBlock part.flash.nand part.fresh [] 6).1 = none
      ∧ validSnapshot (scanBlock part.flash.nand part.fresh [] 7).1 = none
      ∧ (let r : Replay :=
           { records := tableSet (Vector.replicate 32 freeJRecord) 3 { freeJRecord with state := .opened, extent := [9] }
             retired := [10], worn := false }
         (jrecord r 3).state ≠ .free ∧ (jrecord r 4).state = .free ∧ entryRecord (.claimed 4) = some 4
           ∧ (jrecord r 3).extent[0]? = some 9) := by
  refine ⟨⟨rfl, ?_, _, rfl⟩, by decide +kernel, by decide +kernel, by decide +kernel, by decide +kernel⟩
  intro i h
  match i, h with
  | 0, _ => exact ⟨by simp, [.erased], rfl, .inr ⟨_, rfl⟩⟩

/-- A journal whose snapshot holds five OPEN records of 256 blocks each, with open sequences 0 to 4, in block 6. -/
def overbooked : Part :=
  let opens := (List.range 5).map fun i => JEntry.opened (byteOf i) 0 .B 67108864 (BitVec.ofNat 32 i) 0 0
  let page := journalPage ([.snapBegin 1] ++ opens ++ [.snapEnd 1 7])
  { part with flash := { part.flash with nand := [(384, .programmed page [])] } }

/-- R154, R162 and R173: 1,280 reserved blocks over 1,016 pending ones are cut by 264, the whole 256 of the highest open
sequence and 8 of the next. -/
theorem witness_journal_replay_cut :
    let t := replayJournal [] overbooked
    validSnapshot (scanBlock overbooked.flash.nand overbooked.fresh [] 6).1 = some 1
      ∧ validSnapshot (scanBlock overbooked.flash.nand overbooked.fresh [] 7).1 = none
      ∧ t.flash.erasePending.length = 1016 ∧ (record t 3).seq < (record t 4).seq
      ∧ (List.range 6).map (fun i => (record t i).reservation) = [256, 256, 256, 248, 0, 0] := by decide +kernel

theorem witness_download_commands :
    takes part txB.port = true ∧ txB.extra = 0 ∧ permits part txB.port 4 = true ∧ part.power.offPending = false
      ∧ permits part txA.port 6 = true ∧ permits part txA.port 5 = true ∧ permits part txB.port 5 = true ∧ takes part .A = true := by
  decide +kernel

/-- A record that takes chunks, with and without a FILLING entry. -/
theorem witness_chunk_write :
    (let v := recordIn .opened 10 10000
     let s := withRecord v part
     takes s .B = true ∧ permits s .B 4 = true ∧ s.power.offPending = false ∧ s.flash.spool ≠ .faulted
       ∧ (record s 0).writer = .B ∧ (record s 0).state = .opened ∧ (record s 0).ending = false ∧ (10 : Word).toNat = (record s 0).received
       ∧ (record s 0).received + 1 ≤ (record s 0).declared ∧ (record s 0).running = some 0 ∧ s.spool.ring = [])
      ∧ (let s := withRecord (recordIn .opened 10 10000) (modifyRing (fun _ => [staged .filling 10]) part)
         let e := staged .filling 10
         takes s .B = true ∧ s.spool.ring = [] ++ e :: [] ∧ e.record = 0 ∧ e.state = .filling ∧ e.fill = e.data.length ∧ e.fill < 4096) := by decide +kernel

/-- The part with an armed ring of 32 entries. -/
def armed : Part :=
  let s := modifyRing (fun _ => List.replicate 32 (staged .full 3)) part
  { s with spool := { s.spool with arm := true } }

/-- R141 and R174: an armed ring that a format empties raises RING_SPACE with occupancy 0, and the arm is clear. -/
theorem test_format_ring_space :
    let s := after (.spoolFormat txA) armed
    notice (port s .B).notices .ringSpace = some { detail := [0, 0xFF, 0xFF, 0xFF, 0xFF, 0xFF, 0xFF, 0xFF], count := 1 }
      ∧ s.spool.arm = false ∧ takes armed txA.port = true ∧ permitsSystem armed txA.port = true
      ∧ armed.power.offPending = false ∧ 32 ≤ armed.spool.ring.length := by decide +kernel

/-- R141 and R171: so does one that a journal failure empties. -/
theorem test_journal_failure_ring_space :
    let s := after (.programEnd false) (running (.program 6 0 []) (.journal 1) armed)
    (notice (port s .B).notices .ringSpace).isSome = true ∧ notice (port s .A).notices .ringSpace = none
      ∧ s.spool.arm = false ∧ s.flash.spool = .faulted := by decide +kernel

/-- An armed ring at 32 entries before an event and at 31 after it. -/
theorem witness_ring_space :
    (let s (n : Nat) : Part := modifyRing (fun _ => List.replicate n (staged .full 3)) part
     let x : Part := { s 31 with spool := { (s 31).spool with arm := true } }
     x.spool.arm = true ∧ 32 ≤ (s 32).spool.ring.length ∧ x.spool.ring.length ≤ 31) := by decide +kernel

/-- An abandon with an operation in progress, which waits, and one during a recovery with none, which does not. -/
theorem witness_seal_and_abandon :
    (let s := running (.program 9 0 []) (.staging 0 0)
       (withRecord (recordIn .opened 0 8192) (modifyRing (fun _ => [staged .programming 3]) part))
     takes s .B = true ∧ permits s .B 4 = true ∧ s.power.offPending = false ∧ s.flash.spool ≠ .faulted
       ∧ (record s 0).writer = .B ∧ (record s 0).state = .opened ∧ (record s 0).ending = false
       ∧ s.spool.ring = [staged .programming 3] ∧ s.flash.running ≠ none)
      ∧ (let x : Recovery := { record := 0, position := 0, failed := 9, page := 0, target := none, moved := 0 }
         let s := recovering x (withRecord (recordIn .opened 0 8192) (modifyRing (fun _ => [staged .programming 3]) part))
         takes s .B = true ∧ s.flash.running = none ∧ s.flash.recovery = some x ∧ x.record = 0) := by decide +kernel

theorem witness_record_freed : (0 : Nat) < 32 ∧ (recordIn .sealed 3 3).state = .sealed := by decide +kernel

/-- Each kind of operation in progress. -/
theorem witness_flash_operation_ends :
    (∀ o ∈ [Operation.read 9 3, .program 9 3 [1], .erase 9, .move 9 10 3],
        alive (running o .scrub part) = true
          ∧ (running o .scrub part).flash.running = some { operation := o, job := .scrub, live := true, reads := none })
      ∧ part.flash.running = none
      ∧ (let s := running (.program 9 3 [1]) (.staging 0 0) part
         let o : Running := { operation := .program 9 3 [1], job := .staging 0 0, live := false, reads := none }
         ({ s with flash := { s.flash with running := some o } } : Part).flash.running = some o) := by decide +kernel

/-- A dropped read and a dropped move, and each kind of page and of report that a read can meet. -/
theorem witness_dropped_reads :
    (∀ o ∈ [Operation.read 9 3, .move 9 10 3],
        let x : Running := { operation := o, job := .scrub, live := false, reads := some (0, 0) }
        let s : Part := { part with flash := { part.flash with running := some x } }
        alive s = true ∧ s.power.forcedOff = false ∧ s.flash.running = some x ∧ x.live = false)
      ∧ (Sector.corrected 9 ∈ [Sector.corrected 8, .corrected 9].take 8 ∧ [Sector.corrected 8, .corrected 9].getD 0 (.corrected 0) = .corrected 8)
      ∧ (∀ y, y ∈ [Sector.corrected 8, .corrected 7].take 8 → y = .corrected 8 ∨ y = .corrected 7)
      ∧ [Sector.corrected 8].getD 8 (.corrected 0) = .corrected 0
      ∧ (List.replicate 8 (Sector.corrected 0) ++ [Sector.failed]).getD 8 (.corrected 0) = .failed := by decide +kernel

/-- A fetch whose page read is in progress. -/
def fetching : Part :=
  running (.read 9 3) (.fetch .A)
    (modifyPort .A (fun u => { u with fetch := .waiting 0 4095 1 false })
      { part with flash := { part.flash with nand := [(579, .programmed (List.replicate 4096 5) [])] } })

/-- A staging entry whose program is in progress. -/
def staging : Part :=
  running (.program 9 0 (List.replicate 4096 7)) (.staging 0 0)
    (withRecord (recordIn .opened 4096 8192) (modifyRing (fun _ => [staged .programming 4096]) part))

/-- A waiting fetch whose read is in progress, a PROGRAMMING entry, a block that the eraser erases, and a system write. -/
theorem witness_flash_jobs_end :
    (alive fetching = true ∧ fetching.power.forcedOff = false ∧ (port fetching .A).fetch = .waiting 0 4095 1 false
        ∧ Nand.page fetching.flash.nand 579 = some (.programmed (List.replicate 4096 5) [])
        ∧ (List.replicate 4096 (5 : Byte)).length = 4096)
      ∧ ((staging.spool.ring.find? fun x => decide (x.record = 0) && decide (x.page = 0)) = some (staged .programming 4096)
          ∧ (record staging 0).ending = false ∧ staging.flash.retired.length < 40 ∧ staging.flash.spool ≠ .worn
          ∧ (record (modifyRecord 0 (fun v => { v with ending := true }) staging) 0).ending = true)
      ∧ (let s := running (.program 0 0 [1]) .system
           { part with flash := { part.flash with system := [{ kind := .rights, step := 1, image := [] }] } }
         s.flash.system = [{ kind := .rights, step := 1, image := [] }]
           ∧ (running (.erase 0) .system s).flash.running
             = some { operation := .erase 0, job := .system, live := true, reads := none })
      ∧ (let i : JItem := { serial := 0, entry := .block 0 0 9 5, live := true }
         let s := running (.program 6 3 []) (.journal 1)
           (modifyJournal (fun j => { j with batch := [i] }) (withRecord (recordIn .sealing 3 300000) part))
         s.flash.journal.batch.head? = some i ∧ i.live = true ∧ (record s 0).durable < min 262144 (record s 0).declared)
      ∧ (let i : JItem := { serial := 0, entry := .sealed 0 false 9 none, live := true }
         let s := withRecord (recordIn .sealing 3 3) part
         i.live = true ∧ (record s 0).state = .sealing ∧ (0 : Byte).toNat < 32 ∧ s.flash.scrub = none) :=
  ⟨⟨by decide +kernel, by decide +kernel, by decide +kernel, rfl, List.length_replicate⟩,
    ⟨rfl, by decide +kernel, by decide +kernel, by decide +kernel, by decide +kernel⟩, by decide +kernel, by decide +kernel, by decide +kernel⟩

/-- A record with blocks 9 and 10, the first of which the scrub list holds. -/
def scrubbed : Part :=
  let s := withRecord { recordIn .sealed 300000 300000 with extent := [9, 10] } part
  { s with flash := { s.flash with free := [11], scrubList := [9] } }

/-- The relocation of block 9 to block 12. -/
def relocation (moved : Nat) (replace : Option Nat) : Scrub :=
  { record := 0, position := 0, old := 9, target := 12, moved := moved, replace := replace }

/-- A compaction at its erase, at its first page and at its last, with the format flag either way; an allocation's erase
with an entry that needs the block behind another record's FULL one, with one that does not, and with none; a scrub target's erase, the move of a
relocation at its first page and at its last; retirements with room and without; noted reads; and a written REPLACE. -/
theorem witness_maintenance_jobs_end :
    (let c (page : Nat) (erased format : Bool) : Compaction :=
       { dest := 7, generation := 2, pages := [[.snapBegin 2], [.snapEnd 2 2]], page := page, isErased := erased, format := format }
     let s (o : Operation) (x : Compaction) : Part := running o .compaction (modifyJournal (fun j => { j with compaction := some x }) part)
     alive (s (.erase 7) (c 0 false false)) = true ∧ (s (.erase 7) (c 0 false false)).power.forcedOff = false
       ∧ (s (.erase 7) (c 0 false false)).flash.journal.compaction = some (c 0 false false)
       ∧ 0 < (c 0 false false).pages.length ∧ (c 1 true false).pages.length ≤ 1 + 1 ∧ (c 1 true true).format = true
       ∧ (s (.program 7 1 []) (c 1 true true)).flash.journal.compaction = some (c 1 true true))
      ∧ (let s (pages extent : Nat) : Part := running (.erase 9) (.allocation 0)
           (withRecord { recordIn .opened 4096 300000 with extent := List.range extent, reservation := 1 }
             (modifyRing (fun _ => [{ staged .full 3 with record := 1 }, { staged .full 3 with page := pages }]) part))
         let older : List Staged := [{ staged .full 3 with record := 1 }]
         (s 64 1).spool.ring = older ++ { staged .full 3 with page := 64 } :: [] ∧ (∀ y, y ∈ older → y.record = 0 → y.state ≠ .full)
           ∧ mayDraw 0 (s 64 1) = true
           ∧ (record (s 64 1) 0).extent.length ≤ 64 / 64 ∧ (s 64 1).flash.recovery = none
           ∧ 1 < (record (s 64 2) 0).extent.length ∧ part.spool.ring = [])
      ∧ (scrubbed.flash.scrubList.head? = some 9 ∧ scrubbable 9 scrubbed = some (0, 0)
          ∧ totalReservation scrubbed < poolBlocks scrubbed ∧ scrubbable 9 part = none
          ∧ poolBlocks part ≤ totalReservation part)
      ∧ (let s := running (.move 9 12 5) .scrub { scrubbed with flash := { scrubbed.flash with
           scrub := some (relocation 5 none), nand := [(581, .programmed (List.replicate 4096 5) [])] } }
         s.flash.scrub = some (relocation 5 none) ∧ Nand.page s.flash.nand 581 = some (.programmed (List.replicate 4096 5) [])
           ∧ (relocation 5 none).moved + 1 < 64 ∧ 64 ≤ (relocation 63 none).moved + 1)
      ∧ (part.flash.retired.length < 40 ∧ 40 ≤ (retiredOut part).flash.retired.length)
      ∧ (9 ∈ (record scrubbed 0).extent ∧ (record scrubbed 0).extent.getLast? ≠ some 9 ∧ 9 ∉ part.flash.scrubList
          ∧ (record scrubbed 0).state ≠ .free ∧ (record scrubbed 0).extent.Nodup)
      ∧ (let s : Part := { scrubbed with flash := { scrubbed.flash with scrub := some (relocation 64 (some 7)) } }
         s.flash.scrub = some (relocation 64 (some 7)) ∧ (relocation 64 (some 7)).replace = some 7
           ∧ (record s 0).extent[0]? = some 9 ∧ (0 : Nat) < 32) :=
  ⟨by decide +kernel, by decide +kernel, by decide +kernel, ⟨rfl, rfl, by decide, by decide⟩, by decide +kernel, by decide +kernel,
    by decide +kernel⟩

/-- A recovery that has yet to draw its replacement, with a block to draw, with a pending one only and with none, with a
relocation in its way; one with its replacement, in a move and in its program; the erase for it; and a staging program that
fails in each of the three cases that begin none. -/
theorem witness_recovery_steps :
    (let x (target : Option Nat) : Recovery := { record := 0, position := 0, failed := 9, page := 3, target := target, moved := 0 }
     let v := { recordIn .opened 12288 300000 with extent := [9], reservation := 1 }
     let e := { staged .programming 3 with page := 3 }
     let s (target : Option Nat) : Part := recovering (x target) (withRecord v (modifyRing (fun _ => [e]) part))
     let free : Part := { s none with flash := { (s none).flash with free := [11] } }
     let pending (h : Hold) : Part := { s none with flash := { (s none).flash with erasePending := [{ block := 11, hold := h }] } }
     (s none).flash.recovery = some (x none) ∧ (0 < (record (s none) 0).reservation) ∧ free.flash.free.head? = some 11
       ∧ (pending .free).flash.erasePending = [] ++ { block := 11, hold := .free } :: [] ∧ (pending .free).flash.spool ≠ .worn
       ∧ (pending (.entry 3)).flash.erasePending ≠ [] ∧ (s none).flash.erasePending = []
       ∧ (let z : Part := { s none with flash := { (s none).flash with scrub := some (relocation 64 (some 7)) } }
          z.flash.scrub = some (relocation 64 (some 7)) ∧ (relocation 64 (some 7)).replace = some 7)
       ∧ stagedEntry 0 (64 * 0 + 3) (s (some 11)) = some e
       ∧ (let y := running (.move 9 11 0) .recovery (s (some 11))
          alive y = true ∧ y.power.forcedOff = false ∧ y.flash.recovery = some (x (some 11)) ∧ (record y 0).ending = false)
       ∧ (let y := running (.erase 11) .replacement (pending .free)
          alive y = true ∧ y.flash.recovery = some (x none) ∧ mayDraw 0 y = true)
       ∧ (let y := running (.program 9 3 []) (.staging 0 3) (withRecord v (modifyRing (fun _ => [e]) part))
          alive y = true ∧ y.power.forcedOff = false ∧ (record y 0).ending = false ∧ y.flash.retired.length < 40
            ∧ 40 ≤ (retiredOut y).flash.retired.length
            ∧ ({ y with flash := { y.flash with spool := .worn } } : Part).flash.spool = .worn
            ∧ (record (withRecord { v with ending := true } y) 0).ending = true)) := by decide +kernel

/-- An entry that is in the ring, one that is not, and a SEALING record whose last entry it is, in a block whose 64th page is
not programmed: its SEAL entry names that block (R147). -/
theorem witness_staging_done :
    (staging.spool.ring.find? fun x => decide (x.record = 0) && decide (x.page = 0)) = some (staged .programming 4096)
      ∧ (part.spool.ring.find? fun x => decide (x.record = 0) && decide (x.page = 0)) = none
      ∧ (let s := withRecord { recordIn .sealing 4096 4096 with extent := [9], expected := 3 } staging
         (stagingDone 0 0 s).flash.journal.batch.map JItem.entry = [.sealed 0 true 0 (some (0, 9))]) := by
  refine ⟨rfl, rfl, by decide +kernel⟩

theorem witness_arbiter_order :
    alive part = true ∧ part.power.forcedOff = false ∧ part.power.state = .active ∧ part.flash.running = none
      ∧ part.flash.journal.compaction = none ∧ part.flash.journal.batch = [] ∧ part.flash.system = []
      ∧ part.flash.recovery = none ∧ part.flash.scrub = none ∧ part.flash.scrubList = [] ∧ part.flash.spool = .ready
      ∧ alive (inState .hold) = true ∧ (inState .hold).power.state ≠ .active := by decide +kernel

/-- The part with a due compaction, an entry waiting. -/
def compactionDue : Part :=
  modifyJournal (fun j => { j with batch := [{ serial := 0, entry := .freed 3, live := true }], active := some 6, due := true }) part

/-- The part with a FULL entry at the first page of a block, and what there is to take one from. -/
def allocating (free : List Nat) (pending : List ErasePending) (reservation : Nat) : Part :=
  let s := withRecord { recordIn .opened 4096 300000 with extent := [9], reservation := reservation }
    (modifyRing (fun _ => [{ staged .full 3 with page := 64 }]) part)
  { s with flash := { s.flash with free := free, erasePending := pending, journal := { s.flash.journal with active := some 6 } } }

/-- A due compaction; a FULL entry with a free block, with a pending one, with held ones only and with none, and one that may
not draw; and a scrub list's head that may be relocated, to a free block, to a pending one and to none, and one that may not. -/
theorem witness_arbiter_begins :
    (compactionDue.flash.journal.batch ≠ [] ∧ compactionDue.flash.journal.active = some 6 ∧ compactionDue.flash.journal.due = true
        ∧ compactionDue.flash.journal.compaction = none)
      ∧ (let e : Staged := { staged .full 3 with page := 64 }
         let s := allocating [11] [] 1
         alive s = true ∧ s.power.state = .active ∧ s.flash.running = none ∧ s.spool.ring = [] ++ e :: [] ∧ e.page % 64 = 0
           ∧ (record s 0).extent.length = e.page / 64 ∧ 0 < (record s 0).reservation
           ∧ s.flash.free.find? (fun b => decide (s.spool.pointer ≤ b)) = some 11)
      ∧ (let s := allocating [] [{ block := 11, hold := .free }] 1
         s.flash.free = [] ∧ s.flash.spool ≠ .worn ∧ s.flash.erasePending = [] ++ { block := 11, hold := .free } :: [])
      ∧ (let s := allocating [] [{ block := 11, hold := .format }] 1
         s.flash.erasePending ≠ [] ∧ ∀ x, x ∈ s.flash.erasePending → x.hold ≠ .free)
      ∧ ((allocating [] [] 1).flash.erasePending = [] ∧ (allocating [] [] 1).flash.journal.active ≠ none
          ∧ totalReservation (allocating [] [] 0) = 0 ∧ poolBlocks (allocating [] [] 0) = 0)
      ∧ (scrubbed.flash.scrub = none ∧ scrubbed.flash.scrubList = 9 :: [] ∧ scrubbable 9 scrubbed = some (0, 0)
          ∧ totalReservation scrubbed < poolBlocks scrubbed ∧ scrubbable 10 scrubbed = none
          ∧ scrubbed.flash.free.find? (fun b => decide (scrubbed.spool.pointer ≤ b)) = some 11
          ∧ (record scrubbed 0).extent[0]? = some 9 ∧ (0 : Nat) + 1 < (record scrubbed 0).extent.length
          ∧ ∀ i, i < 32 → (record scrubbed i).extent.Nodup)
      ∧ (let s (h : Hold) : Part := { scrubbed with flash := { scrubbed.flash with free := [], erasePending := [{ block := 11, hold := h }] } }
         totalReservation (s .free) < poolBlocks (s .free) ∧ (s .free).flash.free = []
           ∧ ∀ x, x ∈ (s .format).flash.erasePending → x.hold ≠ .free) := by decide +kernel

/-- A recovery standing: with a block to draw, waiting for held ones with and without one to erase, and with none. -/
theorem witness_arbiter_recovery :
    (let x : Recovery := { record := 0, position := 0, failed := 9, page := 0, target := none, moved := 0 }
     let s (free : List Nat) (pending : List ErasePending) : Part :=
       recovering x (modifyRing (fun _ => [{ staged .programming 3 with page := 0 }]) (allocating free pending 1))
     let scrubs (r : Option Nat) : Part :=
       let y := s [] [{ block := 11, hold := .free }]
       { y with flash := { y.flash with scrub := some (relocation 5 r) } }
     (s [11] []).flash.recovery = some x ∧ (s [11] []).flash.journal.batch = [] ∧ (s [11] []).flash.system = []
       ∧ ((serveSpool (s [11] [])).2 = false ∧ (serveSpool (s [11] [])).1.flash.running ≠ none)
       ∧ ((serveSpool (s [] [{ block := 11, hold := .format }])).2 = false
          ∧ (serveSpool (s [] [{ block := 11, hold := .format }])).1.flash.running = none)
       ∧ ((serveSpool (scrubs (some 7))).2 = false ∧ (serveSpool (scrubs (some 7))).1.flash.running = none
          ∧ (scrubs (some 7)).flash.erasePending = [] ++ { block := 11, hold := .free } :: [] ∧ (scrubs (some 7)).flash.spool = .ready)
       ∧ ((serveSpool (s [] [])).2 = true ∧ (s [] []).flash.journal.active = some 6)) := by decide +kernel

theorem witness_flash_images :
    [JEntry.freed 3].length ≤ 128 ∧ defaultRecords.a.mask.toNat < 2 ^ 28 ∧ defaultRecords.b.mask.toNat < 2 ^ 28
      ∧ defaultRecords.a.caps &&& defaultRecords.a.defer = 0 ∧ defaultRecords.b.caps &&& defaultRecords.b.defer = 0 := by
  decide +kernel

/-- Port B's LIGHT SET is deferrable by its factory rights, its TURN LIST SET is neither, and SPOOL FORMAT of Port A waits
for consent while Port B is present. -/
theorem witness_capability_check :
    (let i := Instr.lightSet txB 1 2 3
     i.wellFormed = true ∧ commandCode i = some 0x16 ∧ isSample i = false ∧ strayData i = 0 ∧ takes part .B = true ∧ needOf 0x16 = .capability 2
       ∧ (part.rights.records.get .B).caps.getLsbD 2 = false ∧ (part.rights.records.get .B).defer.getLsbD 2 = true)
      ∧ (needOf 0x0C = .capability 0 ∧ (part.rights.records.get .B).caps.getLsbD 0 = false
          ∧ (part.rights.records.get .B).defer.getLsbD 0 = false)
      ∧ (let s := { part with debounce := { part.debounce with presence := ⟨⟨false, none⟩, ⟨true, none⟩⟩ } }
         needOf 0x29 = .system ∧ takes s .A = true ∧ (s.debounce.presence.get (peer .A)).level = true) := by decide +kernel

theorem witness_peer_request_endings :
    takes part txA.port = true ∧ txA.extra = 0 ∧ alive part = true
      ∧ (let s := { part with debounce := { part.debounce with presence := ⟨⟨true, some false⟩, ⟨false, none⟩⟩ } }
         alive s = true ∧ (s.debounce.presence.get .A).candidate = some false)
      ∧ (let i := Instr.sleep txA
         commandCode i = some 0x1A ∧ isReadCode 0x1A = false ∧ (∃ n, n < 7 ∧ needOf 0x1A = .capability n) ∧ strayData i = 0
           ∧ takes part (commandPort i) = true ∧ verdict i (commandPort i) part = .pass ∧ offRefuses part i = false) := by
  decide +kernel

/-- Ignored, woken by its own select and by a whole transaction in HOLD, taken and in BOOT; and the samples. -/
theorem witness_framing :
    isTransaction (.lightRead ⟨.A, .deselect⟩) = true ∧ selectsAs .ignored (inState .off) .A = true
      ∧ (port (onLine .hold .A (inState .settling)) .A).line = .hold
      ∧ ((port (inState .hold) .A).line = .deselected ∧ lineAtSelect (inState .hold) = .hold)
      ∧ (isSample (.lightRead ⟨.A, .sample⟩) = true ∧ commandPort (.lightRead ⟨.A, .sample⟩) = .A ∧ isSample (.lightRead ⟨.A, .deselect⟩) = false)
      ∧ selectsAs .taken part .A = true ∧ selectsAs .boot (inState .boot) .A = true
      ∧ strayData (.sleep { port := .A, extra := 1 }) ≠ 0
      ∧ (let i := Instr.sleep txA
         i.wellFormed = true ∧ commandCode i = some 0x1A ∧ strayData i = 0 ∧ takes offPending .A = true
           ∧ verdict i .A offPending = .pass ∧ offRefuses offPending i = true) := by decide +kernel

theorem witness_frame_faults :
    (let f : Frame := { bits := 8, command := 0x22, bytes := [1, 2, 3, 4], cutByte := false, readAll := true }
     8 ≤ f.bits ∧ f.command.toNat < 192 ∧ paramCount (f.command.toNat % 64) = some 5 ∧ f.bytes.length < 5)
      ∧ 192 ≤ (0xC0 : Byte).toNat ∧ 0x33 ≤ (0x33 : Byte).toNat % 64 ∧ isReadCode 0x17 = true ∧ isReadCode 0x16 = false
      ∧ paramCount 0x17 = some 0 := by
  decide +kernel

theorem witness_reads_and_status :
    takes part .A = true ∧ selectsAs .taken part .A = true ∧ selectsAs .boot (inState .boot) .A = true
      ∧ part.flash.identity.factoryBad.length ≤ 20 ∧ (port part .A).sample = none := by decide +kernel

theorem witness_read_layouts :
    takes part .A = true ∧ permits part .A 5 = true ∧ part.flash.spool ≠ .faulted
      ∧ (let s : Part := { part with flash := { part.flash with spool := .faulted } }
         takes s .A = true ∧ permits s .A 5 = true ∧ s.flash.spool = .faulted) := by decide +kernel

/-- BATTERY pending and enabled at Port A, with nothing sampled, and with a sample of it in progress; and a sample of a
PEER_REQUEST that has been cleared since. -/
theorem witness_notice_unit :
    (let s := raise .A .battery [1] part
     selectsAs .taken s .A = true ∧ (port s .A).sample = none ∧ (notice (port s .A).notices .battery).isSome = true
       ∧ (port s .A).notices.enables.getLsbD (kindIndex .battery) = true ∧ notice (port s .A).notices .booted = none)
      ∧ (let s := modifyPort .A (fun u => { u with sample := some { data := [2], kind := some .battery, raises := 2 } }) (raise .A .battery [1] part)
         selectsAs .taken s .A = true ∧ (port s .A).sample = some { data := [2], kind := some .battery, raises := 2 })
      ∧ (let s := modifyPort .A (fun u => { u with sample := some { data := [0], kind := none, raises := 0 } }) part
         selectsAs .taken s .A = true ∧ (port s .A).sample = some { data := [0], kind := none, raises := 0 })
      ∧ (let s := modifyPort .A (fun u => { u with sample := some { data := [4], kind := some .peerRequest, raises := 0 } }) part
         selectsAs .taken s .A = true ∧ (port s .A).sample = some { data := [4], kind := some .peerRequest, raises := 0 }
           ∧ notice (port s .A).notices .peerRequest = none)
      ∧ allKinds.all (fun k => decide (notice (port part .A).notices k = none)) = true := by decide +kernel

theorem witness_command_reads_back :
    (let i := Instr.turnListSet { port := .A, extra := 1 } 1 ([27] ++ List.replicate 27 0xFF) 0
     i.wellFormed = true ∧ commandCode i = some 0x0C ∧ isSample i = false ∧ (2 : Nat) < 3
       ∧ [(0 : Byte)].length = strayData i) := by decide +kernel

/-- The part in ACTIVE with every spool block in the free pool. -/
def pooled : Part := { part with flash := { part.flash with free := List.range' 8 1016 } }

/-- The part in HOLD with slot 5 READY and its segment retained. -/
def holding : Part :=
  let s := setSlot 5 { slotIn .ready .A with key := some 3 } (inState .hold)
  { s with store := { s.store with retained := some [1, 7] } }

theorem pooled_blocks_once (i : Nat) (h : i < 1016) : (List.range' 8 1016).count (8 + i) = 1 :=
  List.count_eq_one_of_mem List.nodup_range' (List.mem_range'_1.mpr (by omega))

theorem pooled_blocks_legal : blocksLegal pooled = true := by
  have h : placedBlocks pooled = List.range' 8 1016 := by decide +kernel
  unfold blocksLegal
  rw [h, List.all_eq_true.mpr (fun b hb => by have := List.mem_range'_1.mp hb; simp [Config.firstSpool, Config.nandBlocks]; omega),
    List.all_eq_true.mpr (fun i hi => by
      simpa [Config.firstSpool] using pooled_blocks_once i (by simpa [Config.firstSpool, Config.nandBlocks] using hi))]
  decide +kernel

/-- States that meet the seven invariants, and a step from each kind of them that answers a next state. -/
theorem witness_invariants :
    memoriesCanonical part = true ∧ lightLegal part = true ∧ turnLegal part = true ∧ engineBounded part = true
      ∧ slotTableLegal part = true ∧ holdLegal part = true ∧ slotTableLegal holding = true ∧ holdLegal holding = true
      ∧ spoolStands pooled = true := by decide +kernel

theorem witness_spool_legal : spoolLegal pooled = true := by
  have h : (List.range 32).all (recordLegal pooled) = true := by decide +kernel
  simp only [spoolLegal, spoolCore, pooled_blocks_legal, h]
  decide +kernel

theorem witness_invariants_step : step (st part) = .next (st part) ∧ step (st holding) = .next (st holding)
    ∧ step (st pooled) = .next (st pooled) := ⟨rfl, rfl, rfl⟩

end Sys2Proof.Tests
end

section
/-! PROOFS. Turning pages (chapter 2): TURN LIST SET (R24). Its test is read place by place (`listValid_iff`), its
transaction comes down to `setTurnList` on the part in its transaction, and a change of the turn state commutes with
settling the result. -/

namespace Sys2Proof.Machine

/-! ### The places of TURN LIST SET (R24, R197) -/

/-- The slot that a place names, as a number. -/
def placeAt (places : List Byte) (k : Nat) : Nat := (places.getD k 0).toNat

/-- R24's conditions on a list of `n` slots with its cursor: a length in range, the places past the list 0xFF, each of
its slots a page slot, no slot twice, and the cursor within it. -/
def TurnListLegal (n : Nat) (places : List Byte) (cursor : Nat) : Prop :=
  n ≠ 0 ∧ n ≤ 28 ∧ (∀ k, n ≤ k → k < 28 → placeAt places k = 0xFF) ∧ (∀ k, k < n → placeAt places k ≤ 27)
    ∧ (∀ j k, j < k → k < n → placeAt places j ≠ placeAt places k) ∧ cursor < n

theorem placeAt_eq_getElem {places : List Byte} {k : Nat} (h : k < places.length) :
    placeAt places k = places[k].toNat := by
  rw [placeAt, List.getD_eq_getElem _ _ h]

/-- The list that the model takes holds the first `n` places in their order. -/
theorem map_toNat_take_eq_map_placeAt {n : Nat} {places : List Byte} (h : n ≤ places.length) :
    (places.take n).map BitVec.toNat = (List.range n).map (placeAt places) := by
  refine List.ext_getElem (by simpa using h) fun k _ hk => ?_
  have hk' : k < n := by simpa using hk
  simp [placeAt_eq_getElem (hk'.trans_le h)]

theorem forall_mem_drop_eq_erased_iff {n : Nat} {places : List Byte} :
    (∀ b ∈ places.drop n, b = 0xFF) ↔ ∀ k, n ≤ k → k < places.length → placeAt places k = 0xFF := by
  have byte_iff (b : Byte) : b = 0xFF ↔ b.toNat = 0xFF := BitVec.toNat_inj.symm
  simp only [List.mem_drop_iff_getElem, byte_iff]
  constructor
  · intro h k hn hk
    rw [placeAt_eq_getElem hk]
    exact h _ ⟨k - n, by omega, by simp only [Nat.add_sub_cancel' hn]⟩
  · rintro h _ ⟨i, hi, rfl⟩
    rw [← placeAt_eq_getElem]
    exact h (n + i) (by omega) (by omega)

theorem nodup_map_range_iff {n : Nat} {f : Nat → Nat} :
    ((List.range n).map f).Nodup ↔ ∀ j k, j < k → k < n → f j ≠ f k := by
  simp only [List.Nodup, List.pairwise_iff_getElem, List.length_map, List.length_range, List.getElem_map,
    List.getElem_range]
  exact ⟨fun h j k hjk hk => h j k (hjk.trans hk) hk hjk, fun h j k _ hk hjk => h j k hjk hk⟩

/-- The model's test of TURN LIST SET's parameters is R24's. -/
theorem listValid_iff {n : Nat} {places : List Byte} {cursor : Nat} (hlen : places.length = 28) :
    listValid n places cursor = true ↔ TurnListLegal n places cursor := by
  by_cases hn : n ≤ 28
  · have hlist := map_toNat_take_eq_map_placeAt (hn.trans_eq hlen.symm)
    have hpage (k : Nat) : k ≤ 27 ↔ k < 28 := Nat.lt_succ_iff.symm
    simp only [listValid, hlist, TurnListLegal, Bool.and_eq_true, decide_eq_true_eq, List.all_eq_true, beq_iff_eq,
      forall_mem_drop_eq_erased_iff, nodup_map_range_iff, List.forall_mem_map, List.mem_range, List.length_map,
      List.length_range, hlen, hpage, Nat.one_le_iff_ne_zero, and_true, and_assoc]
  · simp [listValid, TurnListLegal, hn]

/-! ### The command (R24) -/

/-- TURN LIST SET taken: the list, the cursor and the backlog change, and nothing else. -/
theorem setTurnList_of_legal {n : Byte} {places : List Byte} {c : Byte} (hlen : places.length = 28)
    (h : TurnListLegal n.toNat places c.toNat) (s : Part) :
    setTurnList n places c s
      = (modifyTurn (fun t => { t with
          list := (List.range n.toNat).map (placeAt places), cursor := some c.toNat, backlog := 0 }) s,
        some { code := .ok }) := by
  have ⟨_, hn, _⟩ := h
  rw [setTurnList, if_pos ((listValid_iff hlen).mpr h), map_toNat_take_eq_map_placeAt (hn.trans_eq hlen.symm)]

/-- TURN LIST SET refused: nothing changes. -/
theorem setTurnList_of_not_legal {n : Byte} {places : List Byte} {c : Byte} (hlen : places.length = 28)
    (h : ¬ TurnListLegal n.toNat places c.toNat) (s : Part) :
    setTurnList n places c s = (s, some { code := .badParam }) := by
  rw [setTurnList, if_neg ((listValid_iff hlen).not.mpr h)]

theorem settleWith_some (p : Port) (r : Reply) (s : Part) : settleWith p (s, some r) = settle p r s := rfl

/-- A change of the turn state commutes with recording a result: the ports and the turn controller are apart. -/
theorem settle_modifyTurn (p : Port) (r : Reply) (f : Turn → Turn) (s : Part) :
    settle p r (modifyTurn f s) = modifyTurn f (settle p r s) := rfl

/-- A TURN LIST SET that is taken, without stray bytes, from a port that holds TURN, while no orderly OFF is in progress,
answers as the turn controller does. -/
theorem exec_turnListSet_of_takes (tx : Tx) (n : Byte) (places : List Byte) (c : Byte) (s : State)
    (ht : takes s.part tx.port = true) (hx : tx.extra = 0) (hp : permits s.part tx.port 0 = true)
    (ho : s.part.power.offPending = false) :
    exec (.turnListSet tx n places c) s
      = .next { s with part := settleWith tx.port (setTurnList n places c (inTransaction s.part tx.port)) } := by
  have hv : verdict (.turnListSet tx n places c) tx.port s.part = .pass := verdict_of_permits _ _ _ 0 rfl hp
  have hoff : offRefuses s.part (.turnListSet tx n places c) = false := by simp [offRefuses, ho]
  have hpart := transact_pass (.turnListSet tx n places c) (setTurnList n places c) s.part ht hx hv hoff
  exact congrArg (fun q => Host.Outcome.next { s with part := q }) hpart

/-- Settles O8: the test is R24's by `listValid_iff`, and either answer is settled on the part in its transaction. -/
theorem turnListSetResult : Obligations.TurnListSetResult := by
  intro tx n places c s ht hx hp ho hlen place good
  rw [exec_turnListSet_of_takes tx n places c s ht hx hp ho]
  constructor
  · intro (h : TurnListLegal n.toNat places c.toNat)
    rw [setTurnList_of_legal hlen h, settleWith_some, settle_modifyTurn, settle_inTransaction]
    rfl
  · intro (h : ¬ TurnListLegal n.toNat places c.toNat)
    rw [setTurnList_of_not_legal hlen h, settleWith_some, settle_inTransaction]

end Sys2Proof.Machine
end

section
/-! PROOFS. Display updates (chapter 3): UPDATE CANCEL (R44). What it removes and what it counts are one test on an
entry's origin, and a change of the engine commutes with settling the result. -/

namespace Sys2Proof.Machine

/-- UPDATE CANCEL keeps the entries of every other origin in their order and answers the number of its own (R44). -/
theorem cancelUpdates_eq (p : Port) (s : Part) :
    cancelUpdates p s
      = (modifyEngine (fun e => { e with queue := e.queue.filter fun u => decide (u.origin ≠ .port p) }) s,
        some { code := .ok, value := BitVec.ofNat 32 (s.engine.queue.countP fun u => decide (u.origin = .port p)) }) := by
  simp only [cancelUpdates, List.countP_eq_length_filter, ne_eq, decide_not]

/-- A change of the engine commutes with recording a result: the ports and the engine are apart. -/
theorem settle_modifyEngine (p : Port) (r : Reply) (f : Engine → Engine) (s : Part) :
    settle p r (modifyEngine f s) = modifyEngine f (settle p r s) := rfl

/-- A taken command of a capability that its port holds, without stray bytes and while no orderly OFF is in progress,
answers as its owning block does (R181). -/
theorem transact_of_permits (i : Instr) (f : Part → Part × Option Reply) (s : Part) {n : Nat}
    (hn : needOf (codeOf i) = .capability n) (ht : takes s (commandPort i) = true) (hx : strayData i = 0)
    (hp : permits s (commandPort i) n = true) (ho : s.power.offPending = false) :
    transact i f s = settleWith (commandPort i) (f (inTransaction s (commandPort i))) := by
  have hv : verdict i (commandPort i) s = .pass := verdict_of_permits i _ s n hn hp
  have hoff : offRefuses s i = false := by simp [offRefuses, ho]
  exact transact_pass i f s ht hx hv hoff

/-- An UPDATE CANCEL that is taken, without stray bytes, from a port that holds DISPLAY, while no orderly OFF is in
progress, answers as the engine does. -/
theorem exec_updateCancel_of_takes (tx : Tx) (s : State) (ht : takes s.part tx.port = true) (hx : tx.extra = 0)
    (hp : permits s.part tx.port 1 = true) (ho : s.part.power.offPending = false) :
    exec (.updateCancel tx) s
      = .next { s with part := settleWith tx.port (cancelUpdates tx.port (inTransaction s.part tx.port)) } := by
  have hpart := transact_of_permits (.updateCancel tx) (cancelUpdates tx.port) s.part rfl ht hx hp ho
  exact congrArg (fun q => Host.Outcome.next { s with part := q }) hpart

/-- Settles O13: the removal and the count are `cancelUpdates_eq`'s, settled on the part in its transaction, whose queue
is the part's own. -/
theorem updateCancelResult : Obligations.UpdateCancelResult := by
  intro tx s ht hx hp ho e
  rw [exec_updateCancel_of_takes tx s ht hx hp ho, cancelUpdates_eq, settleWith_some, settle_modifyEngine,
    settle_inTransaction]
  rfl

end Sys2Proof.Machine
end

section
/-! PROOFS. The step (section 11.1): what each command and event makes of the part, as one function of the part
(`partAfter`), and the parts of a step that every invariant has to survive (`Kept`): an invariant that the blocks'
own operations keep is kept by every step (`Kept.step`). -/

namespace Sys2Proof.Machine

/-! ### What a command makes of the part -/

/-- What `exec` makes of the part, by itself. -/
def partAfter (i : Instr) (s : Part) : Part :=
  match exec i { part := s, pending := [] } with
  | .next t => t.part
  | .fault _ => s
  | .refused _ => s

/-- Every command completes, leaves the queue alone, and makes of the part what does not depend on the queue. -/
theorem exec_eq_partAfter (i : Instr) (s : State) : exec i s = .next { s with part := partAfter i s.part } := by
  cases i <;> rfl

/-- Settles O1: the step is defined by what stands at the queue's front. -/
theorem stepTakesFront : Obligations.StepTakesFront := ⟨fun _ _ _ => rfl, fun _ => rfl⟩

/-- Settles O2: `partAfter` is the function. -/
theorem everyCommandCompletes : Obligations.EveryCommandCompletes := fun i => ⟨partAfter i, exec_eq_partAfter i⟩

/-- A step idles, or takes the front command. -/
theorem step_cases {s t : State} (h : step s = .next t) :
    t.part = s.part ∨ ∃ i rest, s.pending = i :: rest ∧ t.part = partAfter i s.part := by
  rcases hp : s.pending with _ | ⟨i, rest⟩
  · rw [step, hp] at h
    exact .inl (by cases h; rfl)
  · rw [step, hp] at h
    simp only [exec_eq_partAfter, Host.Outcome.next.injEq] at h
    exact .inr ⟨i, rest, rfl, by rw [← h]⟩

/-! ### What keeps an invariant -/

/-- `f` keeps `P`. -/
def Keeps (P : Part → Prop) (f : Part → Part) : Prop := ∀ s, P s → P (f s)

/-- A transaction that the part will answer is in progress on a port. -/
def InHand (s : Part) : Prop := ∃ p, (port s p).line = .boot ∨ (port s p).line = .taken

/-- `f` keeps `P` where a transaction is in progress. -/
def KeepsInHand (P : Part → Prop) (f : Part → Part × Option Reply) : Prop := ∀ s, InHand s → P s → P (f s).1

/-- A change of a port's unit that leaves its line or ends its transaction. -/
def LineRests (f : PortUnit → PortUnit) : Prop := ∀ u, (f u).line = u.line ∨ (f u).line = .deselected

/-- A change of the power controller that leaves the power state and the OFF entries as they are. -/
def StateRests (f : Power → Power) : Prop :=
  ∀ p, (f p).state = p.state ∧ (f p).offPending = p.offPending ∧ (f p).forcedOff = p.forcedOff

/-- The bytes of a write that are not dropped land in the image. -/
def PlacesInImage (places : List (Option Nat × Byte)) : Prop := ∀ x ∈ places, ∀ o, x.1 = some o → o < Config.imageBytes

theorem placesInImage_run (offset : Nat) (data : List Byte) : PlacesInImage (runPlaces offset data) := by
  intro x hx o ho
  obtain ⟨⟨b, i⟩, _, rfl⟩ := List.mem_map.mp hx
  dsimp only at ho
  split at ho
  · cases ho
    assumption
  · cases ho

theorem placesInImage_rect (bc y bw h : Nat) (data : List Byte) : PlacesInImage (rectPlaces bc y bw h data) := by
  intro x hx o ho
  obtain ⟨⟨b, i⟩, _, rfl⟩ := List.mem_map.mp hx
  dsimp only at ho
  split at ho
  · next hin =>
    cases ho
    obtain ⟨_, hcol, hrow⟩ := hin
    simp only [Config.rowBytes, Config.panelRows, Config.imageBytes] at hcol hrow ⊢
    omega
  · cases ho

/-- What an invariant has to survive: the operations of the blocks of which every command and event but the end of BOOT
is made. -/
structure Kept (P : Part → Prop) : Prop where
  supply : ∀ b, Keeps P fun s => { s with supply := b }
  pins : ∀ x, Keeps P fun s => { s with pins := x }
  debounce : ∀ f, Keeps P (modifyDebounce f)
  rights : ∀ f, Keeps P (modifyRights f)
  unit : ∀ p f, LineRests f → Keeps P (modifyPort p f)
  power : ∀ f, StateRests f → Keeps P (modifyPower f)
  wave : ∀ f, Keeps P (modifyWave f)
  select : ∀ p, Keeps P (selectPort p)
  sample : Keeps P takeSample
  boot : ∀ reason s, s.power.state = .off → P s → P (enterBoot reason s)
  reset : ∀ cold, Keeps P (resetPart cold)
  forcedOff : Keeps P beginForcedOff
  off : Keeps P enterOff
  wakes : Keeps P wake
  settling : ∀ b s, s.power.state = .active → P s → P (enterSettling b s)
  powerOff : ∀ s, P s → P (commandPowerOff s).1
  hold : Keeps P enterHold
  press : ∀ d s, (d = 1 ∨ d = -1) → s.power.state = .active → P s → P (turnPress d s)
  ramp : Keeps P (modifyLight rampLight)
  frame : ∀ s, boundariesRun s = true → P s → P (boundary s)
  stall : ∀ s, stallsCount s = true → P s → P (stallTick s)
  operation : ∀ kinds ecc ok, Keeps P (operationEnds kinds ecc ok)
  slotWrite : ∀ p i valid places, PlacesInImage places → KeepsInHand P (slotWriteChecked p i valid places)
  post : ∀ p i key, KeepsInHand P (postSlot p i key)
  discard : ∀ p i, KeepsInHand P (discardSlot p i)
  retain : ∀ p i flag, KeepsInHand P (retainSlot p i flag)
  turnList : ∀ n places c, KeepsInHand P (setTurnList n places c)
  turnSettings : ∀ l m, KeepsInHand P (setTurnSettings l m)
  submit : ∀ p k x y w h m t n, KeepsInHand P (submitUpdate p k x y w h m t n)
  cancel : ∀ p, KeepsInHand P (cancelUpdates p)
  ghostLimit : ∀ l, KeepsInHand P (setGhostLimit l)
  ghosts : KeepsInHand P clearGhosts
  load : ∀ k, KeepsInHand P (withArbiter (loadWaveform k))
  light : ∀ b t r, KeepsInHand P (setLight b t r)
  resistance : ∀ r, KeepsInHand P (setResistance r)
  store : ∀ k, KeepsInHand P (withArbiter (storeSleepScreen k))
  downloadOpen : ∀ p k d, KeepsInHand P (withArbiter (openDownload p k d))
  chunk : ∀ p r o data, KeepsInHand P (withArbiter (writeChunk p r o data))
  sealing : ∀ p r c, KeepsInHand P (withArbiter (sealDownload p r c))
  abandon : ∀ p r, KeepsInHand P (withArbiter (abandonDownload p r))
  claim : ∀ r, KeepsInHand P (withArbiter (claimDownload r))
  release : ∀ r, KeepsInHand P (withArbiter (releaseDownload r))
  fetch : ∀ p r o n, KeepsInHand P (withArbiter (startFetch p r o n))
  format : KeepsInHand P formatSpool
  storeRights : KeepsInHand P (withArbiter storeRights)

/-- A battery sample leaves the power controller as it is (R98). -/
@[simp] theorem takeSample_power (s : Part) : (takeSample s).power = s.power := by
  simp only [takeSample, takeBatteryState, stepFresh_power]
  split
  · rfl
  · split <;> rfl

/-- The end of a request leaves the lines as they are (R185). -/
theorem inHand_endRequest {p : Port} {s : Part} (h : InHand s) : InHand (endRequest p s) := by
  obtain ⟨q, h⟩ := h
  refine ⟨q, ?_⟩
  cases p <;> cases q <;> exact h

namespace Kept

variable {P : Part → Prop} (hP : Kept P)

/-! ### Notices and requests -/

include hP

theorem raise (p : Port) (k : NoticeKind) (d : List Byte) : Keeps P (raise p k d) := hP.unit _ _ fun _ => .inl rfl

theorem raiseBoth (k : NoticeKind) (d : List Byte) : Keeps P (raiseBoth k d) := fun s h => hP.raise _ _ _ _ (hP.raise _ _ _ s h)

theorem endRequest (p : Port) : Keeps P (endRequest p) := fun s h =>
  hP.unit _ _ (by exact fun _ => .inl rfl) _ (hP.rights _ s h)

theorem endWith (p : Port) (c : ResultCode) : Keeps P (endWith p c) := fun s h => by
  unfold Machine.endWith
  split
  · exact h
  · exact hP.raise _ _ _ _ (hP.endRequest p s h)

/-! ### Transactions -/

theorem settle (p : Port) (r : Reply) : Keeps P (settle p r) := hP.unit _ _ fun _ => .inr rfl

theorem settleWith (p : Port) (x : Part × Option Reply) (h : P x.1) : P (settleWith p x) := by
  unfold Machine.settleWith
  split
  · exact hP.settle _ _ _ h
  · exact hP.unit _ _ (by exact fun _ => .inr rfl) _ h

/-- A transaction keeps what its answer keeps while it is in progress. -/
theorem transaction (p : Port) (f : Line → Part → Part) (hf : ∀ x s, InHand s → P s → P (f x s)) :
    Keeps P (transaction p f) := fun s h => by
  have hs := hP.select p s h
  unfold Machine.transaction
  cases hl : (port (selectPort p s) p).line with
  | deselected => simpa only [hl] using hs
  | ignored => simpa only [hl] using hP.unit _ _ (by exact fun _ => .inr rfl) _ hs
  | hold => simpa only [hl] using hP.settle _ _ _ hs
  | boot => simpa only [hl] using hf _ _ ⟨p, .inl hl⟩ hs
  | taken => simpa only [hl] using hf _ _ ⟨p, .inr hl⟩ hs

theorem refer (i : Instr) (p : Port) : Keeps P (refer i p) := fun s h => hP.raise _ _ _ _ (hP.rights _ s h)

omit hP in
theorem owned (code : Nat) (f : Part → Part × Option Reply) (hf : KeepsInHand P f) : KeepsInHand P (owned code f) :=
  fun s hs h => by
    unfold Machine.owned
    split
    · exact h
    · exact hf s hs h

theorem transact (i : Instr) (f : Part → Part × Option Reply) (hf : KeepsInHand P f) : Keeps P (transact i f) := by
  intro s h
  unfold Machine.transact
  refine hP.transaction _ _ (fun x s hs h => ?_) s h
  split
  · exact hP.settle _ _ _ h
  · split
    · exact hP.settle _ _ _ h
    · unfold checked
      split
      · exact hP.settleWith _ _ (owned _ f hf s hs h)
      · exact hP.settle _ _ _ (hP.refer i _ s h)
      · exact hP.settle _ _ _ h

theorem sampleRead (code : Nat) (p : Port) (f : Part → ReadSample) : Keeps P (sampleRead code p f) := fun s h => by
  have hs := hP.select p s h
  simp only [Machine.sampleRead]
  split
  · refine hP.unit _ _ (fun u => .inl ?_) _ hs
    unfold ensureSample
    split <;> rfl
  · exact hs

theorem readTransaction (i : Instr) (m : ReadMoment) (f : Part → Part × Option Reply) (hf : KeepsInHand P f) :
    Keeps P (readTransaction i m f) := by
  unfold Machine.readTransaction
  cases m with
  | sample => exact hP.sampleRead _ _ _
  | deselect => exact hP.transact i f hf

omit hP in
theorem reply (f : Part → List Byte) : KeepsInHand P (reply f) := fun _ _ h => h

omit hP in
theorem replyWith (f : Part → Reply) : KeepsInHand P (replyWith f) := fun _ _ h => h

theorem fetchHeld (p : Port) : KeepsInHand P (fetchHeld p) := fun s _ h => by
  unfold Machine.fetchHeld
  split
  · split
    · exact h
    · exact hP.unit _ _ (by exact fun _ => .inl rfl) s h
  · exact h

theorem setMask (p : Port) (e : Half) (m : Byte) : KeepsInHand P (setMask p e m) := fun s _ h => by
  simp only [Machine.setMask]
  split
  · exact h
  · split
    · exact h
    · exact hP.unit _ _ (by exact fun _ => .inl rfl) s h

theorem status (p : Port) (m : ReadMoment) : Keeps P (statusTransaction p m) := by
  unfold statusTransaction
  cases m with
  | sample => exact hP.sampleRead _ _ _
  | deselect => exact fun s h => hP.transaction _ _ (fun _ s _ h => hP.unit _ _ (by exact fun _ => .inr rfl) s h) s h

theorem noticeRead (p : Port) (m : ReadMoment) : Keeps P (noticeTransaction p m) := by
  unfold noticeTransaction
  cases m with
  | sample => exact hP.sampleRead _ _ _
  | deselect => exact fun s h => hP.transaction _ _ (fun _ s _ h => hP.unit _ _ (by exact fun _ => .inr rfl) s h) s h

theorem aborted (p : Port) (c : AbortCause) : Keeps P (abortedTransaction p c) := by
  intro s h
  unfold abortedTransaction
  refine hP.transaction _ _ (fun _ s _ h => ?_) s h
  split
  · exact hP.unit _ _ (by exact fun _ => .inr rfl) s h
  · exact hP.settle _ _ s h

/-! ### Boot triggers, samples and the reset kinds -/

theorem bootTrigger (reason : BootReason) : Keeps P (bootTrigger reason) := fun s h => by
  have hs := hP.sample s h
  simp only [Machine.bootTrigger]
  split
  · exact h
  · next hoff =>
    split
    · exact hP.boot _ _ (by rw [takeSample_power]; simpa using hoff) hs
    · split
      · exact hP.power _ (by exact fun _ => ⟨rfl, rfl, rfl⟩) _ hs
      · exact hs


theorem admitReset (reason : BootReason) (s : Part) (hoff : s.power.state = .off) (h : P s) :
    P (admitReset reason s) := by
  have hs := hP.sample s h
  simp only [Machine.admitReset]
  split
  · exact hP.boot _ _ (by rw [takeSample_power]; exact hoff) hs
  · exact hs

theorem consentReset : Keeps P consentReset := fun s h => hP.admitReset _ _ rfl (hP.reset _ s h)

theorem resetFall : Keeps P resetFall := fun s h => by
  have hs : P (setResetPin true s) := hP.pins _ s h
  unfold Machine.resetFall
  split
  · exact hP.reset _ _ hs
  · exact hs

theorem resetRise : Keeps P resetRise := fun s h => by
  have hs : P (setResetPin false s) := hP.pins _ s h
  unfold Machine.resetRise
  split
  · exact hP.admitReset _ _ rfl (hP.reset _ _ hs)
  · exact hs

theorem coldStart : Keeps P coldStart := fun s h => by
  have hs := hP.reset true _ (hP.supply true s h)
  simp only [Machine.coldStart]
  split
  · exact hP.bootTrigger _ _ hs
  · exact hs

theorem loseSupply : Keeps P loseSupply := fun s h => by
  unfold Machine.loseSupply
  split
  · exact hP.reset _ _ (hP.supply false s h)
  · exact h

theorem takeOffWhenDue : Keeps P takeOffWhenDue := fun s h => by
  have hs := hP.off s h
  simp only [Machine.takeOffWhenDue, takeOff]
  split
  · split
    · exact hP.bootTrigger _ _ hs
    · exact hs
  · exact h

theorem batteryEvent : Keeps P batteryEvent := fun s h => by
  have hs := hP.sample s h
  simp only [Machine.batteryEvent]
  split
  · split
    · exact hP.bootTrigger _ _ hs
    · exact hs
  · split
    · exact hP.forcedOff _ hs
    · exact hs

/-! ### Inputs, keys and the cover -/

omit hP in
theorem whileRunning {f : Part → Part} (hf : Keeps P f) : Keeps P (whileRunning f) := fun s h => by
  unfold Machine.whileRunning
  split
  · exact hf s h
  · exact h

omit hP in
theorem unlessForced {f : Part → Part} (hf : Keeps P f) : Keeps P (unlessForced f) := fun s h => by
  unfold Machine.unlessForced
  split
  · exact h
  · exact hf s h

theorem afterDebounce (v : Bool) (get : Debouncers → Debouncer) (set : Debouncer → Debouncers → Debouncers)
    {f : Part → Part} (hf : Keeps P f) : Keeps P (afterDebounce v get set f) := fun s h => by
  unfold Machine.afterDebounce
  split
  · exact hf _ (hP.debounce _ s h)
  · exact h

theorem takeInput (x : Input) : Keeps P (takeInput x) := fun s h =>
  whileRunning (hP.debounce _) _ (hP.pins _ s h)

theorem keyAction (k : TurnKey) : Keeps P (keyAction k) := fun s h => by
  unfold Machine.keyAction
  split
  · exact h
  · exact h
  · exact hP.wakes s h
  · exact hP.wakes s h
  · next ha =>
    cases k with
    | fwd => exact hP.press 1 s (.inl rfl) ha h
    | back => exact hP.press (-1) s (.inr rfl) ha h
    | home => exact hP.raise _ _ _ s h

theorem openPress (x : PressStart) : Keeps P (openPress x) := hP.power _ fun _ => ⟨rfl, rfl, rfl⟩

theorem powerPress : Keeps P powerPressAction := fun s h => by
  unfold powerPressAction
  split
  · exact hP.power _ (by exact fun _ => ⟨rfl, rfl, rfl⟩) s h
  · exact hP.openPress _ s h
  · exact hP.openPress _ s h
  · split
    · exact hP.openPress _ s h
    · exact hP.wakes _ (hP.openPress _ s h)
  · exact hP.wakes _ (hP.openPress _ s h)

theorem sleepRequest : Keeps P sleepRequest := fun s h => by
  unfold Machine.sleepRequest
  split
  · next ha => exact hP.settling _ s ha h
  · exact h

theorem powerRelease : Keeps P powerReleaseAction := fun s h => by
  have hs : P (modifyPower (fun p => { p with press := none, bootTiming := false }) s) :=
    hP.power _ (by exact fun _ => ⟨rfl, rfl, rfl⟩) s h
  simp only [powerReleaseAction]
  split
  · exact hs
  · split
    · exact hP.sleepRequest _ (hP.raise _ _ _ _ hs)
    · exact hs

theorem powerHeld2 : Keeps P powerHeld2 := fun s h => by
  unfold Machine.powerHeld2
  split
  · exact h
  · next r _ =>
    have hs : P (modifyPower (fun p => { p with press := some { r with held := 2000, long := true } }) s) :=
      hP.power _ (by exact fun _ => ⟨rfl, rfl, rfl⟩) s h
    split
    · exact h
    · dsimp only
      split
      · exact hP.raise _ _ _ _ hs
      · exact hs

theorem powerHeld8 : Keeps P powerHeld8 := fun s h => by
  unfold Machine.powerHeld8
  split
  · exact h
  · split
    · exact hP.forcedOff s h
    · exact h

theorem powerHeld1 : Keeps P powerHeld1 := fun s h => by
  unfold Machine.powerHeld1
  split
  · exact hP.bootTrigger _ _ (hP.power _ (by exact fun _ => ⟨rfl, rfl, rfl⟩) s h)
  · exact h

theorem coverAction (closed : Bool) : Keeps P (coverAction closed) := fun s h => by
  simp only [Machine.coverAction]
  split
  · exact h
  · have hs := hP.raise .A .cover [byteOf closed.toNat, byteOf (coverEffect closed s)] s h
    split
    · exact hP.sleepRequest _ hs
    · split
      · exact hP.wakes _ hs
      · exact hs

theorem presenceChanged (p : Port) (high : Bool) : Keeps P (presenceChanged p high) := fun s h => by
  unfold Machine.presenceChanged
  split
  · exact h
  · exact hP.endWith _ _ s h

theorem chargerRises : Keeps P chargerRises := fun s h => by
  unfold Machine.chargerRises
  split
  · exact h
  · exact whileRunning (unlessForced (hP.bootTrigger _)) _ (hP.pins _ s h)

theorem chargerFalls : Keeps P chargerFalls := fun s h =>
  hP.power _ (by exact fun _ => ⟨rfl, rfl, rfl⟩) _ (hP.pins _ s h)

/-! ### Ticks and expiries -/

theorem secondTick : Keeps P secondTick := fun s h => by
  unfold Machine.secondTick
  exact hP.rights _ _ (hP.wave _ _ (hP.power _ (by exact fun _ => ⟨rfl, rfl, rfl⟩) s h))

theorem takeExpiry (p : Port) : Keeps P (takeExpiry p) := fun s h => by
  unfold Machine.takeExpiry
  split
  · cases p with
    | A => exact hP.power _ (by exact fun _ => ⟨rfl, rfl, rfl⟩) s h
    | B => exact h
  · split
    · exact hP.raise _ _ _ s h
    · exact hP.raise _ _ _ s h
    · exact hP.raise _ _ _ s h
    · exact hP.power _ (by exact fun _ => ⟨rfl, rfl, rfl⟩) s h
    · cases p with
      | A => exact hP.bootTrigger _ s h
      | B => exact h

theorem expireAlarm (p : Port) : Keeps P (expireAlarm p) := fun s h => by
  unfold Machine.expireAlarm
  split
  · exact hP.takeExpiry _ _ (hP.power _ (by exact fun _ => ⟨rfl, rfl, rfl⟩) s h)
  · exact h

theorem expireRequest (p : Port) : Keeps P (expireRequest p) := fun s h => by
  unfold Machine.expireRequest
  split
  · exact h
  · split
    · exact hP.endWith _ _ s h
    · exact h

theorem takeStallTick : Keeps P takeStallTick := fun s h => by
  unfold Machine.takeStallTick
  split
  · next hc => exact hP.stall s hc h
  · exact h

theorem takeBoundary : Keeps P takeBoundary := fun s h => by
  unfold Machine.takeBoundary
  split
  · next hc => exact hP.frame s hc h
  · exact h

theorem takeTemperature : Keeps P takeTemperature := fun s h => by
  unfold Machine.takeTemperature
  split
  · exact hP.wave _ s h
  · exact h

/-! ### Commands with their owners -/

theorem setPolicy (c r z : Byte) : KeepsInHand P (setPolicy c r z) := fun s _ h => by
  unfold Machine.setPolicy
  split
  · dsimp only
    exact hP.power _ (by exact fun _ => ⟨rfl, rfl, rfl⟩) s h
  · exact h

theorem setAlarm (p : Port) (n : Word) : KeepsInHand P (setAlarm p n) := fun s _ h => by
  unfold Machine.setAlarm
  dsimp only
  exact hP.power _ (by exact fun _ => ⟨rfl, rfl, rfl⟩) s h

theorem setRights (p : Byte) (m : Word) (c d : Byte) : KeepsInHand P (setRights p m c d) := fun s _ h => by
  simp only [Machine.setRights]
  split
  · exact h
  · split
    · dsimp only
      exact hP.rights _ s h
    · exact h

theorem commandSleep : KeepsInHand P commandSleep := fun s _ h => hP.sleepRequest s h

theorem commandWake : KeepsInHand P commandWake := fun s _ h => hP.wakes s h

theorem commandPowerOff : KeepsInHand P commandPowerOff := fun s _ h => hP.powerOff s h

theorem chipReset : KeepsInHand P chipReset := fun s _ h => hP.consentReset s h

/-- What a granted command does in its owning block keeps the invariant, whichever command it is. -/
theorem ownerEffect (i : Instr) : KeepsInHand P (ownerEffect i) := by
  cases i with
  | turnListSet tx n places c => exact hP.turnList _ _ _
  | turnSettings tx l m => exact hP.turnSettings _ _
  | updateSubmit tx k x y w h m t n => exact hP.submit _ _ _ _ _ _ _ _ _
  | updateCancel tx => exact hP.cancel _
  | ghostSet tx l => exact hP.ghostLimit _
  | ghostClear tx => exact hP.ghosts
  | waveformLoad tx k => exact hP.load _
  | lightSet tx b t r => exact hP.light _ _ _
  | batterySettings tx r => exact hP.resistance _
  | sleep tx => exact hP.commandSleep
  | wake tx => exact hP.commandWake
  | powerOff tx => exact hP.commandPowerOff
  | powerPolicy tx c r z => exact hP.setPolicy _ _ _
  | alarmSet tx n => exact hP.setAlarm _ _
  | sleepScreenStore tx k => exact hP.store _
  | downloadOpen tx k d => exact hP.downloadOpen _ _ _
  | chunkWrite p r o data => exact hP.chunk _ _ _ _
  | downloadSeal tx r c => exact hP.sealing _ _ _
  | downloadAbandon tx r => exact hP.abandon _ _
  | downloadClaim tx r => exact hP.claim _
  | downloadRelease tx r => exact hP.release _
  | fetch tx r o n => exact hP.fetch _ _ _ _
  | spoolFormat tx => exact hP.format
  | rightsSet tx p m c d => exact hP.setRights _ _ _ _
  | rightsStore tx => exact hP.storeRights
  | chipReset tx => exact hP.chipReset
  | _ => exact fun _ _ h => h

theorem grantPeer (p : Port) : KeepsInHand P (grantPeer p) := fun s hs h => by
  have hlines : InHand (Machine.endRequest (peer p) s) := inHand_endRequest hs
  simp only [Machine.grantPeer]
  split
  · exact h
  · next r _ =>
    have he := owned r.code.toNat _ (hP.ownerEffect (buildCommand (peer p) r.code.toNat r.params [])) _ hlines
      (hP.endRequest (peer p) s h)
    split
    · next t x ht =>
      rw [ht] at he
      exact hP.raise _ _ _ _ he
    · next t ht =>
      rw [ht] at he
      exact he

theorem denyPeer (p : Port) : KeepsInHand P (denyPeer p) := fun s _ h => by
  unfold Machine.denyPeer
  split
  · exact h
  · exact hP.endWith _ _ s h

theorem withdrawPeer (p : Port) : KeepsInHand P (withdrawPeer p) := fun s _ h => by
  unfold Machine.withdrawPeer
  split
  · exact h
  · exact hP.endRequest _ s h

/-- Every command and every event but the end of BOOT keeps the invariant. -/
theorem partAfter (i : Instr) (hi : ∀ ecc, i ≠ .entryToActive ecc) : Keeps P (partAfter i) := by
  have howner := hP.ownerEffect i
  cases i with
  | status rx => exact hP.status _ _
  | noticeRead p m => exact hP.noticeRead _ _
  | noticeMask tx e m => exact hP.transact _ _ (hP.setMask _ _ _)
  | slotWrite p k o data => exact hP.transact _ _ (hP.slotWrite _ _ _ _ (placesInImage_run _ _))
  | slotWriteRect p k c y w h data => exact hP.transact _ _ (hP.slotWrite _ _ _ _ (placesInImage_rect _ _ _ _ _))
  | slotPost tx k key => exact hP.transact _ _ (hP.post _ _ _)
  | slotDiscard tx k => exact hP.transact _ _ (hP.discard _ _)
  | slotRetain tx k f => exact hP.transact _ _ (hP.retain _ _ _)
  | identify rx => exact hP.readTransaction _ _ _ (reply _)
  | slotTableRead rx => exact hP.readTransaction _ _ _ (reply _)
  | turnStateRead rx => exact hP.readTransaction _ _ _ (reply _)
  | engineRead rx => exact hP.readTransaction _ _ _ (reply _)
  | temperatureRead rx => exact hP.readTransaction _ _ _ (reply _)
  | lightRead rx => exact hP.readTransaction _ _ _ (reply _)
  | batteryRead rx => exact hP.readTransaction _ _ _ (reply _)
  | flashHealthRead rx => exact hP.readTransaction _ _ _ (reply _)
  | rightsRead rx => exact hP.readTransaction _ _ _ (reply _)
  | peerRead rx => exact hP.readTransaction _ _ _ (reply _)
  | slotRead rx k o l => exact hP.readTransaction _ _ _ (replyWith _)
  | shownRead rx o l => exact hP.readTransaction _ _ _ (replyWith _)
  | directoryRead rx => exact hP.readTransaction _ _ _ (replyWith _)
  | fetchData rx => exact hP.readTransaction _ _ _ (hP.fetchHeld _)
  | peerGrant tx => exact hP.transact _ _ (hP.grantPeer _)
  | peerDeny tx => exact hP.transact _ _ (hP.denyPeer _)
  | peerWithdraw tx => exact hP.transact _ _ (hP.withdrawPeer _)
  | unknownCommandCode p c => exact fun s h => hP.transaction _ _ (fun _ s _ h => hP.settle _ _ s h) s h
  | aborted p c => exact hP.aborted _ _
  | portSelect p => exact hP.select p
  | inputChange x => exact hP.takeInput x
  | keyPress k => exact whileRunning (hP.afterDebounce _ _ _ (unlessForced (hP.keyAction k)))
  | keyRelease k => exact whileRunning (hP.afterDebounce _ _ _ fun _ h => h)
  | powerPress => exact whileRunning (hP.afterDebounce _ _ _ (unlessForced hP.powerPress))
  | powerRelease => exact whileRunning (hP.afterDebounce _ _ _ (unlessForced hP.powerRelease))
  | powerHeld2s => exact whileRunning (unlessForced hP.powerHeld2)
  | powerHeld8s => exact whileRunning (unlessForced hP.powerHeld8)
  | powerHeld1s => exact whileRunning hP.powerHeld1
  | coverChange c => exact whileRunning (hP.afterDebounce _ _ _ (unlessForced (hP.coverAction c)))
  | presenceChange p v => exact whileRunning (hP.afterDebounce _ _ _ (hP.presenceChanged p v))
  | chargerRise => exact hP.chargerRises
  | chargerFall => exact hP.chargerFalls
  | entryToActive ecc => exact absurd rfl (hi ecc)
  | coldStart => exact hP.coldStart
  | resetLineFall => exact hP.resetFall
  | resetLineRise => exact hP.resetRise
  | secondTick => exact whileRunning hP.secondTick
  | alarmExpiry p => exact whileRunning (hP.expireAlarm p)
  | peerRequestExpiry p => exact whileRunning (hP.expireRequest p)
  | stallTick => exact whileRunning hP.takeStallTick
  | frameBoundary => exact whileRunning hP.takeBoundary
  | rampTick => exact whileRunning hP.ramp
  | temperatureSample => exact whileRunning hP.takeTemperature
  | batterySample => exact whileRunning hP.batteryEvent
  | holdEntry => exact whileRunning hP.hold
  | offEntry => exact whileRunning hP.takeOffWhenDue
  | readEnd ecc => exact whileRunning (hP.operation _ _ _)
  | programEnd ok => exact whileRunning (hP.operation _ _ _)
  | eraseEnd ok => exact whileRunning (hP.operation _ _ _)
  | moveEnd ecc ok => exact whileRunning (hP.operation _ _ _)
  | flashOperationTimeout ecc => exact whileRunning (hP.operation _ _ _)
  | supplyLoss => exact hP.loseSupply
  | _ => exact hP.transact _ _ howner

omit hP in
/-- The end of BOOT keeps the invariant where its loads and the entry to ACTIVE do. -/
theorem entryToActive (ecc : List (Nat × List Sector)) (s : Part) (h : P s)
    (hb : s.power.state = .boot → P (bootSequence ecc s)) : P (Machine.partAfter (.entryToActive ecc) s) := by
  change P (Machine.whileRunning (bootEnds ecc) s)
  unfold Machine.whileRunning
  split
  · unfold bootEnds
    split
    · next hc => exact hb hc.1
    · exact h
  · exact h

/-- An invariant that the blocks' operations and the end of BOOT keep is kept by every step. -/
theorem step (hb : ∀ ecc s, s.power.state = .boot → P s → P (bootSequence ecc s)) {s t : State} (h : P s.part)
    (hst : Machine.step s = .next t) : P t.part := by
  rcases step_cases hst with ht | ⟨i, rest, _, ht⟩
  · rw [ht]; exact h
  · rw [ht]
    by_cases hi : ∃ ecc, i = .entryToActive ecc
    · obtain ⟨ecc, rfl⟩ := hi
      exact entryToActive ecc _ h fun hs => hb ecc _ hs h
    · exact hP.partAfter i (fun ecc he => hi ⟨ecc, he⟩) _ h

end Kept

end Sys2Proof.Machine
end

section
/-! PROOFS. How far the work of the spool and of the flash engine reaches (chapters 8 and 9): it changes the ports, the
spool and the flash engine, but neither the array nor the identity area (`SpoolWork`); only the end of an operation
changes the array. -/

namespace Sys2Proof.Machine

/-- Both ports' lines are as they were. -/
def SameLines (s t : Part) : Prop := ∀ p, (port t p).line = (port s p).line

theorem SameLines.refl (s : Part) : SameLines s s := fun _ => rfl

theorem SameLines.trans {s t u : Part} (h : SameLines s t) (h' : SameLines t u) : SameLines s u :=
  fun p => (h' p).trans (h p)

theorem sameLines_modifyPort (p : Port) (f : PortUnit → PortUnit) (s : Part) (hf : ∀ u, (f u).line = u.line) :
    SameLines s (modifyPort p f s) := fun q => by
  cases p <;> cases q <;> simp only [modifyPort, port, Both.modify, Both.get, Both.set, hf]

theorem sameLines_raise (p : Port) (k : NoticeKind) (d : List Byte) (s : Part) : SameLines s (raise p k d s) :=
  sameLines_modifyPort p _ s fun _ => rfl

/-- `t` differs from `s` in the ports, the spool and the flash engine at most, with the array, the identity area and the
ports' lines as they were. -/
def SpoolWork (s t : Part) : Prop :=
  SpoolSide s t ∧ t.flash.nand = s.flash.nand ∧ t.flash.identity = s.flash.identity ∧ SameLines s t

theorem SpoolWork.refl (s : Part) : SpoolWork s s := ⟨.refl s, rfl, rfl, .refl s⟩

theorem SpoolWork.trans {s t u : Part} (h : SpoolWork s t) (h' : SpoolWork t u) : SpoolWork s u := by
  obtain ⟨hside, hnand, hid, hline⟩ := h
  obtain ⟨hside', hnand', hid', hline'⟩ := h'
  exact ⟨(spoolSide_congr hside').mpr hside, hnand'.trans hnand, hid'.trans hid, hline.trans hline'⟩

/-- A change that is itself such work does not matter to what was done before. -/
theorem spoolWork_congr {s t u : Part} (h : SpoolWork t u) : SpoolWork s u ↔ SpoolWork s t := by
  obtain ⟨hside, hnand, hid, hline⟩ := h
  have hlines : SameLines s u ↔ SameLines s t := forall_congr' fun p => by rw [hline p]
  rw [SpoolWork, SpoolWork, spoolSide_congr hside, hnand, hid, hlines]

@[simp] theorem spoolWork_ite (s a b : Part) (c : Prop) [Decidable c] :
    SpoolWork s (if c then a else b) ↔ if c then SpoolWork s a else SpoolWork s b := by
  split <;> rfl

/-! ### The lists of the flash engine (R161, R162) -/

@[simp] theorem pendBlocks_nand (h : Hold) (bs : List Nat) (f : Flash) : (pendBlocks h bs f).nand = f.nand := by rw [pendBlocks]
@[simp] theorem pendBlocks_identity (h : Hold) (bs : List Nat) (f : Flash) : (pendBlocks h bs f).identity = f.identity := by rw [pendBlocks]
@[simp] theorem unpend_nand (b : Nat) (f : Flash) : (unpend b f).nand = f.nand := by rw [unpend]
@[simp] theorem unpend_identity (b : Nat) (f : Flash) : (unpend b f).identity = f.identity := by rw [unpend]
@[simp] theorem joinFree_nand (b : Nat) (f : Flash) : (joinFree b f).nand = f.nand := by rw [joinFree, unpend]
@[simp] theorem joinFree_identity (b : Nat) (f : Flash) : (joinFree b f).identity = f.identity := by rw [joinFree, unpend]
@[simp] theorem endHolds_nand (h : Hold) (f : Flash) : (endHolds h f).nand = f.nand := by rw [endHolds]
@[simp] theorem endHolds_identity (h : Hold) (f : Flash) : (endHolds h f).identity = f.identity := by rw [endHolds]
@[simp] theorem wearOut_nand (f : Flash) : (wearOut f).nand = f.nand := by rw [wearOut]
@[simp] theorem wearOut_identity (f : Flash) : (wearOut f).identity = f.identity := by rw [wearOut]
@[simp] theorem formatFlash_nand (f : Flash) : (formatFlash f).nand = f.nand := by rw [formatFlash]
@[simp] theorem formatFlash_identity (f : Flash) : (formatFlash f).identity = f.identity := by rw [formatFlash]

/-! ### The single changes -/

@[simp] theorem spoolWork_modifyFlash (s t : Part) (f : Flash → Flash) (hn : ∀ x, (f x).nand = x.nand)
    (hi : ∀ x, (f x).identity = x.identity) : SpoolWork s (modifyFlash f t) ↔ SpoolWork s t :=
  spoolWork_congr ⟨rfl, hn _, hi _, fun _ => rfl⟩

@[simp] theorem spoolWork_modifyJournal (s t : Part) (f : Journal → Journal) :
    SpoolWork s (modifyJournal f t) ↔ SpoolWork s t := spoolWork_congr ⟨rfl, rfl, rfl, fun _ => rfl⟩

@[simp] theorem spoolWork_modifySpool (s t : Part) (f : Spool → Spool) :
    SpoolWork s (modifySpool f t) ↔ SpoolWork s t := spoolWork_congr ⟨rfl, rfl, rfl, fun _ => rfl⟩

@[simp] theorem spoolWork_modifyRing (s t : Part) (f : List Staged → List Staged) :
    SpoolWork s (modifyRing f t) ↔ SpoolWork s t := spoolWork_congr ⟨rfl, rfl, rfl, fun _ => rfl⟩

@[simp] theorem spoolWork_modifyPort (s t : Part) (p : Port) (f : PortUnit → PortUnit) (hf : ∀ u, (f u).line = u.line) :
    SpoolWork s (modifyPort p f t) ↔ SpoolWork s t := spoolWork_congr ⟨rfl, rfl, rfl, sameLines_modifyPort p f t hf⟩

@[simp] theorem spoolWork_setRecord (s t : Part) (r : Nat) (v : Record) :
    SpoolWork s (setRecord r v t) ↔ SpoolWork s t := spoolWork_congr ⟨rfl, rfl, rfl, fun _ => rfl⟩

@[simp] theorem spoolWork_modifyRecord (s t : Part) (r : Nat) (f : Record → Record) :
    SpoolWork s (modifyRecord r f t) ↔ SpoolWork s t := spoolWork_congr ⟨rfl, rfl, rfl, fun _ => rfl⟩

@[simp] theorem spoolWork_raise (s t : Part) (p : Port) (k : NoticeKind) (d : List Byte) :
    SpoolWork s (raise p k d t) ↔ SpoolWork s t := spoolWork_congr ⟨rfl, rfl, rfl, sameLines_raise p k d t⟩

@[simp] theorem spoolWork_raiseBoth (s t : Part) (k : NoticeKind) (d : List Byte) :
    SpoolWork s (raiseBoth k d t) ↔ SpoolWork s t := by simp [raiseBoth]

@[simp] theorem spoolWork_raiseFlash (s t : Part) (d : List Byte) :
    SpoolWork s (raiseFlash d t) ↔ SpoolWork s t := by simp [raiseFlash]

@[simp] theorem spoolWork_queueEntry (s t : Part) (e : JEntry) :
    SpoolWork s (queueEntry e t) ↔ SpoolWork s t := spoolWork_congr ⟨rfl, rfl, rfl, fun _ => rfl⟩

@[simp] theorem spoolWork_ringSpace (s b t : Part) : SpoolWork s (ringSpace b t) ↔ SpoolWork s t := by
  unfold ringSpace; split <;> simp

/-! ### Beginning an operation, and the arbiter (R160) -/

@[simp] theorem spoolWork_beginOperation (s t : Part) (o : Operation) (j : Job) :
    SpoolWork s (beginOperation o j t) ↔ SpoolWork s t := spoolWork_congr ⟨rfl, rfl, rfl, fun _ => rfl⟩

@[simp] theorem spoolWork_beginReading (s t : Part) (r : Nat) (o : Operation) (j : Job) :
    SpoolWork s (beginReading r o j t) ↔ SpoolWork s t := spoolWork_congr ⟨rfl, rfl, rfl, fun _ => rfl⟩

@[simp] theorem spoolWork_setRecovery (s t : Part) (x : Option Recovery) :
    SpoolWork s (setRecovery x t) ↔ SpoolWork s t := spoolWork_congr ⟨rfl, rfl, rfl, fun _ => rfl⟩

@[simp] theorem spoolWork_setStaged (s t : Part) (r p : Nat) (x : StagedState) :
    SpoolWork s (setStaged r p x t) ↔ SpoolWork s t := spoolWork_congr ⟨rfl, rfl, rfl, fun _ => rfl⟩

@[simp] theorem spoolWork_leaveRing (s t : Part) (r p : Nat) :
    SpoolWork s (leaveRing r p t) ↔ SpoolWork s t := spoolWork_congr ⟨rfl, rfl, rfl, fun _ => rfl⟩

@[simp] theorem spoolWork_dropStaged (s t : Part) (r : Nat) :
    SpoolWork s (dropStaged r t) ↔ SpoolWork s t := spoolWork_congr ⟨rfl, rfl, rfl, fun _ => rfl⟩

@[simp] theorem spoolWork_takeFree (s t : Part) (b : Nat) :
    SpoolWork s (takeFree b t) ↔ SpoolWork s t := spoolWork_congr ⟨rfl, rfl, rfl, fun _ => rfl⟩

@[simp] theorem spoolWork_drawReservation (s t : Part) (r : Nat) :
    SpoolWork s (drawReservation r t) ↔ SpoolWork s t := spoolWork_congr ⟨rfl, rfl, rfl, fun _ => rfl⟩

@[simp] theorem spoolWork_takeBlock (s t : Part) (r b : Nat) :
    SpoolWork s (takeBlock r b t) ↔ SpoolWork s t := spoolWork_congr ⟨rfl, rfl, rfl, fun _ => rfl⟩

@[simp] theorem spoolWork_faultRecord (s t : Part) (r : Nat) :
    SpoolWork s (faultRecord r t) ↔ SpoolWork s t := by simp [faultRecord]

@[simp] theorem spoolWork_failRecovery (s t : Part) (x : Recovery) :
    SpoolWork s (failRecovery x t) ↔ SpoolWork s t := by simp [failRecovery]

@[simp] theorem spoolWork_beginStaging (s t : Part) (e : Staged) :
    SpoolWork s (beginStaging e t) ↔ SpoolWork s t := spoolWork_congr ⟨rfl, rfl, rfl, fun _ => rfl⟩

theorem markBegun_line (u : PortUnit) : (markBegun u).line = u.line := by
  unfold markBegun
  split <;> rfl

@[simp] theorem spoolWork_beginFetch (s t : Part) (p : Port) (r o : Nat) :
    SpoolWork s (beginFetch p r o t) ↔ SpoolWork s t := by
  simp [beginFetch, markBegun_line]

@[simp] theorem spoolWork_beginScrub (s t : Part) (r k o b : Nat) :
    SpoolWork s (beginScrub r k o b t) ↔ SpoolWork s t := spoolWork_congr ⟨rfl, rfl, rfl, fun _ => rfl⟩

@[simp] theorem spoolWork_dropScrubHead (s t : Part) : SpoolWork s (dropScrubHead t) ↔ SpoolWork s t :=
  spoolWork_congr ⟨rfl, rfl, rfl, fun _ => rfl⟩

@[simp] theorem spoolWork_beginCompactionStep (s t : Part) (c : Compaction) :
    SpoolWork s (beginCompactionStep c t) ↔ SpoolWork s t := spoolWork_congr ⟨rfl, rfl, rfl, fun _ => rfl⟩

@[simp] theorem spoolWork_serveJournal (s t : Part) : SpoolWork s (serveJournal t) ↔ SpoolWork s t := by
  simp only [serveJournal]
  split
  · simp
  · split
    · rfl
    · split
      · rfl
      · split <;> simp

@[simp] theorem spoolWork_serveSystem (s t : Part) : SpoolWork s (serveSystem t) ↔ SpoolWork s t := by
  unfold serveSystem; split <;> simp

@[simp] theorem spoolWork_serveFetch (s t : Part) : SpoolWork s (serveFetch t) ↔ SpoolWork s t := by
  simp only [serveFetch]
  split
  · simp
  · split <;> simp

@[simp] theorem spoolWork_serveStaging (s t : Part) : SpoolWork s (serveStaging t).1 ↔ SpoolWork s t := by
  unfold serveStaging
  split
  · rfl
  · split
    · simp
    · split <;> simp

@[simp] theorem spoolWork_giveUpScrub (s t : Part) : SpoolWork s (giveUpScrub t) ↔ SpoolWork s t := by
  unfold giveUpScrub; split <;> simp

@[simp] theorem spoolWork_beginRecoveryStep (s t : Part) (x : Recovery) (y : Nat) :
    SpoolWork s (beginRecoveryStep x y t) ↔ SpoolWork s t := by
  simp only [beginRecoveryStep]
  split
  · simp
  · split <;> simp

@[simp] theorem spoolWork_serveRecovery (s t : Part) (x : Recovery) :
    SpoolWork s (serveRecovery x t).1 ↔ SpoolWork s t := by
  simp only [serveRecovery]
  split
  · simp
  · split
    · rfl
    · split <;> simp

@[simp] theorem spoolWork_serveSpool (s t : Part) : SpoolWork s (serveSpool t).1 ↔ SpoolWork s t := by
  unfold serveSpool; split <;> simp

@[simp] theorem spoolWork_serveScrubHeads (s : Part) (n : Nat) :
    ∀ t, SpoolWork s (serveScrubHeads n t) ↔ SpoolWork s t := by
  induction n with
  | zero => exact fun t => Iff.rfl
  | succ n ih =>
    intro t
    unfold serveScrubHeads
    split
    · rfl
    · split
      · simp [ih]
      · split
        · simp [ih]
        · split <;> simp [ih]

@[simp] theorem spoolWork_serveScrub (s t : Part) : SpoolWork s (serveScrub t) ↔ SpoolWork s t := by
  unfold serveScrub
  split
  · split <;> simp
  · split <;> simp

@[simp] theorem spoolWork_serveEraser (s t : Part) : SpoolWork s (serveEraser t) ↔ SpoolWork s t := by
  unfold serveEraser
  split
  · split <;> simp
  · rfl

@[simp] theorem spoolWork_orServe (s t : Part) (f : Part → Part) (hf : ∀ t, SpoolWork s (f t) ↔ SpoolWork s t) :
    SpoolWork s (orServe f t) ↔ SpoolWork s t := by
  unfold orServe; split <;> simp [hf]

theorem spoolWork_serveClasses (s : Part) (n : Nat) : ∀ t, SpoolWork s (serveClasses n t) ↔ SpoolWork s t := by
  induction n with
  | zero => exact fun t => Iff.rfl
  | succ n ih =>
    intro t
    have hspool := spoolWork_serveSpool s (orServe serveFetch (orServe serveSystem (serveJournal t)))
    simp only [serveClasses]
    split
    · split
      · next u h =>
        rw [h] at hspool
        rw [ih, hspool]; simp
      · next u h =>
        rw [h] at hspool
        have hlast : SpoolWork s (orServe serveEraser (orServe serveScrub u)) ↔ SpoolWork s u := by simp
        rw [hlast, hspool]; simp
    · simp

@[simp] theorem spoolWork_arbitrate (s t : Part) : SpoolWork s (arbitrate t) ↔ SpoolWork s t := by
  unfold arbitrate
  split
  · exact spoolWork_serveClasses s 33 t
  · rfl

@[simp] theorem spoolWork_thenArbitrate (s t : Part) (f : Part → Part) :
    SpoolWork s (thenArbitrate f t) ↔ SpoolWork s (f t) := by simp [thenArbitrate]

/-! ### Retirement, and the ends of a download (R148, R152, R162, R164) -/

@[simp] theorem spoolWork_cutReservationsBy (s : Part) (n : Nat) :
    ∀ t, SpoolWork s (cutReservationsBy n t) ↔ SpoolWork s t := by
  induction n with
  | zero => exact fun t => Iff.rfl
  | succ n ih =>
    intro t
    unfold cutReservationsBy
    split
    · rfl
    · split <;> simp [ih]

@[simp] theorem spoolWork_retire (s t : Part) (b c : Nat) : SpoolWork s (retire b c t) ↔ SpoolWork s t := by
  unfold retire
  split <;> simp [cutReservations]

@[simp] theorem spoolWork_discardRead (s t : Part) (p : Port) : SpoolWork s (discardRead p t) ↔ SpoolWork s t :=
  spoolWork_congr ⟨rfl, rfl, rfl, fun _ => rfl⟩

@[simp] theorem spoolWork_endFetch (s t : Part) (f : Nat → Bool) (p : Port) :
    SpoolWork s (endFetch f p t) ↔ SpoolWork s t := by
  unfold endFetch
  split
  · split <;> simp
  · rfl

@[simp] theorem spoolWork_endFetches (s t : Part) (f : Nat → Bool) :
    SpoolWork s (endFetches f t) ↔ SpoolWork s t := by simp [endFetches]

@[simp] theorem spoolWork_endScrubOf (s t : Part) (r : Nat) : SpoolWork s (endScrubOf r t) ↔ SpoolWork s t := by
  unfold endScrubOf
  split
  · rfl
  · split <;> simp

@[simp] theorem spoolWork_freeDownload (s t : Part) (r : Nat) : SpoolWork s (freeDownload r t) ↔ SpoolWork s t := by
  simp [freeDownload]

@[simp] theorem spoolWork_endRecovery (s t : Part) (x : Recovery) : SpoolWork s (endRecovery x t) ↔ SpoolWork s t := by
  simp [endRecovery]

@[simp] theorem spoolWork_finishAbandon (s t : Part) : SpoolWork s (finishAbandon t) ↔ SpoolWork s t := by
  unfold finishAbandon
  split
  · split <;> simp
  · rfl

@[simp] theorem spoolWork_abandonRecord (s t : Part) (r : Nat) : SpoolWork s (abandonRecord r t) ↔ SpoolWork s t := by
  simp only [abandonRecord]
  split
  · simp
  · split <;> simp

@[simp] theorem spoolWork_compareSeal (s t : Part) (r : Nat) : SpoolWork s (compareSeal r t) ↔ SpoolWork s t := by
  simp [compareSeal]

@[simp] theorem spoolWork_emptySpool (s t : Part) : SpoolWork s (emptySpool t) ↔ SpoolWork s t := by simp [emptySpool]

/-! ### The jobs of ended operations, but for the system writes -/

@[simp] theorem spoolWork_writtenSeal (s t : Part) (r : Nat) (c : Bool) :
    SpoolWork s (writtenSeal r c t) ↔ SpoolWork s t := by
  simp only [writtenSeal]
  split <;> simp

@[simp] theorem spoolWork_writtenReplace (s t : Part) (n : Nat) :
    SpoolWork s (writtenReplace n t) ↔ SpoolWork s t := by
  unfold writtenReplace
  split
  · rfl
  · split
    · dsimp only
      split <;> simp
    · rfl

@[simp] theorem spoolWork_writtenEntry (s t : Part) (i : JItem) :
    SpoolWork s (writtenEntry t i) ↔ SpoolWork s t := by
  simp only [writtenEntry]
  rw [spoolWork_modifyFlash _ _ _ (endHolds_nand _) (endHolds_identity _)]
  split
  · split <;> simp
  · split <;> simp
  · simp
  · simp

theorem spoolWork_foldl_writtenEntry (s : Part) (is : List JItem) :
    ∀ t, SpoolWork s (is.foldl writtenEntry t) ↔ SpoolWork s t := by
  induction is with
  | nil => exact fun t => Iff.rfl
  | cons i is ih => exact fun t => by rw [List.foldl_cons, ih, spoolWork_writtenEntry]

@[simp] theorem spoolWork_journalWritten (s t : Part) (n : Nat) : SpoolWork s (journalWritten n t) ↔ SpoolWork s t := by
  simp [journalWritten, spoolWork_foldl_writtenEntry]

@[simp] theorem spoolWork_compactionStep (s t : Part) : SpoolWork s (compactionStep t) ↔ SpoolWork s t := by
  unfold compactionStep
  split
  · rfl
  · simp [compactionWritten]

@[simp] theorem spoolWork_journalFailure (s t : Part) (b o : Nat) :
    SpoolWork s (journalFailure b o t) ↔ SpoolWork s t := by simp [journalFailure]

@[simp] theorem spoolWork_noteRead (s t : Part) (r : Option (Nat × Word)) (b p : Nat) (o : Ecc) :
    SpoolWork s (noteRead r b p o t) ↔ SpoolWork s t := by
  have hscrub : SpoolWork s (joinScrub b t) ↔ SpoolWork s t := by
    unfold joinScrub; split <;> simp
  have hdamage (r : Nat) (q : Word) (u : Part) : SpoolWork s (countDamage r q u) ↔ SpoolWork s u := by
    unfold countDamage; split <;> simp
  unfold noteRead
  split
  · rfl
  · simp [hscrub, hdamage]

@[simp] theorem spoolWork_stagingDone (s t : Part) (r p : Nat) :
    SpoolWork s (stagingDone r p t) ↔ SpoolWork s t := by
  unfold stagingDone
  split
  · rfl
  · simp

@[simp] theorem spoolWork_stagingEnd (s t : Part) (r p b : Nat) (ok : Bool) :
    SpoolWork s (stagingEnd r p b ok t) ↔ SpoolWork s t := by
  simp [stagingEnd]

@[simp] theorem spoolWork_recoveryEnd (s t : Part) (m ok : Bool) :
    SpoolWork s (recoveryEnd m ok t) ↔ SpoolWork s t := by
  have hfailed (x : Recovery) (y : Nat) : SpoolWork s (replacementFailed x y t) ↔ SpoolWork s t := by
    simp [replacementFailed]
  have hdone (x : Recovery) (y : Nat) : SpoolWork s (recoveryDone x y t) ↔ SpoolWork s t := by
    simp [recoveryDone]
  unfold recoveryEnd
  split
  · rfl
  · split
    · rfl
    · split
      · exact hfailed _ _
      · split
        · rfl
        · split
          · simp
          · exact hdone _ _

@[simp] theorem spoolWork_scrubEnd (s t : Part) (ok : Bool) : SpoolWork s (scrubEnd ok t) ↔ SpoolWork s t := by
  unfold scrubEnd
  split
  · rfl
  · split
    · simp only [spoolWork_retire]
      split <;> simp
    · split <;> simp

@[simp] theorem spoolWork_allocationErased (s t : Part) (r b : Nat) :
    SpoolWork s (allocationErased r b t) ↔ SpoolWork s t := by
  unfold allocationErased
  split
  · simp
  · split <;> simp

@[simp] theorem spoolWork_replacementErased (s t : Part) (b : Nat) :
    SpoolWork s (replacementErased b t) ↔ SpoolWork s t := by
  unfold replacementErased
  split
  · simp
  · split <;> simp

@[simp] theorem spoolWork_scrubTargetErased (s t : Part) (b : Nat) :
    SpoolWork s (scrubTargetErased b t) ↔ SpoolWork s t := by
  unfold scrubTargetErased
  split
  · simp
  · split
    · simp
    · split <;> simp

@[simp] theorem spoolWork_fetchEnd (s t : Part) (p : Port) (o : Ecc) (data : List Byte) :
    SpoolWork s (fetchEnd p o data t) ↔ SpoolWork s t := by
  unfold fetchEnd; split <;> simp

/-! ### The spool's commands and the stall tick -/

theorem spoolWork_stallTick (s : Part) : SpoolWork s (stallTick s) := by
  have hfold (rs : List Nat) : ∀ t, SpoolWork s t → SpoolWork s (rs.foldl
      (fun s r =>
        let v := record s r
        let v' := stallRecord v
        let s := setRecord r v' s
        if v.state = .opened ∧ v'.state = .stalled then raiseBoth .download (downloadDetail r 0 v.title) s else s) t) := by
    induction rs with
    | nil => exact fun t h => h
    | cons r rs ih =>
      intro t h
      rw [List.foldl_cons]
      refine ih _ ?_
      dsimp only
      split <;> simpa using h
  exact hfold _ s (SpoolWork.refl s)

theorem spoolWork_openDownload (p : Port) (k d : Word) (s : Part) : SpoolWork s (openDownload p k d s).1 := by
  have hs := SpoolWork.refl s
  unfold openDownload
  split
  · exact hs
  · split
    · exact hs
    · split
      · exact hs
      · split
        · exact hs
        · split
          · exact hs
          · split <;> simp [hs]

theorem spoolWork_writeChunk (p : Port) (r : Byte) (o : Word) (data : List Byte) (s : Part) :
    SpoolWork s (writeChunk p r o data s).1 := by
  have hs := SpoolWork.refl s
  simp only [writeChunk]
  split_ifs <;> simp [hs]

theorem spoolWork_sealDownload (p : Port) (r : Byte) (c : Word) (s : Part) :
    SpoolWork s (sealDownload p r c s).1 := by
  have hs := SpoolWork.refl s
  simp only [sealDownload]
  split_ifs <;> simp [hs]

theorem spoolWork_abandonDownload (p : Port) (r : Byte) (s : Part) : SpoolWork s (abandonDownload p r s).1 := by
  have hs := SpoolWork.refl s
  simp only [abandonDownload]
  split_ifs <;> simp [hs]

theorem spoolWork_claimDownload (r : Byte) (s : Part) : SpoolWork s (claimDownload r s).1 := by
  have hs := SpoolWork.refl s
  simp only [claimDownload]
  split_ifs <;> simp [hs]

theorem spoolWork_releaseDownload (r : Byte) (s : Part) : SpoolWork s (releaseDownload r s).1 := by
  have hs := SpoolWork.refl s
  simp only [releaseDownload]
  split_ifs <;> simp [hs]

theorem spoolWork_startFetch (p : Port) (r : Byte) (o : Word) (n : Half) (s : Part) :
    SpoolWork s (startFetch p r o n s).1 := by
  have hs := SpoolWork.refl s
  simp only [startFetch]
  split_ifs <;> simp [hs]

theorem spoolWork_formatSpool (s : Part) : SpoolWork s (formatSpool s).1 := by
  simp [formatSpool, SpoolWork.refl]

/-- What the arbiter adds to a command stays on the spool's side. -/
theorem spoolWork_withArbiter (f : Part → Part × Option Reply) (s : Part) :
    SpoolWork (f s).1 (withArbiter f s).1 := by
  unfold withArbiter
  split
  · next t r h =>
    rw [h]
    split <;> simp [SpoolWork.refl]
  · next t h =>
    rw [h]
    exact SpoolWork.refl t

end Sys2Proof.Machine
end

section
/-! PROOFS. How far the operations of the other blocks reach: for each, an equation that names the blocks it may change.
And the first invariant: both memories stay in their canonical form, and the identity area never changes (R157). -/

namespace Sys2Proof.Machine

/-! ### The battery monitor and the light (chapters 5 and 6) -/

theorem takeBatteryState_frame (new old : BatteryState) (s : Part) :
    takeBatteryState new old s
      = { s with light := (takeBatteryState new old s).light, ports := (takeBatteryState new old s).ports } := by
  unfold takeBatteryState
  split
  · rfl
  · dsimp only
    split <;> rfl

theorem takeSample_frame (s : Part) :
    takeSample s
      = { s with light := (takeSample s).light, battery := (takeSample s).battery, ports := (takeSample s).ports,
                 fresh := s.fresh + 1 } := by
  simp only [takeSample]
  rw [takeBatteryState_frame]
  rfl

theorem sameLines_takeSample (s : Part) : SameLines s (takeSample s) := by
  have htake (new old : BatteryState) (t : Part) : SameLines t (takeBatteryState new old t) := by
    unfold takeBatteryState
    split
    · exact .refl t
    · dsimp only
      split
      · exact .trans (t := raise .A _ _ (modifyLight _ t)) (sameLines_raise .A _ _ _) (sameLines_raise .B _ _ _)
      · exact fun _ => rfl
  exact htake _ _ _

/-! ### The turn controller (chapter 2) -/

/-- `t` differs from `s` in the ports, the turn controller and the engine at most. -/
def TurnSide (s t : Part) : Prop := t = { s with ports := t.ports, turn := t.turn, engine := t.engine }

theorem TurnSide.refl (s : Part) : TurnSide s s := rfl

theorem TurnSide.trans {s t u : Part} (h : TurnSide s t) (h' : TurnSide t u) : TurnSide s u := by
  unfold TurnSide at *
  rw [h', h]

@[simp] theorem turnSide_modifyTurn (s t : Part) (f : Turn → Turn) : TurnSide s (modifyTurn f t) ↔ TurnSide s t := by
  cases s; cases t; simp [TurnSide, modifyTurn]

@[simp] theorem turnSide_modifyEngine (s t : Part) (f : Engine → Engine) :
    TurnSide s (modifyEngine f t) ↔ TurnSide s t := by
  cases s; cases t; simp [TurnSide, modifyEngine]

@[simp] theorem turnSide_raise (s t : Part) (p : Port) (k : NoticeKind) (d : List Byte) :
    TurnSide s (raise p k d t) ↔ TurnSide s t := by
  cases s; cases t; simp [TurnSide, raise, modifyPort]

@[simp] theorem turnSide_ite (s a b : Part) (c : Prop) [Decidable c] :
    TurnSide s (if c then a else b) ↔ if c then TurnSide s a else TurnSide s b := by
  split <;> rfl

@[simp] theorem turnSide_starve (s t : Part) (d : Int) (r : StarveReason) (b : Option Nat) :
    TurnSide s (starve d r b t) ↔ TurnSide s t := by simp [starve]

@[simp] theorem turnSide_renderAhead (s t : Part) (d : Int) : TurnSide s (renderAhead d t) ↔ TurnSide s t := by
  simp [renderAhead]

@[simp] theorem turnSide_submitTurn (s t : Part) : TurnSide s (submitTurn t) ↔ TurnSide s t := by
  unfold submitTurn; split <;> simp

@[simp] theorem turnSide_turn (s t : Part) (d : Int) : TurnSide s (turn d t) ↔ TurnSide s t := by
  unfold turn; split <;> simp [readyTurn]

@[simp] theorem turnSide_turnPress (s t : Part) (d : Int) : TurnSide s (turnPress d t) ↔ TurnSide s t := by
  simp [turnPress]

@[simp] theorem turnSide_serveSteps (s : Part) (d : Int) (n : Nat) :
    ∀ t, TurnSide s (serveSteps d n t) ↔ TurnSide s t := by
  induction n with
  | zero => exact fun t => Iff.rfl
  | succ n ih => intro t; unfold serveSteps; split <;> simp [ih]

@[simp] theorem turnSide_reportRemainder (s t : Part) (d : Int) : TurnSide s (reportRemainder d t) ↔ TurnSide s t := by
  unfold reportRemainder
  split
  · rfl
  · split <;> simp

@[simp] theorem turnSide_backlogService (s t : Part) : TurnSide s (backlogService t) ↔ TurnSide s t := by
  simp [backlogService]

@[simp] theorem turnSide_wakeRestore (s t : Part) : TurnSide s (wakeRestore t) ↔ TurnSide s t := by
  unfold wakeRestore
  split
  · rfl
  · split
    · simp
    · split
      · simp
      · split <;> simp

@[simp] theorem turnSide_raiseDone (s t : Part) (u : Update) (o f : Nat) (m n : Option Nat) :
    TurnSide s (raiseDone u o f m n t) ↔ TurnSide s t := by
  unfold raiseDone; split <;> simp

/-! ### The power controller (chapter 7) -/

/-- Leaving HOLD: only in HOLD, and then the power state, the refresh and the temperature are all that changes but for
the spool's side (R18, R71, R116). -/
theorem leaveHold_cases (s : Part) :
    leaveHold s = s ∨ s.power.state = .hold
      ∧ SpoolWork (sampleTemperature (restoreRefresh (setPowerState .settling s))) (leaveHold s) := by
  unfold leaveHold
  split
  · next h => exact .inr ⟨h, by simp [SpoolWork.refl]⟩
  · exact .inl rfl

/-- A select: ignored or already made, it touches its port's unit at most; else it may also leave HOLD (R116). -/
theorem selectPort_cases (p : Port) (s : Part) :
    selectPort p s = s ∨ selectPort p s = modifyPort p (fun u => { u with line := .ignored }) s
      ∨ selectPort p s = leaveHold (modifyPort p (fun u => { sampleStatus s p u with line := lineAtSelect s }) s) := by
  unfold selectPort
  split
  · exact .inl rfl
  · dsimp only
    split
    · exact .inr (.inl rfl)
    · exact .inr (.inr rfl)

/-- A wake: discarded, or the entry to ACTIVE with its wake restore (R117). -/
theorem wake_cases (s : Part) :
    wake s = s ∨ (s.power.offPending = false ∧ (s.power.state = .settling ∨ s.power.state = .hold)
      ∧ wake s = wakeRestore (recomputeLight (setPowerState .active (setAsleep false (leaveHold s))))) := by
  unfold wake
  split
  · exact .inl rfl
  · next ho =>
    split
    · next hs => exact .inr ⟨by simpa using ho, hs, rfl⟩
    · exact .inl rfl

theorem dropRequest_frame (p : Port) (s : Part) :
    dropRequest p s = { s with rights := (dropRequest p s).rights, ports := (dropRequest p s).ports } := by
  unfold dropRequest
  split <;> rfl

/-- The discarding of both requests touches the rights unit and the ports. -/
theorem dropRequests_frame (s : Part) :
    dropRequest .B (dropRequest .A s)
      = { s with rights := (dropRequest .B (dropRequest .A s)).rights, ports := (dropRequest .B (dropRequest .A s)).ports } := by
  rw [dropRequest_frame .B]
  generalize (dropRequest .B (dropRequest .A s)).rights = r
  generalize (dropRequest .B (dropRequest .A s)).ports = ps
  rw [dropRequest_frame .A]

theorem sameLines_dropRequest (p : Port) (s : Part) : SameLines s (dropRequest p s) := by
  unfold dropRequest
  split
  · exact sameLines_modifyPort (peer p) _ (setRequest p none s) fun _ => rfl
  · exact .refl s

/-- The beginning of a forced OFF entry, on the blocks that it may change. -/
theorem beginForcedOff_frame (s : Part) :
    beginForcedOff s
      = { s with store := (abortEngine s).store, engine := (abortEngine s).engine, light := darkLight s.light,
                 ports := (beginForcedOff s).ports, rights := (beginForcedOff s).rights,
                 flash := (dropFlashQueue s).flash, spool := (dropFlashQueue s).spool,
                 power := { s.power with forcedOff := true, press := none, bootTiming := false } } := by
  simp only [beginForcedOff]
  rw [dropRequests_frame]
  rfl

/-! ### The display (chapters 3 and 4) -/

/-- `t` differs from `s` in the ports, the page store, the engine and the waveform unit at most. -/
def DisplaySide (s t : Part) : Prop := t = { s with ports := t.ports, store := t.store, engine := t.engine, wave := t.wave }

theorem DisplaySide.refl (s : Part) : DisplaySide s s := rfl

@[simp] theorem displaySide_modifyEngine (s t : Part) (f : Engine → Engine) :
    DisplaySide s (modifyEngine f t) ↔ DisplaySide s t := by
  cases s; cases t; simp [DisplaySide, modifyEngine]

@[simp] theorem displaySide_modifySlot (s t : Part) (i : Nat) (f : Slot → Slot) :
    DisplaySide s (modifySlot i f t) ↔ DisplaySide s t := by
  cases s; cases t; simp [DisplaySide, modifySlot, setSlot]

@[simp] theorem displaySide_setSlot (s t : Part) (i : Nat) (v : Slot) : DisplaySide s (setSlot i v t) ↔ DisplaySide s t := by
  cases s; cases t; simp [DisplaySide, setSlot]

@[simp] theorem displaySide_setDram (s t : Part) (m : List Host.Cell) : DisplaySide s (setDram m t) ↔ DisplaySide s t := by
  cases s; cases t; simp [DisplaySide, setDram]

@[simp] theorem displaySide_modifyWave (s t : Part) (f : Wave → Wave) : DisplaySide s (modifyWave f t) ↔ DisplaySide s t := by
  cases s; cases t; simp [DisplaySide, modifyWave]

@[simp] theorem displaySide_raise (s t : Part) (p : Port) (k : NoticeKind) (d : List Byte) :
    DisplaySide s (raise p k d t) ↔ DisplaySide s t := by
  cases s; cases t; simp [DisplaySide, raise, modifyPort]

@[simp] theorem displaySide_ite (s a b : Part) (c : Prop) [Decidable c] :
    DisplaySide s (if c then a else b) ↔ if c then DisplaySide s a else DisplaySide s b := by
  split <;> rfl

@[simp] theorem displaySide_raiseDone (s t : Part) (u : Update) (o f : Nat) (m n : Option Nat) :
    DisplaySide s (raiseDone u o f m n t) ↔ DisplaySide s t := by
  unfold raiseDone; split <;> simp

@[simp] theorem displaySide_completeLane (s t : Part) (i : Nat) (l : Lane) :
    DisplaySide s (completeLane i l t) ↔ DisplaySide s t := by
  simp [completeLane, showLane]

@[simp] theorem displaySide_completions (s t : Part) : DisplaySide s (completions t) ↔ DisplaySide s t := by
  unfold completions
  generalize runningLanes t.engine = ls
  induction ls generalizing t with
  | nil => rfl
  | cons l ls ih => rw [List.foldl_cons, ih]; simp

@[simp] theorem displaySide_activation (s t : Part) : DisplaySide s (activation t) ↔ DisplaySide s t := by
  simp [activation, activateTable, placeTable]

@[simp] theorem displaySide_commit (s t : Part) (b : Bool) (u : Update) (ms : List (Nat × Lane × Rect)) (c : Bool) :
    DisplaySide s (commit b u ms c t) ↔ DisplaySide s t := by
  simp only [commit, displaySide_ite]
  split
  · simp
  · split <;> simp

/-- What the consideration of an item can do (R50, R53): it is discarded, it is blocked, or it is committed, and then no
lane it meets is full, the pool has room for its follow-ups, and a lane is free unless it is fully covered. -/
theorem consider_cases (released : Bool) (u : Update) (s : Part) :
    ((slot s u.source).state ≠ .ready ∧ consider released u s = (discard released u s, none))
      ∨ (∃ cause, consider released u s = (s, some cause))
      ∨ ((slot s u.source).state = .ready
        ∧ (∀ m ∈ meetings u.rect s.engine, m.2.1.followUps.length < 4)
        ∧ s.engine.pool - (if released then 1 else 0) + (meetings u.rect s.engine).length ≤ 32
        ∧ ∃ covered, (covered = true ∨ (idleLane s.engine).isSome = true)
          ∧ consider released u s = (commit released u (meetings u.rect s.engine) covered s, none)) := by
  by_cases hready : (slot s u.source).state = .ready
  · by_cases hfull : (meetings u.rect s.engine).any (fun m => decide (4 ≤ m.2.1.followUps.length)) = true
    · exact .inr (.inl ⟨.blockedFollowUps, by simp only [consider, hready, hfull, ne_eq, not_true, if_false, if_true]⟩)
    · by_cases hpool : 32 < s.engine.pool - (if released then 1 else 0) + (meetings u.rect s.engine).length
      · refine .inr (.inl ⟨.blockedPool, ?_⟩)
        simp only [consider, hready, hfull, hpool, ne_eq, not_true, Bool.false_eq_true, if_false, if_true]
      · obtain ⟨covered, hcov⟩ : ∃ c, c = (u.rect.minusAll ((meetings u.rect s.engine).map fun m => m.2.2)).isEmpty :=
          ⟨_, rfl⟩
        by_cases hlane : (!covered && (idleLane s.engine).isNone) = true
        · refine .inr (.inl ⟨.blockedNoLane, ?_⟩)
          simp only [consider, hready, hfull, hpool, ← hcov, hlane, ne_eq, not_true, Bool.false_eq_true, if_false, if_true]
        · refine .inr (.inr ⟨hready, by simpa using hfull, by omega, covered, ?_, ?_⟩)
          · cases covered with
            | true => exact .inl rfl
            | false => exact .inr (by simpa [Option.isSome_iff_ne_none] using hlane)
          · simp only [consider, hready, hfull, hpool, ← hcov, hlane, ne_eq, not_true, Bool.false_eq_true, if_false]
  · exact .inl ⟨hready, by simp only [consider, hready, ne_eq, not_false_eq_true, if_true]⟩

@[simp] theorem displaySide_consider (s t : Part) (b : Bool) (u : Update) :
    DisplaySide s (consider b u t).1 ↔ DisplaySide s t := by
  rcases consider_cases b u t with ⟨_, h⟩ | ⟨_, h⟩ | ⟨_, _, _, _, _, h⟩
  · rw [h]; simp [discard, starve]
  · rw [h]
  · rw [h]; simp

@[simp] theorem displaySide_startItems (s : Part) (n : Nat) :
    ∀ t, DisplaySide s (startItems n t) ↔ DisplaySide s t := by
  induction n with
  | zero => exact fun t => Iff.rfl
  | succ n ih =>
    intro t
    unfold startItems
    split
    · simp
    · next b u _ =>
      have hc := displaySide_consider s t b u
      split
      · next v _ h =>
        rw [h] at hc
        simp [hc]
      · next v h =>
        rw [h] at hc
        rw [ih, hc]

/-- A frame boundary touches the ports, the page store, the engine and the waveform unit. -/
theorem displaySide_boundary (s : Part) : DisplaySide s (boundary s) := by
  simp [boundary, drive, startStep, DisplaySide.refl]

/-! ### System writes (R166) -/

/-- `t` differs from `s` as the spool's work does, in the rights unit, the waveform unit and the sleep-screen flag. -/
def WriteSide (s t : Part) : Prop :=
  t = { s with ports := t.ports, spool := t.spool, flash := t.flash, rights := t.rights, wave := t.wave,
               power := { s.power with sleepWrite := t.power.sleepWrite } }
    ∧ t.flash.nand = s.flash.nand ∧ t.flash.identity = s.flash.identity ∧ SameLines s t

theorem WriteSide.of_spoolWork {s t : Part} (h : SpoolWork s t) : WriteSide s t := by
  obtain ⟨hside, hnand, hid, hline⟩ := h
  refine ⟨?_, hnand, hid, hline⟩
  obtain ⟨_, _, _, hr, _, _, _, hw, _, _, hp, _⟩ := (spoolSide_iff s t).mp hside
  conv_lhs => rw [hside]
  rw [hr, hw, hp]

theorem WriteSide.trans {s t u : Part} (h : WriteSide s t) (h' : WriteSide t u) : WriteSide s u := by
  obtain ⟨hside, hnand, hid, hline⟩ := h
  obtain ⟨hside', hnand', hid', hline'⟩ := h'
  refine ⟨?_, hnand'.trans hnand, hid'.trans hid, hline.trans hline'⟩
  rw [hside', hside]

theorem writeSide_setOutstanding (k : SysKind) (b : Bool) (s : Part) : WriteSide s (setOutstanding k b s) := by
  cases k <;> exact ⟨rfl, rfl, rfl, fun _ => rfl⟩

theorem writeSide_queueSystem (k : SysKind) (image : List Byte) (s : Part) : WriteSide s (queueSystem k image s) :=
  .trans (.of_spoolWork (by simp [SpoolWork.refl])) (writeSide_setOutstanding k true _)

theorem writeSide_systemEnd (ok : Bool) (o b : Nat) (s : Part) : WriteSide s (systemEnd ok o b s) := by
  have hend (k : SysKind) (l : List Byte) : WriteSide s (endSystem k l s) :=
    .trans (.of_spoolWork (by simp [SpoolWork.refl])) (writeSide_setOutstanding k false _)
  unfold systemEnd
  split
  · exact .of_spoolWork (SpoolWork.refl s)
  · split
    · exact hend _ _
    · split
      · exact hend _ _
      · exact .of_spoolWork (by simp [SpoolWork.refl])

/-- The job of an ended operation is the spool's work, or a system write's. -/
theorem writeSide_jobEnd (x : Running) (o : Ecc) (data : List Byte) (ok : Bool) (s : Part) :
    WriteSide s (jobEnd x o data ok s) := by
  have hs := SpoolWork.refl s
  unfold jobEnd
  split
  · exact .of_spoolWork (by split <;> simp [hs])
  · exact .of_spoolWork (by split <;> simp [hs])
  · exact .of_spoolWork (by split <;> simp [hs])
  · exact writeSide_systemEnd _ _ _ s
  · exact writeSide_systemEnd _ _ _ s
  · exact .of_spoolWork (by simp [hs])
  · exact .of_spoolWork (by simp [hs])
  · exact .of_spoolWork (by split <;> simp [hs, eraseFailed])
  · exact .of_spoolWork (by split <;> simp [hs, eraseFailed])
  · exact .of_spoolWork (by simp [hs])
  · exact .of_spoolWork (by simp [hs])
  · exact .of_spoolWork (by split <;> simp [hs, eraseFailed])
  · exact .of_spoolWork (by simp [hs])
  · exact .of_spoolWork (by split <;> simp [hs, eraseFailed])
  · exact .of_spoolWork hs

/-- The part with the operation in progress ended in the array, before its job is seen to. -/
def withArrayAfter (x : Running) (ecc : List Sector) (ok : Bool) (s : Part) : Part :=
  stepFresh (modifyFlash
    (fun f => { f with nand := afterOperation x.operation ecc ok s.fresh s.flash.nand, running := none }) s)

/-- The end of an operation: the array, and then at most what its job does. -/
theorem writeSide_endOperation (x : Running) (ecc : List Sector) (ok : Bool) (s : Part) :
    WriteSide (withArrayAfter x ecc ok s) (endOperation x ecc ok s) := by
  have hfinish {t : Part} (h : WriteSide (withArrayAfter x ecc ok s) t) :
      WriteSide (withArrayAfter x ecc ok s) (finishAbandon t) :=
    h.trans (.of_spoolWork (by simp [SpoolWork.refl]))
  have hrefl : WriteSide (withArrayAfter x ecc ok s) (withArrayAfter x ecc ok s) := .of_spoolWork (SpoolWork.refl _)
  simp only [endOperation]
  change WriteSide _ (if (withArrayAfter x ecc ok s).power.forcedOff then withArrayAfter x ecc ok s else _)
  split
  · exact hrefl
  · refine hfinish ?_
    split
    · split
      · exact writeSide_jobEnd _ _ _ _ _
      · exact hrefl
    · next b p _ =>
      have hnote (o : Ecc) : WriteSide (withArrayAfter x ecc ok s) (noteRead x.reads b p o (withArrayAfter x ecc ok s)) :=
        .of_spoolWork (by simp [SpoolWork.refl])
      split
      · exact (hnote _).trans (writeSide_jobEnd _ _ _ _ _)
      · exact hnote _

/-- The end of the operation in progress, with the arbiter after it; of another kind of operation, nothing. -/
theorem operationEnds_cases (kinds : List Nat) (ecc : List Sector) (ok : Bool) (s : Part) :
    operationEnds kinds ecc ok s = s
      ∨ ∃ x, s.flash.running = some x ∧ WriteSide (withArrayAfter x ecc ok s) (operationEnds kinds ecc ok s) := by
  unfold operationEnds
  split
  · exact .inl rfl
  · next x hx =>
    split
    · exact .inr ⟨x, hx, (writeSide_endOperation x ecc ok s).trans (.of_spoolWork (by simp [SpoolWork.refl]))⟩
    · exact .inl rfl

/-! ### What a command can make of the part -/

/-- A slot write: refused, or taken on a page slot that no lane shows (R7). -/
theorem slotWriteChecked_cases (p : Port) (i : Nat) (valid : Bool) (places : List (Option Nat × Byte)) (s : Part) :
    (slotWriteChecked p i valid places s).1 = s
      ∨ i < Config.pageSlots ∧ (slot s i).showing = 0 ∧ (slotWriteChecked p i valid places s).1 = takeWrite p i places s := by
  simp only [slotWriteChecked]
  split_ifs with hi _ _ hs
  · exact .inl rfl
  · exact .inl rfl
  · exact .inl rfl
  · exact .inl rfl
  · exact .inl rfl
  · exact .inr ⟨by omega, by simpa using hs, rfl⟩
  · exact .inr ⟨by omega, by simpa using hs, rfl⟩

/-- A post: refused, or taken from the writer of a FILLING slot, with backlog service (R11). -/
theorem postSlot_cases (p : Port) (i : Byte) (key : Word) (s : Part) :
    (postSlot p i key s).1 = s
      ∨ i.toNat < Config.pageSlots ∧ (slot s i.toNat).state = .filling ∧ (slot s i.toNat).writer = some p
        ∧ (postSlot p i key s).1
          = backlogService (setSlot i.toNat { slot s i.toNat with state := .ready, key := some key } s) := by
  simp only [postSlot]
  split_ifs with hi _ hf
  · exact .inl rfl
  · exact .inl rfl
  · exact .inr ⟨by omega, hf.1, hf.2, rfl⟩
  · exact .inl rfl

/-- A discard: refused, or taken on a page slot that no lane shows (R12). -/
theorem discardSlot_cases (p : Port) (i : Byte) (s : Part) :
    (discardSlot p i s).1 = s
      ∨ i.toNat < Config.pageSlots ∧ (slot s i.toNat).showing = 0
        ∧ (discardSlot p i s).1 = setSlot i.toNat { emptySlot with retain := (slot s i.toNat).retain } s := by
  simp only [discardSlot]
  split_ifs with hi _ hs
  · exact .inl rfl
  · exact .inl rfl
  · exact .inl rfl
  · exact .inr ⟨by omega, by simpa using hs, rfl⟩

/-- A retain flag: refused, or set or cleared on a page slot (R13). -/
theorem retainSlot_cases (p : Port) (i flag : Byte) (s : Part) :
    (retainSlot p i flag s).1 = s
      ∨ ∃ b, i.toNat < Config.pageSlots ∧ (retainSlot p i flag s).1 = modifySlot i.toNat (fun v => { v with retain := b }) s := by
  unfold retainSlot
  split_ifs with hi _
  · exact .inl rfl
  · exact .inl rfl
  · split
    · exact .inl rfl
    · next b _ => exact .inr ⟨b, by omega, rfl⟩

theorem setTurnList_cases (n : Byte) (places : List Byte) (c : Byte) (s : Part) :
    (setTurnList n places c s).1 = s
      ∨ listValid n.toNat places c.toNat = true ∧ (setTurnList n places c s).1
        = modifyTurn (fun t => { t with
            list := (places.take n.toNat).map BitVec.toNat, cursor := some c.toNat, backlog := 0 }) s := by
  unfold setTurnList
  split
  · next h => exact .inr ⟨h, rfl⟩
  · exact .inl rfl

theorem setTurnSettings_cases (l m : Byte) (s : Part) :
    (setTurnSettings l m s).1 = s
      ∨ ∃ x, x ≠ Mode.full ∧ (setTurnSettings l m s).1
        = modifyTurn (fun t => { t with lookahead := min (max l.toNat 1) 8, mode := x }) s := by
  unfold setTurnSettings
  split
  · exact .inr ⟨.gray, by simp, rfl⟩
  · exact .inr ⟨.quick, by simp, rfl⟩
  · exact .inl rfl

/-- A submission of a page slot: refused, absorbed by an entry of the queue, or joined to a queue with an ordinary place
free (R39 to R43). -/
theorem submitUpdate_cases (p : Port) (k : Byte) (x y w h : Half) (m t n : Byte) (s : Part) :
    (submitUpdate p k x y w h m t n s).1 = s
      ∨ ∃ u : Update, u.origin = .port p ∧ u.source = k.toNat ∧ k.toNat < Config.pageSlots
        ∧ ((∃ queue tag, absorb u s.engine.queue = some (queue, tag)
            ∧ (submitUpdate p k x y w h m t n s).1 = modifyEngine (fun e => { e with queue := queue }) s)
          ∨ (ordinaryPlaces s.engine < 16
            ∧ (submitUpdate p k x y w h m t n s).1 = modifyEngine (enqueue u) s)) := by
  simp only [submitUpdate]
  split
  · next md nf _ _ =>
    by_cases hi : Config.pageSlots ≤ k.toNat
    · exact .inl (by rw [if_pos hi])
    rw [if_neg hi]
    by_cases hm : (!maskHolds s p k.toNat) = true
    · exact .inl (by rw [if_pos hm])
    rw [if_neg hm]
    by_cases ha : s.power.asleep = true
    · exact .inl (by rw [if_pos ha])
    rw [if_neg ha]
    by_cases hr : regionEmpty x.toNat y.toNat w.toNat h.toNat = true
    · exact .inl (by rw [if_pos hr])
    rw [if_neg hr]
    by_cases ht : (!tableHeld s) = true
    · exact .inl (by rw [if_pos ht])
    rw [if_neg ht]
    split
    · next queue tag habs => exact .inr ⟨_, rfl, rfl, by omega, .inl ⟨queue, tag, habs, rfl⟩⟩
    · by_cases hq : 16 ≤ ordinaryPlaces s.engine
      · exact .inl (by rw [if_pos hq])
      · rw [if_neg hq]
        exact .inr ⟨_, rfl, rfl, by omega, .inr ⟨by omega, rfl⟩⟩
  · exact .inl rfl

theorem loadWaveform_cases (k : Byte) (s : Part) :
    (loadWaveform k s).1 = s
      ∨ ∃ file, (loadWaveform k s).1
        = queueSystem .waveform [] (modifyWave (fun w => { w with replacementPending := true })
            (placeTable Config.incomingOffset file s)) := by
  simp only [loadWaveform]
  split_ifs
  · exact .inl rfl
  · exact .inl rfl
  · exact .inl rfl
  · exact .inr ⟨_, rfl⟩
  · exact .inl rfl

theorem storeSleepScreen_cases (k : Byte) (s : Part) :
    (storeSleepScreen k s).1 = s
      ∨ (slot s Config.sleepSlot).showing = 0 ∧ ∃ image, (storeSleepScreen k s).1
        = queueSystem .sleepScreen [] (setSlot Config.sleepSlot imageSlot
            (setDram (Memory.writeRun s.store.dram (dramAddress Config.sleepSlot 0) image) s)) := by
  simp only [storeSleepScreen]
  split_ifs with _ _ _ hs
  · exact .inl rfl
  · exact .inl rfl
  · exact .inl rfl
  · exact .inl rfl
  · exact .inr ⟨by simpa using hs, _, rfl⟩

theorem storeRights_cases (s : Part) :
    (storeRights s).1 = s ∨ (storeRights s).1 = queueSystem .rights (rightsImage s.rights.records) s := by
  unfold storeRights
  split
  · exact .inl rfl
  · exact .inr rfl

/-- The entry to SETTLING before its sleep screen is placed (R113, steps 1 to 4). -/
def settled (s : Part) : Part :=
  recomputeLight (modifyEngine (removeTurn none) (modifyTurn (setBacklog 0) (setPowerState .settling (setAsleep true s))))

theorem enterSettling_cases (b : Bool) (s : Part) :
    enterSettling b s = settled s ∨ enterSettling b s = modifyEngine (placePower Config.sleepSlot) (settled s) := by
  simp only [enterSettling, placeSleepScreen]
  split
  · exact .inr rfl
  · exact .inl rfl

/-- POWER OFF enters SETTLING from ACTIVE first (R121). -/
theorem commandPowerOff_cases (s : Part) :
    ∃ t, (t = s ∧ s.power.state ≠ .active ∨ t = enterSettling true s ∧ s.power.state = .active)
      ∧ (commandPowerOff s).1 = recomputeLight (modifyPower (fun p => { p with offPending := true }) t) := by
  simp only [commandPowerOff]
  split
  · next h => exact ⟨_, .inr ⟨rfl, h⟩, rfl⟩
  · next h => exact ⟨_, .inl ⟨rfl, h⟩, rfl⟩

/-! ### The DRAM that an operation leaves, by the operation of Memory.lean it goes through -/

theorem placeTable_dram (o : Nat) (bs : List Byte) (s : Part) :
    (placeTable o bs s).store.dram = Memory.writeRun s.store.dram (dramAddress Config.waveformSlot o) bs := by
  rw [placeTable, setDram_store]

theorem activateTable_dram (s : Part) :
    (activateTable s).store.dram
      = Memory.writeRun s.store.dram (dramAddress Config.waveformSlot 0) (incomingTable s) := by
  rw [activateTable, modifyWave_store, setSlot_store, placeTable_dram]

/-! ### The loads of BOOT (R126) -/

theorem loadTable_cases (ecc : List (Nat × List Sector)) (s : Part) :
    loadTable ecc s = s ∨ ∃ file, loadTable ecc s = setSlot Config.waveformSlot imageSlot (placeTable 0 file s) := by
  simp only [loadTable]
  split
  · exact .inl rfl
  · split
    · exact .inr ⟨_, rfl⟩
    · exact .inl rfl

theorem loadSleepScreen_cases (ecc : List (Nat × List Sector)) (s : Part) :
    loadSleepScreen ecc s = s ∨ ∃ image, loadSleepScreen ecc s = setSlot Config.sleepSlot imageSlot
      (setDram (Memory.writeRun s.store.dram (dramAddress Config.sleepSlot 0) image) s) := by
  unfold loadSleepScreen
  split
  · exact .inl rfl
  · exact .inr ⟨_, rfl⟩

theorem loadRights_frame (ecc : List (Nat × List Sector)) (s : Part) :
    loadRights ecc s = { s with rights := (loadRights ecc s).rights } := by
  simp only [loadRights]
  split <;> rfl

/-! ### The entry to ACTIVE (R126, R127) -/

theorem raiseHeldAlarm_frame (p : Port) (s : Part) :
    raiseHeldAlarm p s = { s with ports := (raiseHeldAlarm p s).ports } := by
  unfold raiseHeldAlarm
  split <;> rfl

theorem enterActive_frame (s : Part) :
    enterActive s
      = { s with power := { activePower s.power with heldAlarms := Both.same none },
                 wave := (sampleTemperature s).wave, light := retarget (lit (activePower s.power)) s.light,
                 ports := (enterActive s).ports } := by
  simp only [enterActive]
  rw [raiseHeldAlarm_frame .B, raiseHeldAlarm_frame .A]
  rfl

/-- Steps 2 to 5 of the BOOT sequence. -/
def bootImages (ecc : List (Nat × List Sector)) (s : Part) : Part :=
  loadSleepScreen ecc (loadTable ecc (loadRights ecc (bootSlots s)))

/-- `t` differs from `s` in the page store and the rights unit at most. -/
def LoadSide (s t : Part) : Prop := t = { s with store := t.store, rights := t.rights }

theorem LoadSide.trans {s t u : Part} (h : LoadSide s t) (h' : LoadSide t u) : LoadSide s u := by
  rw [LoadSide, h', h]

theorem loadSide_bootImages (ecc : List (Nat × List Sector)) (s : Part) : LoadSide s (bootImages ecc s) := by
  have hrights : LoadSide s (loadRights ecc (bootSlots s)) := by
    rw [loadRights_frame]
    exact rfl
  have htable (t : Part) : LoadSide t (loadTable ecc t) := by
    rcases loadTable_cases ecc t with ht | ⟨_, ht⟩ <;> rw [ht] <;> exact rfl
  have hscreen (t : Part) : LoadSide t (loadSleepScreen ecc t) := by
    rcases loadSleepScreen_cases ecc t with ht | ⟨_, ht⟩ <;> rw [ht] <;> exact rfl
  exact (hrights.trans (htable _)).trans (hscreen _)

theorem slot_setSlot_cases (s : Part) (i j : Nat) (v : Slot) :
    slot (setSlot j v s) i = slot s i ∨ (i = j ∧ slot (setSlot j v s) i = v) := by
  rcases eq_or_ne j i with rfl | hne
  · by_cases hj : j < 32
    · exact .inr ⟨rfl, slot_setSlot_same s j v hj⟩
    · rw [setSlot, tableSet_of_ge _ _ _ (by omega)]
      exact .inl rfl
  · exact .inl (slot_setSlot_other s j i v hne)

/-- The loads touch the system slots only, and mark nothing retained. -/
theorem bootImages_slots (ecc : List (Nat × List Sector)) (s : Part) :
    (bootImages ecc s).store.retained = s.store.retained
      ∧ ∀ i, slot (bootImages ecc s) i = slot s i ∨ (Config.pageSlots ≤ i ∧ i < 32 ∧ slot (bootImages ecc s) i = imageSlot) := by
  have hset (t : Part) (j : Nat) (hj : Config.pageSlots ≤ j ∧ j < 32) (i : Nat) :
      slot (setSlot j imageSlot t) i = slot t i
        ∨ (Config.pageSlots ≤ i ∧ i < 32 ∧ slot (setSlot j imageSlot t) i = imageSlot) := by
    rcases slot_setSlot_cases t i j imageSlot with h | ⟨rfl, h⟩
    · exact .inl h
    · exact .inr ⟨hj.1, hj.2, h⟩
  have htrans {t u v : Part} (h : ∀ i, slot u i = slot t i ∨ (Config.pageSlots ≤ i ∧ i < 32 ∧ slot u i = imageSlot))
      (h' : ∀ i, slot v i = slot u i ∨ (Config.pageSlots ≤ i ∧ i < 32 ∧ slot v i = imageSlot)) :
      ∀ i, slot v i = slot t i ∨ (Config.pageSlots ≤ i ∧ i < 32 ∧ slot v i = imageSlot) := fun i => by
    rcases h' i with he | he
    · rw [he]
      exact h i
    · exact .inr he
  have hslots : ∀ i, slot (loadRights ecc (bootSlots s)) i = slot s i
      ∨ (Config.pageSlots ≤ i ∧ i < 32 ∧ slot (loadRights ecc (bootSlots s)) i = imageSlot) := by
    rw [loadRights_frame]
    exact htrans (hset (whitenShown s) Config.shownSlot (by decide)) (hset _ Config.stagingSlot (by decide))
  have hretained : (loadRights ecc (bootSlots s)).store.retained = s.store.retained := by
    rw [loadRights_frame]
    rfl
  have htable (t : Part) : (loadTable ecc t).store.retained = t.store.retained
      ∧ ∀ i, slot (loadTable ecc t) i = slot t i ∨ (Config.pageSlots ≤ i ∧ i < 32 ∧ slot (loadTable ecc t) i = imageSlot) := by
    rcases loadTable_cases ecc t with h | ⟨file, h⟩ <;> rw [h]
    · exact ⟨rfl, fun i => .inl rfl⟩
    · exact ⟨rfl, hset (placeTable 0 file t) Config.waveformSlot (by decide)⟩
  have hscreen (t : Part) : (loadSleepScreen ecc t).store.retained = t.store.retained
      ∧ ∀ i, slot (loadSleepScreen ecc t) i = slot t i
        ∨ (Config.pageSlots ≤ i ∧ i < 32 ∧ slot (loadSleepScreen ecc t) i = imageSlot) := by
    rcases loadSleepScreen_cases ecc t with h | ⟨image, h⟩ <;> rw [h]
    · exact ⟨rfl, fun i => .inl rfl⟩
    · exact ⟨rfl, hset (setDram _ t) Config.sleepSlot (by decide)⟩
  obtain ⟨htr, hts⟩ := htable (loadRights ecc (bootSlots s))
  obtain ⟨hsr, hss⟩ := hscreen (loadTable ecc (loadRights ecc (bootSlots s)))
  exact ⟨hsr.trans (htr.trans hretained), htrans (htrans hslots hts) hss⟩

/-! ### What an invariant has to survive, by the blocks that change -/

/-- What an invariant has to survive, with the cases of every command told apart and the work of the spool and of the
system writes taken as one. -/
structure KeptBlocks (P : Part → Prop) : Prop where
  supply : ∀ b, Keeps P fun s => { s with supply := b }
  pins : ∀ x, Keeps P fun s => { s with pins := x }
  debounce : ∀ f, Keeps P (modifyDebounce f)
  rights : ∀ f, Keeps P (modifyRights f)
  unit : ∀ p f, LineRests f → Keeps P (modifyPort p f)
  power : ∀ f, StateRests f → Keeps P (modifyPower f)
  wave : ∀ f, Keeps P (modifyWave f)
  writes : ∀ {s t}, WriteSide s t → P s → P t
  array : ∀ x ecc ok, Keeps P (withArrayAfter x ecc ok)
  select : ∀ p, Keeps P (selectPort p)
  sample : Keeps P takeSample
  boot : ∀ reason s, s.power.state = .off → P s → P (enterBoot reason s)
  reset : ∀ cold, Keeps P (resetPart cold)
  forcedOff : Keeps P beginForcedOff
  off : Keeps P enterOff
  wakes : Keeps P wake
  settling : ∀ b s, s.power.state = .active → P s → P (enterSettling b s)
  offPending : ∀ s, s.power.state ≠ .active → P s →
    P (recomputeLight (modifyPower (fun p => { p with offPending := true }) s))
  hold : ∀ s, quiet s = true → P s → P (enterHold s)
  press : ∀ d s, (d = 1 ∨ d = -1) → s.power.state = .active → P s → P (turnPress d s)
  ramp : Keeps P (modifyLight rampLight)
  frame : ∀ s, boundariesRun s = true → P s → P (boundary s)
  slotWrite : ∀ p i places s, PlacesInImage places → InHand s → i < Config.pageSlots → (slot s i).showing = 0 → P s →
    P (takeWrite p i places s)
  post : ∀ i key s, InHand s → i < Config.pageSlots → (slot s i).state = .filling → (slot s i).writer.isSome = true → P s →
    P (backlogService (setSlot i { slot s i with state := .ready, key := some key } s))
  discard : ∀ i s, InHand s → i < Config.pageSlots → (slot s i).showing = 0 → P s →
    P (setSlot i { emptySlot with retain := (slot s i).retain } s)
  retain : ∀ i b s, InHand s → i < Config.pageSlots → P s → P (modifySlot i (fun v => { v with retain := b }) s)
  turnList : ∀ n places c s, InHand s → listValid n places c = true → P s →
    P (modifyTurn (fun t => { t with list := (places.take n).map BitVec.toNat, cursor := some c, backlog := 0 }) s)
  turnSettings : ∀ l m s, InHand s → 1 ≤ l → l ≤ 8 → m ≠ .full → P s →
    P (modifyTurn (fun t => { t with lookahead := l, mode := m }) s)
  absorbed : ∀ (u : Update) queue tag s, InHand s → u.source < Config.pageSlots → absorb u s.engine.queue = some (queue, tag) →
    P s → P (modifyEngine (fun e => { e with queue := queue }) s)
  enqueued : ∀ (u : Update) p s, InHand s → u.origin = .port p → u.source < Config.pageSlots → ordinaryPlaces s.engine < 16 →
    P s → P (modifyEngine (enqueue u) s)
  cancel : ∀ p, KeepsInHand P (cancelUpdates p)
  ghostLimit : ∀ l s, InHand s → 1 ≤ l → l ≤ 15 → P s → P (modifyEngine (fun e => { e with ghostLimit := l }) s)
  ghosts : KeepsInHand P clearGhosts
  light : ∀ b t r, KeepsInHand P (setLight b t r)
  resistance : ∀ r, KeepsInHand P (setResistance r)
  incoming : ∀ file s, InHand s → P s → P (placeTable Config.incomingOffset file s)
  sleepImage : ∀ image s, InHand s → (slot s Config.sleepSlot).showing = 0 → P s →
    P (setSlot Config.sleepSlot imageSlot
      (setDram (Memory.writeRun s.store.dram (dramAddress Config.sleepSlot 0) image) s))

namespace KeptBlocks

variable {P : Part → Prop} (hP : KeptBlocks P)

include hP

theorem spoolWork {s t : Part} (hw : SpoolWork s t) (h : P s) : P t := hP.writes (.of_spoolWork hw) h

theorem withArbiter {f : Part → Part × Option Reply} {s : Part} (h : P (f s).1) : P (withArbiter f s).1 :=
  hP.spoolWork (spoolWork_withArbiter f s) h

theorem powerOff (s : Part) (h : P s) : P (commandPowerOff s).1 := by
  obtain ⟨t, ⟨rfl, hs⟩ | ⟨rfl, hs⟩, he⟩ := commandPowerOff_cases s <;> rw [he]
  · exact hP.offPending _ hs h
  · refine hP.offPending _ ?_ (hP.settling true s hs h)
    have hstate : (settled s).power.state = .settling := rfl
    rcases enterSettling_cases true s with hc | hc <;> rw [hc] <;> simp [hstate]

theorem submit (p : Port) (k : Byte) (x y w h : Half) (m t n : Byte) : KeepsInHand P (submitUpdate p k x y w h m t n) := by
  intro s hin hs
  rcases submitUpdate_cases p k x y w h m t n s with he | ⟨u, ho, hsrc, hk, ⟨_, _, habs, he⟩ | ⟨hroom, he⟩⟩ <;> rw [he]
  · exact hs
  · exact hP.absorbed u _ _ s hin (hsrc ▸ hk) habs hs
  · exact hP.enqueued u p s hin ho (hsrc ▸ hk) hroom hs

theorem load (k : Byte) : KeepsInHand P (Machine.withArbiter (loadWaveform k)) := by
  intro s hin h
  refine hP.withArbiter ?_
  rcases loadWaveform_cases k s with hs | ⟨file, hs⟩ <;> rw [hs]
  · exact h
  · refine hP.writes (writeSide_queueSystem .waveform [] _) (hP.wave _ _ ?_)
    exact hP.incoming file s hin h

theorem store (k : Byte) : KeepsInHand P (Machine.withArbiter (storeSleepScreen k)) := by
  intro s hin h
  refine hP.withArbiter ?_
  rcases storeSleepScreen_cases k s with hs | ⟨hshow, image, hs⟩ <;> rw [hs]
  · exact h
  · refine hP.writes (writeSide_queueSystem .sleepScreen [] _) ?_
    exact hP.sleepImage image s hin hshow h

/-- Such an invariant survives all that `Kept` asks for. -/
theorem kept : Kept P where
  supply := hP.supply
  pins := hP.pins
  debounce := hP.debounce
  rights := hP.rights
  unit := hP.unit
  power := hP.power
  wave := hP.wave
  select := hP.select
  sample := hP.sample
  boot := hP.boot
  reset := hP.reset
  forcedOff := hP.forcedOff
  off := hP.off
  wakes := hP.wakes
  settling := hP.settling
  powerOff := hP.powerOff
  hold s h := by
    by_cases hq : quiet s = true
    · exact hP.hold s hq h
    · rw [enterHold, if_neg hq]
      exact h
  press := hP.press
  ramp := hP.ramp
  frame := hP.frame
  stall s _ h := hP.spoolWork (spoolWork_stallTick s) h
  operation kinds ecc ok s h := by
    rcases operationEnds_cases kinds ecc ok s with hs | ⟨x, _, hs⟩
    · rw [hs]; exact h
    · exact hP.writes hs (hP.array x ecc ok s h)
  slotWrite p i valid places hpl s hin h := by
    rcases slotWriteChecked_cases p i valid places s with hs | ⟨hi, hshow, hs⟩ <;> rw [hs]
    · exact h
    · exact hP.slotWrite p i places s hpl hin hi hshow h
  post p i key s hin h := by
    rcases postSlot_cases p i key s with hs | ⟨hi, hf, hw, hs⟩ <;> rw [hs]
    · exact h
    · exact hP.post i.toNat key s hin hi hf (by rw [hw]; rfl) h
  discard p i s hin h := by
    rcases discardSlot_cases p i s with hs | ⟨hi, hshow, hs⟩ <;> rw [hs]
    · exact h
    · exact hP.discard i.toNat s hin hi hshow h
  retain p i flag s hin h := by
    rcases retainSlot_cases p i flag s with hs | ⟨b, hi, hs⟩ <;> rw [hs]
    · exact h
    · exact hP.retain i.toNat b s hin hi h
  turnList n places c s hin h := by
    rcases setTurnList_cases n places c s with hs | ⟨hv, hs⟩ <;> rw [hs]
    · exact h
    · exact hP.turnList n.toNat places c.toNat s hin hv h
  turnSettings l m s hin h := by
    rcases setTurnSettings_cases l m s with hs | ⟨x, hx, hs⟩ <;> rw [hs]
    · exact h
    · exact hP.turnSettings _ x s hin (by omega) (Nat.min_le_right _ _) hx h
  submit := hP.submit
  cancel := hP.cancel
  ghostLimit l s hin h := hP.ghostLimit _ s hin (by omega) (Nat.min_le_right _ _) h
  ghosts := hP.ghosts
  load := hP.load
  light := hP.light
  resistance := hP.resistance
  store := hP.store
  downloadOpen p k d s _ h := hP.withArbiter (hP.spoolWork (spoolWork_openDownload p k d s) h)
  chunk p r o data s _ h := hP.withArbiter (hP.spoolWork (spoolWork_writeChunk p r o data s) h)
  sealing p r c s _ h := hP.withArbiter (hP.spoolWork (spoolWork_sealDownload p r c s) h)
  abandon p r s _ h := hP.withArbiter (hP.spoolWork (spoolWork_abandonDownload p r s) h)
  claim r s _ h := hP.withArbiter (hP.spoolWork (spoolWork_claimDownload r s) h)
  release r s _ h := hP.withArbiter (hP.spoolWork (spoolWork_releaseDownload r s) h)
  fetch p r o n s _ h := hP.withArbiter (hP.spoolWork (spoolWork_startFetch p r o n s) h)
  format s _ h := hP.spoolWork (spoolWork_formatSpool s) h
  storeRights s _ h := by
    refine hP.withArbiter ?_
    rcases storeRights_cases s with hs | hs <;> rw [hs]
    · exact h
    · exact hP.writes (writeSide_queueSystem _ _ _) h

end KeptBlocks

end Sys2Proof.Machine
end

section
/-! PROOFS. The first invariant: both memories stay in their canonical form, and the identity area never changes (R157).
Only writes of the page store, completed lanes, activations, loads and retention change the DRAM, and only the end or the
abandoning of an operation the array; each goes through an operation of Memory.lean that keeps the form. -/

namespace Sys2Proof.Machine

/-- Both memories in their canonical form, and the identity area `I`. -/
def Canonical (I : Identity) (s : Part) : Prop :=
  Memory.wf s.store.dram = true ∧ Nand.wf s.flash.nand = true ∧ s.flash.identity = I

namespace Canonical

variable {I : Identity} {s t : Part}

theorem of_spoolWork (h : Canonical I s) (hw : SpoolWork s t) : Canonical I t := by
  obtain ⟨hside, hnand, hid, _⟩ := hw
  have hstore : t.store = s.store := by rw [hside]
  rw [Canonical, hstore, hnand, hid]
  exact h

theorem of_writeSide (h : Canonical I s) (hw : WriteSide s t) : Canonical I t := by
  obtain ⟨hside, hnand, hid, _⟩ := hw
  have hstore : t.store = s.store := by rw [hside]
  rw [Canonical, hstore, hnand, hid]
  exact h

theorem of_turnSide (h : Canonical I s) (ht : TurnSide s t) : Canonical I t := by
  rw [ht]
  exact h

/-- A new DRAM in its canonical form. -/
theorem with_dram (h : Canonical I s) (hf : t.flash = s.flash) (hd : Memory.wf t.store.dram = true) : Canonical I t :=
  ⟨hd, hf ▸ h.2⟩

end Canonical

/-! ### The DRAM -/

theorem wf_foldl_showPixel (s : Part) (l : Lane) (ps : List (Nat × Nat)) :
    ∀ m, Memory.wf m = true → Memory.wf (ps.foldl (showPixel s l) m) = true := by
  induction ps with
  | nil => exact fun m h => h
  | cons p ps ih => exact fun m h => ih _ (Memory.wf_write _ _ _ h)

theorem wf_completions (s : Part) (h : Memory.wf s.store.dram = true) : Memory.wf (completions s).store.dram = true := by
  unfold completions
  generalize runningLanes s.engine = ls
  induction ls generalizing s with
  | nil => exact h
  | cons x ls ih =>
    rw [List.foldl_cons]
    refine ih _ ?_
    split
    · have hdone (u : Update) (o f : Nat) (m n : Option Nat) (t : Part) : (raiseDone u o f m n t).store = t.store := by
        unfold raiseDone
        split
        · split <;> rfl
        · rfl
      simpa [completeLane, hdone, showLane] using wf_foldl_showPixel s x.2 _ _ h
    · exact h

theorem wf_activation (s : Part) (h : Memory.wf s.store.dram = true) : Memory.wf (activation s).store.dram = true := by
  unfold activation
  split
  · rw [activateTable_dram]
    exact Memory.wf_writeRun _ _ _ h
  · exact h

theorem discard_dram (b : Bool) (u : Update) (s : Part) : (discard b u s).store = s.store := by
  simp only [discard, raiseDone, starve]
  split
  · split
    · split <;> rfl
    · rfl
  · split
    · split <;> rfl
    · rfl

theorem commit_dram (b : Bool) (u : Update) (ms : List (Nat × Lane × Rect)) (c : Bool) (s : Part) :
    (commit b u ms c s).store.dram = s.store.dram := by
  simp only [commit]
  split
  · split <;> rfl
  · split
    · split <;> rfl
    · split <;> rfl

theorem startItems_dram (n : Nat) : ∀ s, (startItems n s).store.dram = s.store.dram := by
  induction n with
  | zero => exact fun s => rfl
  | succ n ih =>
    intro s
    unfold startItems
    split
    · rfl
    · next b u _ =>
      rcases consider_cases b u s with ⟨_, h⟩ | ⟨_, h⟩ | ⟨_, _, _, _, _, h⟩
      · rw [h]; dsimp only; rw [ih, discard_dram]
      · rw [h]; rfl
      · rw [h]; dsimp only; rw [ih, commit_dram]

theorem startStep_dram (s : Part) : (startStep s).store.dram = s.store.dram := by
  unfold startStep
  split
  · rfl
  · exact startItems_dram _ s

theorem wf_boundary (s : Part) (h : Memory.wf s.store.dram = true) : Memory.wf (boundary s).store.dram = true := by
  have hd : (boundary s).store.dram = (startStep (activation (completions s))).store.dram := rfl
  rw [hd, startStep_dram]
  exact wf_activation _ (wf_completions s h)

theorem wf_placeBytes (i : Nat) (places : List (Option Nat × Byte)) :
    ∀ x : List Host.Cell × List Nat, Memory.wf x.1 = true → Memory.wf (placeBytes i places x).1 = true := by
  unfold placeBytes
  induction places with
  | nil => exact fun x h => h
  | cons p places ih =>
    intro x h
    rw [List.foldl_cons]
    refine ih _ ?_
    split
    · simp only [placeByte]
      refine Memory.wf_write _ _ _ ?_
      split
      · exact h
      · exact Memory.wf_clear _ _ _ h
    · exact h

theorem wf_foldl_dropSegment (ks : List Nat) :
    ∀ m, Memory.wf m = true → Memory.wf (ks.foldl dropSegment m) = true := by
  induction ks with
  | nil => exact fun m h => h
  | cons k ks ih => exact fun m h => ih _ (Memory.wf_clear _ _ _ h)

/-! ### The array -/

theorem wf_afterOperation (o : Operation) (ecc : List Sector) (ok : Bool) (n : Nat) (m : List (Nat × Page))
    (h : Nand.wf m = true) : Nand.wf (afterOperation o ecc ok n m) = true := by
  cases o with
  | read b p => exact h
  | program b p data => exact Nand.wf_put _ _ _ h
  | erase b =>
    simp only [afterOperation]
    split
    · exact Nand.wf_eraseBlock _ _ h
    · exact Nand.wf_tearBlock _ _ h
  | move src dst p => exact Nand.wf_put _ _ _ h

theorem wf_abandonedNand (s : Part) (h : Nand.wf s.flash.nand = true) : Nand.wf (abandonedNand s) = true := by
  unfold abandonedNand
  split
  · exact h
  · next x _ =>
    cases x.operation with
    | read b p => exact h
    | program b p data => exact Nand.wf_put _ _ _ h
    | erase b => exact Nand.wf_tearBlock _ _ h
    | move src dst p =>
      simp only [abandonOperation]
      split
      · exact Nand.wf_put _ _ _ h
      · exact h

/-! ### Every step -/

theorem Canonical.leaveHold {I : Identity} (s : Part) (h : Canonical I s) : Canonical I (leaveHold s) := by
  rcases leaveHold_cases s with hs | ⟨_, hs⟩
  · rw [hs]; exact h
  · exact of_spoolWork (s := sampleTemperature (restoreRefresh (setPowerState .settling s))) h hs

theorem Canonical.enterSettling {I : Identity} (b : Bool) (s : Part) (h : Canonical I s) :
    Canonical I (enterSettling b s) := by
  rcases enterSettling_cases b s with hs | hs <;> rw [hs] <;> exact h

theorem canonical_kept (I : Identity) : KeptBlocks (Canonical I) where
  supply _ _ h := h
  pins _ _ h := h
  debounce _ _ h := h
  rights _ _ h := h
  unit _ _ _ _ h := h
  power _ _ _ h := h
  wave _ _ h := h
  writes hw h := h.of_writeSide hw
  array _ _ _ _ h := ⟨h.1, wf_afterOperation _ _ _ _ _ h.2.1, h.2.2⟩
  select p s h := by
    rcases selectPort_cases p s with hs | hs | hs <;> rw [hs]
    · exact h
    · exact h
    · exact Canonical.leaveHold _ h
  sample s h := by
    rw [takeSample_frame]
    exact h
  boot _ _ _ h := h
  reset _ s h := ⟨rfl, wf_abandonedNand s h.2.1, h.2.2⟩
  forcedOff s h := by
    rw [beginForcedOff_frame]
    exact h
  off _ h := ⟨rfl, h.2⟩
  wakes s h := by
    rcases wake_cases s with hs | ⟨_, _, hs⟩ <;> rw [hs]
    · exact h
    · exact (show Canonical I (recomputeLight (setPowerState .active (setAsleep false (leaveHold s)))) from
        Canonical.leaveHold s h).of_turnSide (by simp [TurnSide.refl])
  settling b s _ h := h.enterSettling b s
  offPending _ _ h := h
  hold s hq h := by
    rw [enterHold, if_pos hq]
    exact h.with_dram rfl (wf_foldl_dropSegment _ _ h.1)
  press d s _ _ h := h.of_turnSide (by simp [TurnSide.refl])
  ramp _ h := h
  frame s _ h := h.with_dram (by rw [displaySide_boundary s]) (wf_boundary s h.1)
  slotWrite _ _ _ _ _ _ _ _ h := h.with_dram rfl (wf_placeBytes _ _ _ h.1)
  post i key s _ _ _ _ h := Canonical.of_turnSide (s := setSlot i { slot s i with state := .ready, key := some key } s) h
    (by simp [TurnSide.refl])
  discard _ _ _ _ _ h := h
  retain _ _ _ _ _ h := h
  turnList _ _ _ _ _ _ h := h
  turnSettings _ _ _ _ _ _ _ h := h
  absorbed _ _ _ _ _ _ _ h := h
  enqueued _ _ _ _ _ _ _ h := h
  cancel _ _ _ h := h
  ghostLimit _ _ _ _ _ h := h
  ghosts _ _ h := h
  light _ _ _ _ _ h := h
  resistance _ _ _ h := h
  incoming file s _ h := by
    refine h.with_dram rfl ?_
    rw [placeTable_dram]
    exact Memory.wf_writeRun _ _ _ h.1
  sleepImage image s _ _ h := by
    refine h.with_dram rfl ?_
    rw [setSlot_store, setDram_store]
    exact Memory.wf_writeRun _ _ _ h.1

/-! ### The end of BOOT (R126) -/

theorem Canonical.loadTable {I : Identity} (ecc : List (Nat × List Sector)) (s : Part) (h : Canonical I s) :
    Canonical I (loadTable ecc s) := by
  rcases loadTable_cases ecc s with hs | ⟨file, hs⟩ <;> rw [hs]
  · exact h
  · refine h.with_dram rfl ?_
    rw [setSlot_store, placeTable_dram]
    exact Memory.wf_writeRun _ _ _ h.1

theorem Canonical.loadSleepScreen {I : Identity} (ecc : List (Nat × List Sector)) (s : Part) (h : Canonical I s) :
    Canonical I (loadSleepScreen ecc s) := by
  rcases loadSleepScreen_cases ecc s with hs | ⟨image, hs⟩ <;> rw [hs]
  · exact h
  · refine h.with_dram rfl ?_
    rw [setSlot_store, setDram_store]
    exact Memory.wf_writeRun _ _ _ h.1

/-- The replay changes the records, the ring and the flash engine, and not the array. -/
theorem spoolWork_replayJournal (ecc : List (Nat × List Sector)) (s : Part) : SpoolWork s (replayJournal ecc s) := by
  have hrebuild (b : Nat) (g : Word) (es : List JEntry) (stop : Option Nat) : SpoolWork s (rebuildSpool b g es stop s) := by
    simp only [rebuildSpool, cutReservations, spoolWork_cutReservationsBy]
    exact ⟨rfl, rfl, rfl, fun _ => rfl⟩
  unfold replayJournal
  dsimp only
  split
  · exact hrebuild _ _ _ _
  · exact hrebuild _ _ _ _
  · exact ⟨rfl, rfl, rfl, fun _ => rfl⟩

/-- The end of BOOT: the loads, and the entry to ACTIVE; the rest is work of the spool. -/
theorem bootSequence_frame (ecc : List (Nat × List Sector)) (s : Part) :
    ∃ t, t = { s with store := (bootImages ecc s).store, rights := t.rights, spool := t.spool, flash := t.flash,
                      power := { activePower s.power with heldAlarms := Both.same none }, wave := t.wave,
                      light := retarget (lit (activePower s.power)) s.light, ports := t.ports, fresh := t.fresh } ∧
      SpoolWork t (bootSequence ecc s) := by
  refine ⟨enterActive (stepFresh (replayJournal ecc (bootImages ecc s))), ?_, ?_⟩
  · rw [enterActive_frame]
    have hj := (spoolWork_replayJournal ecc (bootImages ecc s)).1
    have hl := loadSide_bootImages ecc s
    rw [hj, hl]
    rfl
  · simp [bootSequence, bootImages, SpoolWork.refl]

theorem Canonical.enterActive {I : Identity} (s : Part) (h : Canonical I s) : Canonical I (enterActive s) := by
  rw [enterActive_frame]
  exact h

theorem Canonical.bootSequence {I : Identity} (ecc : List (Nat × List Sector)) (s : Part) (h : Canonical I s) :
    Canonical I (bootSequence ecc s) := by
  have hslots : Canonical I (bootSlots s) := h.with_dram rfl (Memory.wf_clear _ _ _ h.1)
  have hrights : Canonical I (loadRights ecc (bootSlots s)) := by
    rw [loadRights_frame]
    exact hslots
  have hscreen := (hrights.loadTable ecc).loadSleepScreen ecc
  have hjournal := hscreen.of_spoolWork (spoolWork_replayJournal ecc _)
  exact (Canonical.enterActive (stepFresh _) hjournal).of_spoolWork (by simp [Machine.bootSequence, SpoolWork.refl])

theorem memoriesCanonical_iff (s : Part) : memoriesCanonical s = true ↔ Canonical s.flash.identity s := by
  simp [memoriesCanonical, Canonical]

/-- Settles O53: the canonical form with the identity area held fixed is kept by the blocks' operations and by the end of
BOOT. -/
theorem memoriesStayCanonical : Obligations.MemoriesStayCanonical := by
  intro s t hs hst
  have hc := (canonical_kept s.part.flash.identity).kept.step (fun ecc p _ h => h.bootSequence ecc p)
    ((memoriesCanonical_iff _).mp hs) hst
  have hid := hc.2.2
  exact ⟨(memoriesCanonical_iff _).mpr (hid ▸ hc), hid⟩

end Sys2Proof.Machine
end

section
/-! PROOFS. The second invariant: the light stays within its ceiling (chapter 5). The arithmetic of the targets and of the
ramp is proved of the light alone (`LightOk`); of the part only the battery state, the power state and the off-pending flag
matter. -/

namespace Sys2Proof.Machine

/-! ### The targets under the ceiling (R85 to R90) -/

theorem warmShare_le (l : Light) (h : l.warmth ≤ 100) : warmShare l ≤ limitedLevel l := by
  have : limitedLevel l * l.warmth ≤ limitedLevel l * 100 := Nat.mul_le_mul_left _ h
  unfold warmShare
  omega

/-- The two targets together stay within the limit of the ceiling (R86, R90). -/
theorem shareDuty_add_le (l : Light) (h : l.warmth ≤ 100) :
    shareDuty (warmShare l) + shareDuty (coolShare l) ≤ dutyLimit l.ceiling := by
  have hw := warmShare_le l h
  have hl : limitedLevel l ≤ l.ceiling := Nat.min_le_right _ _
  unfold shareDuty coolShare dutyLimit
  omega

theorem dutyLimit_mono {a b : Nat} (h : a ≤ b) : dutyLimit a ≤ dutyLimit b := by
  unfold dutyLimit
  omega

/-! ### The light by itself -/

/-- The light within its ranges and its ceiling, with the targets that the request gives where it is `on`, and dark where
it may not shine. -/
structure LightOk (l : Light) (ceiling : Nat) (on mayShine : Bool) : Prop where
  brightness : l.brightness ≤ 1000
  warmth : l.warmth ≤ 100
  step_pos : 1 ≤ l.step
  step_le : l.step ≤ 4095
  ceiling_eq : l.ceiling = ceiling
  targets : retarget on l = l
  limit : l.warm + l.cool ≤ dutyLimit l.ceiling
  dark : mayShine = false → l.warm = 0 ∧ l.cool = 0

namespace LightOk

variable {l : Light} {c : Nat} {on may : Bool}

/-- The targets that a retargeting leaves. -/
theorem retarget_warmTarget (on : Bool) (l : Light) :
    (retarget on l).warmTarget = if on then shareDuty (warmShare l) else 0 := by cases on <;> rfl

theorem retarget_coolTarget (on : Bool) (l : Light) :
    (retarget on l).coolTarget = if on then shareDuty (coolShare l) else 0 := by cases on <;> rfl

theorem target_sum (h : LightOk l c on may) : l.warmTarget + l.coolTarget ≤ dutyLimit c := by
  have hsum := shareDuty_add_le l h.warmth
  rw [h.ceiling_eq] at hsum
  rw [← h.targets, retarget_warmTarget, retarget_coolTarget]
  split
  · exact hsum
  · exact Nat.zero_le _

/-- The targets recomputed for another state of the part. -/
theorem retarget (h : LightOk l c on may) (on' : Bool) : LightOk (retarget on' l) c on' may := by
  cases on' <;>
    exact ⟨h.brightness, h.warmth, h.step_pos, h.step_le, h.ceiling_eq, rfl, h.limit, h.dark⟩

/-- A light that may not shine may later. -/
theorem mono (h : LightOk l c on may) (may' : Bool) (hm : may' = false → may = false) : LightOk l c on may' :=
  { h with dark := fun hf => h.dark (hm hf) }

theorem takeRequest (h : LightOk l c on may) (b w s : Nat) (on' : Bool) :
    LightOk (Machine.retarget on' (takeRequest b w s l)) c on' may := by
  have hbase : LightOk (Machine.retarget false (Machine.takeRequest b w s l)) c false may :=
    ⟨Nat.min_le_right _ _, Nat.min_le_right _ _, by simp [Machine.takeRequest, Machine.retarget],
      Nat.min_le_right _ _, h.ceiling_eq, rfl, h.limit, h.dark⟩
  cases on' with
  | false => exact hbase
  | true => exact hbase.retarget true

/-- The duties cut to the targets of a lower ceiling, or left under a higher one, stay within it (R88). -/
theorem takeCeiling (h : LightOk l c on may) (c' : Nat) : LightOk (takeCeiling c' on l) c' on may := by
  have hraise (hc : c ≤ c') : LightOk (Machine.retarget on { l with ceiling := c' }) c' on may := by
    have hlim : l.warm + l.cool ≤ dutyLimit c' := (h.ceiling_eq ▸ h.limit).trans (dutyLimit_mono hc)
    cases on <;> exact ⟨h.brightness, h.warmth, h.step_pos, h.step_le, rfl, rfl, hlim, h.dark⟩
  have hsum : (Machine.retarget on { l with ceiling := c' }).warmTarget
      + (Machine.retarget on { l with ceiling := c' }).coolTarget ≤ dutyLimit c' := by
    have := shareDuty_add_le { l with ceiling := c' } h.warmth
    rw [retarget_warmTarget, retarget_coolTarget]
    split
    · exact this
    · exact Nat.zero_le _
  simp only [Machine.takeCeiling]
  split
  · have hmin (a b x y : Nat) : min a x + min b y ≤ x + y := by omega
    have hdark (hf : may = false) (x y : Nat) : min l.warm x = 0 ∧ min l.cool y = 0 := by
      obtain ⟨hw, hc⟩ := h.dark hf
      simp [hw, hc]
    cases on <;>
      exact ⟨h.brightness, h.warmth, h.step_pos, h.step_le, rfl, rfl, (hmin _ _ _ _).trans hsum,
        fun hf => hdark hf _ _⟩
  · next hc => exact hraise (by rw [← h.ceiling_eq]; omega)

/-- One ramp tick: either both duties move up to their targets at most, or what one gains the other has lost (R89). -/
theorem rampLight (h : LightOk l c on may) (hoff : may = false → on = false) : LightOk (rampLight l) c on may := by
  have hsum := h.target_sum
  have hlim := h.limit
  have hstep := h.step_pos
  rw [h.ceiling_eq] at hlim
  have htargets : Machine.retarget on (Machine.rampLight l) = Machine.rampLight l := by
    have ht := h.targets
    have hwt := congrArg Light.warmTarget ht
    have hct := congrArg Light.coolTarget ht
    rw [retarget_warmTarget] at hwt
    rw [retarget_coolTarget] at hct
    cases on with
    | true => simpa only [Machine.retarget, if_true, Machine.rampLight, Light.mk.injEq, true_and, and_true] using ⟨hwt, hct⟩
    | false =>
      simpa [Machine.retarget, Machine.rampLight] using ⟨hwt, hct⟩
  refine ⟨h.brightness, h.warmth, h.step_pos, h.step_le, h.ceiling_eq, htargets, ?_, ?_⟩
  · change rampToward l.step l.warm l.warmTarget + rampToward l.step l.cool l.coolTarget ≤ dutyLimit l.ceiling
    rw [h.ceiling_eq]
    unfold rampToward
    split <;> split <;> omega
  · intro hf
    obtain ⟨hw, hc⟩ := h.dark hf
    have hon := hoff hf
    have hwt := congrArg Light.warmTarget h.targets
    have hct := congrArg Light.coolTarget h.targets
    rw [retarget_warmTarget, hon] at hwt
    rw [retarget_coolTarget, hon] at hct
    simp only [Bool.false_eq_true, if_false] at hwt hct
    simp [Machine.rampLight, rampToward, hw, hc, ← hwt, ← hct]

/-- The light at its defaults under its ceiling: its targets are 0 whatever the state of the part (R94, R123). -/
theorem darkLight (c : Nat) (l : Light) (hc : l.ceiling = c) (on may : Bool) : LightOk (darkLight l) c on may := by
  have hlevel : limitedLevel (Machine.darkLight l) = 0 := by
    simp [limitedLevel, lightLevel, Machine.darkLight, defaultLight]
  have hwarm : warmShare (Machine.darkLight l) = 0 := by
    rw [warmShare, hlevel]
    simp [Machine.darkLight, defaultLight]
  have hcool : coolShare (Machine.darkLight l) = 0 := by rw [coolShare, hlevel, Nat.zero_sub]
  have htargets : Machine.retarget on (Machine.darkLight l) = Machine.darkLight l := by
    cases on with
    | true => rw [Machine.retarget, if_pos rfl, hwarm, hcool]; rfl
    | false => rfl
  exact ⟨by simp [Machine.darkLight, defaultLight], by simp [Machine.darkLight, defaultLight],
    by simp [Machine.darkLight, defaultLight], by simp [Machine.darkLight, defaultLight], hc,
    htargets, Nat.zero_le _, fun _ => ⟨rfl, rfl⟩⟩

end LightOk

/-! ### The light of the part -/

/-- Whether the light may shine: in ACTIVE and SETTLING (R87, R92). -/
def mayShine (p : Power) : Bool := decide (p.state = .active) || decide (p.state = .settling)

/-- The light of a part with its battery and its power state. -/
def LitRight (s : Part) : Prop := LightOk s.light (ceilingOf s.battery.state) (lit s.power) (mayShine s.power)

theorem lightLegal_iff (s : Part) : lightLegal s = true ↔ LitRight s := by
  have hdark : (decide (s.power.state = .active) || decide (s.power.state = .settling) || lightDark s.light) = true
      ↔ (mayShine s.power = false → s.light.warm = 0 ∧ s.light.cool = 0) := by
    rw [← mayShine]
    cases mayShine s.power <;> simp [lightDark]
  simp only [lightLegal, Bool.and_eq_true, hdark, decide_eq_true_eq]
  constructor
  · rintro ⟨⟨⟨⟨⟨⟨⟨hb, hw⟩, hs⟩, hs'⟩, hc⟩, ht⟩, hl⟩, hd⟩
    exact ⟨hb, hw, hs, hs', hc, ht, hl, hd⟩
  · intro h
    exact ⟨⟨⟨⟨⟨⟨⟨h.brightness, h.warmth⟩, h.step_pos⟩, h.step_le⟩, h.ceiling_eq⟩, h.targets⟩, h.limit⟩, h.dark⟩

theorem lit_of_not_mayShine {p : Power} (h : mayShine p = false) : lit p = false := by
  simp only [mayShine, Bool.or_eq_false_iff, decide_eq_false_iff_not] at h
  simp [lit, h.1]

namespace LitRight

variable {s t : Part}

/-- What matters of the part: the light, the battery state, the power state and the off-pending flag. -/
theorem congr (h : LitRight s) (hl : t.light = s.light) (hb : t.battery.state = s.battery.state)
    (hp : t.power.state = s.power.state) (ho : t.power.offPending = s.power.offPending) : LitRight t := by
  unfold LitRight lit mayShine at *
  rw [hl, hb, hp, ho]
  exact h

theorem of_spoolWork (h : LitRight s) (hw : SpoolWork s t) : LitRight t := by
  rw [hw.1]
  exact h

theorem of_writeSide (h : LitRight s) (hw : WriteSide s t) : LitRight t := by
  rw [hw.1]
  exact h

theorem of_turnSide (h : LitRight s) (ht : TurnSide s t) : LitRight t := by
  rw [ht]
  exact h

/-- The targets recomputed after a change of the power state to one in which the light shines at least as freely. -/
theorem recompute (h : LitRight s) (hl : t.light = s.light) (hb : t.battery = s.battery)
    (hm : mayShine t.power = false → mayShine s.power = false) : LitRight (recomputeLight t) := by
  have h' := (h.retarget (lit t.power)).mono (mayShine t.power) hm
  unfold LitRight recomputeLight
  simpa only [modifyLight_light, modifyLight_battery, modifyLight_power, hl, hb] using h'

theorem leaveHold (h : LitRight s) : LitRight (leaveHold s) := by
  rcases leaveHold_cases s with hs | ⟨hh, hs⟩
  · rw [hs]; exact h
  · refine of_spoolWork (s := sampleTemperature (restoreRefresh (setPowerState .settling s))) ?_ hs
    have hlit : lit s.power = false := by simp [lit, hh]
    have hoff := LightOk.mono h (mayShine { s.power with state := .settling }) (by simp [mayShine])
    rw [hlit] at hoff
    exact hoff

theorem enterSettling (h : LitRight s) (b : Bool) : LitRight (enterSettling b s) := by
  have hs : LitRight (settled s) := h.recompute rfl rfl (by simp [mayShine, setPowerState])
  rcases enterSettling_cases b s with he | he <;> rw [he] <;> exact hs

end LitRight

/-- A sample hands a changed battery state's ceiling to the light, and an unchanged one is the light's already (R88,
R104). -/
theorem litRight_takeSample (s : Part) (h : LitRight s) : LitRight (takeSample s) := by
  have htake (new : BatteryState) (t : Part) (hl : t.light = s.light) (hb : t.battery.state = new)
      (hp : t.power = s.power) : LitRight (takeBatteryState new s.battery.state t) := by
    unfold takeBatteryState
    split
    · next hn => exact h.congr hl (hb.trans hn) (by rw [hp]) (by rw [hp])
    · have hc : LitRight (modifyLight (takeCeiling (ceilingOf new) (lit t.power)) t) := by
        have := LightOk.takeCeiling h (ceilingOf new)
        unfold LitRight
        simpa only [modifyLight_light, modifyLight_battery, modifyLight_power, hl, hb, hp] using this
      dsimp only
      split <;> exact hc
  have hsample (new : BatteryState) (b : Battery) :
      LitRight (stepFresh (takeBatteryState new s.battery.state { s with battery := { b with state := new } })) :=
    (htake new { s with battery := { b with state := new } } rfl rfl rfl).congr rfl rfl rfl rfl
  exact hsample _ _

theorem litRight_kept : KeptBlocks LitRight where
  supply _ _ h := h
  pins _ _ h := h
  debounce _ _ h := h
  rights _ _ h := h
  unit _ _ _ _ h := h
  power f hf s h := h.congr rfl rfl (hf _).1 (hf _).2.1
  wave _ _ h := h
  writes hw h := h.of_writeSide hw
  array _ _ _ _ h := h
  select p s h := by
    rcases selectPort_cases p s with hs | hs | hs <;> rw [hs]
    · exact h
    · exact h
    · exact LitRight.leaveHold (s := modifyPort p _ s) h
  sample s h := litRight_takeSample s h
  boot reason s hs h := by
    have hb : LightOk s.light (ceilingOf s.battery.state) (lit s.power) (mayShine s.power) := h
    have hlit : lit s.power = false := by simp [lit, hs]
    have hmay : mayShine s.power = false := by simp [mayShine, hs]
    rw [hlit, hmay] at hb
    exact hb
  reset cold s _ := (lightLegal_iff _).mp rfl
  forcedOff s h := by
    rw [beginForcedOff_frame]
    exact LightOk.darkLight _ _ h.ceiling_eq _ _
  off s h := LightOk.darkLight _ _ h.ceiling_eq _ _
  wakes s h := by
    rcases wake_cases s with hs | ⟨_, _, hs⟩ <;> rw [hs]
    · exact h
    · exact (h.leaveHold.recompute (t := setPowerState .active (setAsleep false (leaveHold s))) rfl rfl
        (by simp [mayShine, setPowerState])).of_turnSide (by simp [TurnSide.refl])
  settling b s _ h := h.enterSettling b
  offPending _ _ h := h.recompute rfl rfl fun hm => hm
  hold s hq h := by
    rw [enterHold, if_pos hq]
    simp only [quiet, Bool.and_eq_true, decide_eq_true_eq, lightDark] at hq
    obtain ⟨⟨⟨⟨⟨⟨⟨⟨hset, _⟩, _⟩, _⟩, hdark⟩, _⟩, _⟩, _⟩, _⟩ := hq
    have hlit : lit s.power = false := by simp [lit, hset]
    have hb : LightOk s.light (ceilingOf s.battery.state) (lit s.power) (mayShine s.power) := h
    rw [hlit] at hb
    have hd : LightOk s.light (ceilingOf s.battery.state) false false := { hb with dark := fun _ => hdark }
    exact hd
  press d s _ _ h := h.of_turnSide (by simp [TurnSide.refl])
  ramp s h := LightOk.rampLight h lit_of_not_mayShine
  frame s _ h := by
    rw [displaySide_boundary s]
    exact h
  slotWrite _ _ _ _ _ _ _ _ h := h
  post i key s _ _ _ _ h := LitRight.of_turnSide (s := setSlot i { slot s i with state := .ready, key := some key } s) h
    (by simp [TurnSide.refl])
  discard _ _ _ _ _ h := h
  retain _ _ _ _ _ h := h
  turnList _ _ _ _ _ _ h := h
  turnSettings _ _ _ _ _ _ _ h := h
  absorbed _ _ _ _ _ _ _ h := h
  enqueued _ _ _ _ _ _ _ h := h
  cancel _ _ _ h := h
  ghostLimit _ _ _ _ _ h := h
  ghosts _ _ h := h
  light b t r s _ h := LightOk.takeRequest h _ _ _ _
  resistance _ _ _ h := h
  incoming _ _ _ h := h
  sleepImage _ _ _ _ h := h

/-- The end of BOOT recomputes the targets for ACTIVE, and no load touches the light. -/
theorem litRight_bootSequence (ecc : List (Nat × List Sector)) (s : Part) (h : LitRight s) :
    LitRight (bootSequence ecc s) := by
  obtain ⟨t, ht, hs⟩ := bootSequence_frame ecc s
  refine LitRight.of_spoolWork ?_ hs
  rw [ht]
  exact (LightOk.retarget h (lit (activePower s.power))).mono _ (by simp [mayShine, activePower])

/-- Settles O54: by the step lemma for `LitRight`. -/
theorem lightStaysLimited : Obligations.LightStaysLimited := fun _ _ hs hst =>
  (lightLegal_iff _).mpr
    (litRight_kept.kept.step (fun ecc p _ h => litRight_bootSequence ecc p h) ((lightLegal_iff _).mp hs) hst)

end Sys2Proof.Machine
end

section
/-! PROOFS. The third invariant: the turn state stays legal (chapter 2). Of the part only the turn controller and the power
state matter. -/

namespace Sys2Proof.Machine

/-- A turn state that is legal, with a backlog only where the part is ACTIVE (R23 to R25, R30, R32). -/
structure TurnOk (t : Turn) (active : Bool) : Prop where
  length : t.list.length ≤ 28
  pages : ∀ k ∈ t.list, k < Config.pageSlots
  nodup : t.list.Nodup
  cursor_none : t.cursor = none → t.list = []
  cursor_lt : ∀ i, t.cursor = some i → i < t.list.length
  low : -8 ≤ t.backlog
  high : t.backlog ≤ 8
  inActive : t.backlog = 0 ∨ active = true
  lookahead_pos : 1 ≤ t.lookahead
  lookahead_le : t.lookahead ≤ 8
  mode : t.mode ≠ .full

/-- The turn state of a part, in its power state. -/
def TurnRight (s : Part) : Prop := TurnOk s.turn (decide (s.power.state = .active))

theorem turnLegal_iff (s : Part) : turnLegal s = true ↔ TurnRight s := by
  simp only [turnLegal, Bool.and_eq_true, decide_eq_true_eq, List.all_eq_true, Bool.or_eq_true]
  constructor
  · rintro ⟨⟨⟨⟨⟨⟨⟨⟨⟨hlen, hp⟩, hn⟩, hc⟩, hl⟩, hh⟩, ha⟩, hlp⟩, hll⟩, hm⟩
    refine ⟨hlen, hp, hn, fun hi => ?_, fun i hi => ?_, hl, hh, ha.imp_right (by simp), hlp, hll, hm⟩
    · rw [hi] at hc
      simpa using hc
    · rw [hi] at hc
      simpa using hc
  · intro h
    refine ⟨⟨⟨⟨⟨⟨⟨⟨⟨h.length, h.pages⟩, h.nodup⟩, ?_⟩, h.low⟩, h.high⟩, h.inActive.imp_right (by simp)⟩,
      h.lookahead_pos⟩, h.lookahead_le⟩, h.mode⟩
    cases hc : s.turn.cursor with
    | none => simpa using h.cursor_none hc
    | some i => simpa using h.cursor_lt i hc

/-! ### The steps of the cursor -/

/-- A step that does not fail lands within the list. -/
theorem entryAt_of_stepFailure_none {d : Int} {s : Part} (h : stepFailure d s = none) : ∃ k, entryAt s.turn d = some k := by
  unfold stepFailure at h
  cases he : entryAt s.turn d with
  | none => simp [he] at h
  | some k => exact ⟨k, rfl⟩

theorem TurnOk.moveCursor {t : Turn} {a : Bool} (h : TurnOk t a) {d : Int} {k : Nat} (hk : entryAt t d = some k) :
    TurnOk (moveCursor d t) a := by
  unfold entryAt at hk
  cases hc : t.cursor with
  | none => simp [hc] at hk
  | some i =>
    simp only [hc] at hk
    split at hk
    · obtain ⟨hlt, _⟩ := List.getElem?_eq_some_iff.mp hk
      have hmoved : (Machine.moveCursor d t).cursor = some ((i : Int) + d).toNat := by
        rw [Machine.moveCursor, hc]
        rfl
      refine { h with cursor_none := by simp [hmoved], cursor_lt := ?_ }
      rintro j hj
      obtain rfl := Option.some.inj (hmoved.symm.trans hj)
      exact hlt
    · cases hk

/-- What a list or the backlog may become. -/
theorem TurnOk.setBacklog {t : Turn} {a : Bool} (h : TurnOk t a) {n : Int} (hl : -8 ≤ n) (hh : n ≤ 8)
    (ha : n = 0 ∨ a = true) : TurnOk (setBacklog n t) a :=
  { h with low := hl, high := hh, inActive := ha }

namespace TurnRight

variable {s t : Part}

theorem congr (h : TurnRight s) (ht : t.turn = s.turn) (hp : t.power.state = s.power.state) : TurnRight t := by
  unfold TurnRight
  rw [ht, hp]
  exact h

theorem of_spoolWork (h : TurnRight s) (hw : SpoolWork s t) : TurnRight t := by
  rw [hw.1]
  exact h

theorem of_writeSide (h : TurnRight s) (hw : WriteSide s t) : TurnRight t := by
  rw [hw.1]
  exact h

/-- Without a backlog the turn state is legal in any power state. -/
theorem of_backlog_zero (h : TurnRight s) (h0 : s.turn.backlog = 0) (ht : t.turn = s.turn) : TurnRight t := by
  unfold TurnRight
  rw [ht]
  exact { h with inActive := .inl h0 }

theorem setBacklog_zero (h : TurnRight s) (ht : t.turn = setBacklog 0 s.turn) : TurnRight t := by
  unfold TurnRight
  rw [ht]
  exact { h with low := by simp [Machine.setBacklog], high := by simp [Machine.setBacklog], inActive := .inl rfl }

/-- Outside ACTIVE there is no backlog (R32). -/
theorem backlog_zero (h : TurnRight s) (hs : s.power.state ≠ .active) : s.turn.backlog = 0 :=
  h.inActive.resolve_right (by simpa using hs)

theorem starve (h : TurnRight s) (d : Int) (r : StarveReason) (b : Option Nat) : TurnRight (starve d r b s) :=
  h.congr (by simp [Machine.starve]) (by simp [Machine.starve])

theorem renderAhead (h : TurnRight s) (d : Int) : TurnRight (renderAhead d s) := by
  simp only [Machine.renderAhead]
  split <;> exact h

theorem submitTurn (h : TurnRight s) : TurnRight (submitTurn s) := by
  unfold Machine.submitTurn
  split <;> exact h

theorem turn (h : TurnRight s) (d : Int) (hd : d = 1 ∨ d = -1) (hs : s.power.state = .active) : TurnRight (turn d s) := by
  have hback : TurnRight (modifyTurn (setBacklog d) s) :=
    TurnOk.setBacklog h (by omega) (by omega) (.inr (by simpa using hs))
  unfold Machine.turn
  split
  · exact hback.starve _ _ _
  · next hf =>
    obtain ⟨k, hk⟩ := entryAt_of_stepFailure_none hf
    have hmove : TurnRight (modifyTurn (moveCursor d) s) := TurnOk.moveCursor h hk
    unfold readyTurn
    split
    · exact h.starve _ _ _
    · split
      · exact h.starve _ _ _
      · exact hmove.submitTurn.renderAhead d

theorem turnPress (h : TurnRight s) (d : Int) (hd : d = 1 ∨ d = -1) (hs : s.power.state = .active) :
    TurnRight (turnPress d s) := by
  unfold Machine.turnPress
  split
  · exact h.turn d hd hs
  · exact { h with low := le_max_left _ _, high := by simp [addBacklog], inActive := .inr (decide_eq_true hs) }

/-- The steps of a service: each brings the backlog one nearer to 0, and there are no more of them than it counts. -/
theorem serveSteps (d : Int) (hd : d = 1 ∨ d = -1) (n : Nat) :
    ∀ s, TurnRight s → (n : Int) ≤ d * s.turn.backlog → TurnRight (serveSteps d n s) := by
  induction n with
  | zero => exact fun s h _ => h
  | succ n ih =>
    intro s h hn
    unfold Machine.serveSteps
    split
    · exact h
    · next hf =>
      obtain ⟨k, hk⟩ := entryAt_of_stepFailure_none hf
      have hl := h.low
      have hh := h.high
      have hne : s.turn.backlog ≠ 0 := by
        rintro h0
        rw [h0, mul_zero] at hn
        omega
      have ha := h.inActive.resolve_left hne
      refine ih _ ?_ ?_
      · refine TurnOk.setBacklog (TurnOk.moveCursor h hk) ?_ ?_ (.inr ha)
        · rcases hd with rfl | rfl <;> omega
        · rcases hd with rfl | rfl <;> omega
      · change (n : Int) ≤ d * (s.turn.backlog - d)
        rcases hd with rfl | rfl <;> omega

theorem backlogService (h : TurnRight s) : TurnRight (backlogService s) := by
  have hserve (hne : s.turn.backlog.sign ≠ 0) :
      TurnRight (Machine.serveSteps s.turn.backlog.sign s.turn.backlog.natAbs s) := by
    refine serveSteps _ ?_ _ _ h (Int.sign_mul_self_eq_abs _ ▸ (Int.natCast_natAbs _).le)
    rcases Int.sign_trichotomy s.turn.backlog with h1 | h1 | h1
    · exact .inl h1
    · exact absurd h1 hne
    · exact .inr h1
  simp only [Machine.backlogService]
  split
  · exact h
  · next hne =>
    split
    · exact h
    · split
      · exact h.starve _ _ _
      · split
        · exact h.starve _ _ _
        · unfold reportRemainder
          have hr := (hserve hne).submitTurn.renderAhead s.turn.backlog.sign
          split
          · exact hr
          · split
            · exact hr.starve _ _ _
            · exact hr

theorem wakeRestore (h : TurnRight s) : TurnRight (wakeRestore s) := by
  unfold Machine.wakeRestore
  split
  · exact h
  · split
    · exact h.starve _ _ _
    · split
      · exact h.starve _ _ _
      · split
        · exact h.starve _ _ _
        · exact h

theorem leaveHold (h : TurnRight s) : TurnRight (leaveHold s) := by
  rcases leaveHold_cases s with hs | ⟨hh, hs⟩
  · rw [hs]; exact h
  · exact of_spoolWork (s := sampleTemperature (restoreRefresh (setPowerState .settling s)))
      (h.of_backlog_zero (h.backlog_zero (by simp [hh])) rfl) hs

theorem enterSettling (h : TurnRight s) (b : Bool) : TurnRight (enterSettling b s) := by
  have hs : TurnRight (settled s) := h.setBacklog_zero rfl
  rcases enterSettling_cases b s with he | he <;> rw [he] <;> exact hs

theorem takeSample (h : TurnRight s) : TurnRight (takeSample s) := by
  rw [takeSample_frame]
  exact h

end TurnRight

theorem turnRight_kept : KeptBlocks TurnRight where
  supply _ _ h := h
  pins _ _ h := h
  debounce _ _ h := h
  rights _ _ h := h
  unit _ _ _ _ h := h
  power f hf s h := h.congr rfl (hf _).1
  wave _ _ h := h
  writes hw h := h.of_writeSide hw
  array _ _ _ _ h := h
  select p s h := by
    rcases selectPort_cases p s with hs | hs | hs <;> rw [hs]
    · exact h
    · exact h
    · exact TurnRight.leaveHold (s := modifyPort p _ s) h
  sample s h := h.takeSample
  boot reason s hs h := h.of_backlog_zero (h.backlog_zero (by simp [hs])) rfl
  reset cold s _ := (turnLegal_iff _).mp rfl
  forcedOff s h := by
    rw [beginForcedOff_frame]
    exact h
  off s _ := (turnLegal_iff _).mp rfl
  wakes s h := by
    rcases wake_cases s with hs | ⟨_, hst, hs⟩ <;> rw [hs]
    · exact h
    · have hl := h.leaveHold
      have hne : (leaveHold s).power.state ≠ .active := by
        rcases leaveHold_cases s with he | ⟨_, he⟩
        · rw [he]; rcases hst with hst | hst <;> simp [hst]
        · have hstate : (sampleTemperature (restoreRefresh (setPowerState .settling s))).power.state = .settling := rfl
          rw [he.1]
          simp [hstate]
      exact (hl.of_backlog_zero (t := recomputeLight (setPowerState .active (setAsleep false (leaveHold s))))
        (hl.backlog_zero hne) rfl).wakeRestore
  settling b s _ h := h.enterSettling b
  offPending _ _ h := h
  hold s hq h := by
    rw [enterHold, if_pos hq]
    have hset : s.power.state = .settling := by
      simp only [quiet, Bool.and_eq_true, decide_eq_true_eq] at hq
      obtain ⟨⟨⟨⟨⟨⟨⟨⟨hset, _⟩, _⟩, _⟩, _⟩, _⟩, _⟩, _⟩, _⟩ := hq
      exact hset
    exact h.of_backlog_zero (h.backlog_zero (by simp [hset])) rfl
  press d s hd ha h := h.turnPress d hd ha
  ramp _ h := h
  frame s _ h := by
    rw [displaySide_boundary s]
    exact h
  slotWrite _ _ _ _ _ _ _ _ h := h
  post i key s _ _ _ _ h :=
    TurnRight.backlogService (s := setSlot i { slot s i with state := .ready, key := some key } s) h
  discard _ _ _ _ _ h := h
  retain _ _ _ _ _ h := h
  turnList n places c s _ hv h := by
    simp only [listValid, Bool.and_eq_true, decide_eq_true_eq, List.all_eq_true] at hv
    obtain ⟨⟨⟨⟨⟨⟨_, hn⟩, hlen⟩, _⟩, hpages⟩, hnodup⟩, hcur⟩ := hv
    exact { h with
      length := hlen.le.trans hn, pages := hpages, nodup := hnodup, cursor_none := by simp,
      cursor_lt := fun i hi => (Option.some.inj hi) ▸ hcur.trans_le hlen.ge,
      low := by simp, high := by simp, inActive := .inl rfl }
  turnSettings _ _ _ _ hpos hle hm h := { h with lookahead_pos := hpos, lookahead_le := hle, mode := hm }
  absorbed _ _ _ _ _ _ _ h := h
  enqueued _ _ _ _ _ _ _ h := h
  cancel _ _ _ h := h
  ghostLimit _ _ _ _ _ h := h
  ghosts _ _ h := h
  light _ _ _ _ _ h := h
  resistance _ _ _ h := h
  incoming _ _ _ h := h
  sleepImage _ _ _ _ h := h

/-- BOOT leaves the turn state as it is, and has no backlog to lose. -/
theorem turnRight_bootSequence (ecc : List (Nat × List Sector)) (s : Part) (hs : s.power.state = .boot) (h : TurnRight s) :
    TurnRight (bootSequence ecc s) := by
  obtain ⟨t, ht, hb⟩ := bootSequence_frame ecc s
  refine TurnRight.of_spoolWork (h.of_backlog_zero (h.backlog_zero (by simp [hs])) ?_) hb
  rw [ht]

/-- Settles O55: by the step lemma for `TurnRight`. -/
theorem turnStateStaysLegal : Obligations.TurnStateStaysLegal := fun _ _ hs hst =>
  (turnLegal_iff _).mpr
    (turnRight_kept.kept.step (fun ecc p hp h => turnRight_bootSequence ecc p hp h) ((turnLegal_iff _).mp hs) hst)

end Sys2Proof.Machine
end

section
/-! PROOFS. The lanes of the engine and its collections (chapter 3): what the engine's operations do to a lane at an
index (`laneAt`) and to a sum over the running lanes (`laneSum`). -/

namespace Sys2Proof.Machine

/-! ### The lane at an index, and sums over the running lanes -/

/-- The running lane at an index. -/
def laneAt (e : Engine) (i : Nat) : Option Lane := (e.lanes.toList[i]?).join

/-- A sum over the running lanes. -/
def laneSum (f : Lane → Nat) (e : Engine) : Nat := ((runningLanes e).map fun x => f x.2).sum

/-- What a place of the lane table adds to a sum. -/
def laneValue (f : Lane → Nat) (o : Option Lane) : Nat := (o.map f).getD 0

@[simp] theorem laneValue_none (f : Lane → Nat) : laneValue f none = 0 := rfl

@[simp] theorem laneValue_some (f : Lane → Nat) (l : Lane) : laneValue f (some l) = f l := rfl

/-- The running lanes of a list of places counted from `k`. -/
def runningFrom (k : Nat) (ls : List (Option Lane)) : List (Nat × Lane) :=
  ((ls.zipIdx k).map fun x => (x.2, x.1)).filterMap fun x => x.2.map fun l => (x.1, l)

theorem runningFrom_cons (k : Nat) (o : Option Lane) (ls : List (Option Lane)) :
    runningFrom k (o :: ls) = (o.map fun l => (k, l)).toList ++ runningFrom (k + 1) ls := by
  cases o <;> simp [runningFrom, List.zipIdx_cons]

theorem runningLanes_eq (e : Engine) : runningLanes e = runningFrom 0 e.lanes.toList := rfl

theorem mem_runningFrom {ls : List (Option Lane)} {i : Nat} {l : Lane} :
    ∀ k, (i, l) ∈ runningFrom k ls ↔ k ≤ i ∧ (ls[i - k]?).join = some l := by
  induction ls with
  | nil => simp [runningFrom]
  | cons o ls ih =>
    intro k
    rw [runningFrom_cons, List.mem_append, ih (k + 1), Option.mem_toList, Option.map_eq_some_iff]
    constructor
    · rintro (⟨l', rfl, h⟩ | ⟨hk, h⟩)
      · obtain ⟨rfl, rfl⟩ := Prod.mk.inj h
        simp
      · refine ⟨by omega, ?_⟩
        rw [show i - k = (i - (k + 1)) + 1 by omega, List.getElem?_cons_succ]
        exact h
    · rintro ⟨hk, h⟩
      rcases Nat.eq_or_lt_of_le hk with rfl | hlt
      · rw [Nat.sub_self, List.getElem?_cons_zero, Option.join_some] at h
        exact .inl ⟨l, h, rfl⟩
      · rw [show i - k = (i - (k + 1)) + 1 by omega, List.getElem?_cons_succ] at h
        exact .inr ⟨by omega, h⟩

theorem mem_runningLanes {e : Engine} {i : Nat} {l : Lane} : (i, l) ∈ runningLanes e ↔ laneAt e i = some l := by
  rw [runningLanes_eq, mem_runningFrom]
  simp [laneAt]

/-- The running lanes stand in ascending order of their indexes. -/
theorem pairwise_runningFrom (ls : List (Option Lane)) : ∀ k, (runningFrom k ls).Pairwise fun x y => x.1 < y.1 := by
  induction ls with
  | nil => exact fun k => List.Pairwise.nil
  | cons o ls ih =>
    intro k
    rw [runningFrom_cons]
    refine List.pairwise_append.mpr ⟨?_, ih (k + 1), ?_⟩
    · cases o <;> simp
    · rintro ⟨i, l⟩ hi ⟨j, m⟩ hj
      obtain ⟨_, _, h⟩ := Option.map_eq_some_iff.mp (Option.mem_toList.mp hi)
      obtain ⟨hkj, _⟩ := (mem_runningFrom (k + 1)).mp hj
      obtain ⟨rfl, _⟩ := Prod.mk.inj h
      exact hkj

theorem pairwise_runningLanes (e : Engine) : (runningLanes e).Pairwise fun x y => x.1 < y.1 := pairwise_runningFrom _ 0

theorem sum_runningFrom (f : Lane → Nat) (ls : List (Option Lane)) :
    ∀ k, ((runningFrom k ls).map fun x => f x.2).sum = (ls.map (laneValue f)).sum := by
  induction ls with
  | nil => exact fun k => rfl
  | cons o ls ih =>
    intro k
    rw [runningFrom_cons, List.map_append, List.sum_append, ih, List.map_cons, List.sum_cons]
    cases o <;> simp

theorem laneSum_eq (f : Lane → Nat) (e : Engine) : laneSum f e = (e.lanes.toList.map (laneValue f)).sum :=
  sum_runningFrom f _ 0

/-- A sum over a list with one place replaced. -/
theorem sum_set_add (l : List Nat) : ∀ (i : Nat) (h : i < l.length) (v : Nat), (l.set i v).sum + l[i] = l.sum + v := by
  induction l with
  | nil => exact fun i h => absurd h (Nat.not_lt_zero i)
  | cons a l ih =>
    rintro (_ | i) h v
    · simp only [List.set_cons_zero, List.sum_cons, List.getElem_cons_zero]
      omega
    · have := ih i (by simpa using h) v
      simp only [List.set_cons_succ, List.sum_cons, List.getElem_cons_succ]
      omega

theorem laneAt_of_lanes {e e' : Engine} (h : e'.lanes = e.lanes) (i : Nat) : laneAt e' i = laneAt e i := by
  rw [laneAt, laneAt, h]

theorem laneSum_of_lanes {e e' : Engine} (h : e'.lanes = e.lanes) (f : Lane → Nat) : laneSum f e' = laneSum f e := by
  rw [laneSum_eq, laneSum_eq, h]

theorem laneAt_lt {e : Engine} {i : Nat} {l : Lane} (h : laneAt e i = some l) : i < 8 := by
  by_contra hi
  rw [laneAt, List.getElem?_eq_none (by simpa using hi)] at h
  cases h

/-! ### A lane replaced -/

theorem laneAt_setLane_same (e : Engine) {i : Nat} (v : Option Lane) (h : i < 8) : laneAt (setLane i v e) i = v := by
  simp [laneAt, setLane, h]

theorem laneAt_setLane_other (e : Engine) {i j : Nat} (v : Option Lane) (h : i ≠ j) :
    laneAt (setLane i v e) j = laneAt e j := by
  simp [laneAt, setLane, h]

theorem laneSum_setLane (f : Lane → Nat) (e : Engine) {i : Nat} (v : Option Lane) (h : i < 8) :
    laneSum f (setLane i v e) + laneValue f (laneAt e i) = laneSum f e + laneValue f v := by
  have hlen : i < (e.lanes.toList.map (laneValue f)).length := by simpa using h
  have hset := sum_set_add _ i hlen (laneValue f v)
  rw [List.getElem_map] at hset
  have hat : laneAt e i = e.lanes.toList[i]'(by simpa using h) := by
    rw [laneAt, List.getElem?_eq_getElem (by simpa using h), Option.join_some]
  rw [laneSum_eq, laneSum_eq, hat, ← hset]
  simp [setLane, List.map_set]

/-- A property of every running lane after one of them was replaced. -/
theorem forall_laneAt_setLane {Q : Nat → Lane → Prop} {e : Engine} {i : Nat} {v : Option Lane}
    (h : ∀ j l, laneAt e j = some l → Q j l) (hv : ∀ l, v = some l → Q i l) :
    ∀ j l, laneAt (setLane i v e) j = some l → Q j l := by
  intro j l hl
  by_cases hij : i = j
  · subst hij
    by_cases hi : i < 8
    · rw [laneAt_setLane_same e v hi] at hl
      exact hv l hl
    · exact absurd (laneAt_lt hl) hi
  · rw [laneAt_setLane_other e v hij] at hl
    exact h j l hl

/-! ### Every lane changed -/

theorem laneAt_map (g : Lane → Lane) {e e' : Engine} (h : e'.lanes = tableMap (Option.map g) e.lanes) (i : Nat) :
    laneAt e' i = (laneAt e i).map g := by
  rw [laneAt, laneAt, h, tableMap_toList, List.getElem?_map]
  cases e.lanes.toList[i]? <;> rfl

theorem laneSum_map (f : Lane → Nat) (g : Lane → Lane) {e e' : Engine}
    (h : e'.lanes = tableMap (Option.map g) e.lanes) : laneSum f e' = laneSum (fun l => f (g l)) e := by
  rw [laneSum_eq, laneSum_eq, h, tableMap_toList, List.map_map]
  congr 2
  funext o
  cases o <;> rfl

theorem laneSum_le {f g : Lane → Nat} (e : Engine) (h : ∀ l, f l ≤ g l) : laneSum f e ≤ laneSum g e :=
  List.sum_le_sum fun x _ => h x.2

theorem laneSum_none (f : Lane → Nat) {e : Engine} (h : ∀ i, laneAt e i = none) : laneSum f e = 0 := by
  have hempty : runningLanes e = [] := by
    refine List.eq_nil_iff_forall_not_mem.mpr fun ⟨i, l⟩ hm => ?_
    rw [mem_runningLanes, h i] at hm
    cases hm
  rw [laneSum, hempty]
  rfl

theorem laneAt_replicate_none {e : Engine} (h : e.lanes = Vector.replicate 8 none) (i : Nat) : laneAt e i = none := by
  rw [laneAt, h, Vector.toList_replicate, List.getElem?_replicate]
  split <;> rfl

theorem anyLane_eq_false {e : Engine} : anyLane e = false ↔ ∀ i, laneAt e i = none := by
  simp only [anyLane, List.any_eq_false, Bool.not_eq_true, Option.isSome_eq_false_iff, Option.isNone_iff_eq_none, laneAt]
  constructor
  · intro h i
    cases hi : e.lanes.toList[i]? with
    | none => rfl
    | some o => rw [Option.join_some, h o (List.mem_of_getElem? hi)]
  · intro h o ho
    obtain ⟨i, hi⟩ := List.mem_iff_getElem?.mp ho
    simpa [hi] using h i

/-! ### The lanes that an item meets (R52, R54) -/

theorem mem_meetings {q r : Rect} {e : Engine} {i : Nat} {l : Lane} :
    (i, l, r) ∈ meetings q e ↔ laneAt e i = some l ∧ q.meet l.update.rect = some r := by
  simp only [meetings, List.mem_filterMap, Option.map_eq_some_iff, Prod.mk.injEq, Prod.exists, mem_runningLanes]
  constructor
  · rintro ⟨_, _, hl, _, hq, rfl, rfl, rfl⟩
    exact ⟨hl, hq⟩
  · rintro ⟨hl, hq⟩
    exact ⟨i, l, hl, r, hq, rfl, rfl, rfl⟩

theorem pairwise_meetings (q : Rect) (e : Engine) : (meetings q e).Pairwise fun x y => x.1 < y.1 := by
  refine List.pairwise_filterMap.mpr ((pairwise_runningLanes e).imp ?_)
  rintro ⟨i, l⟩ ⟨j, m⟩ hij x hx y hy
  obtain ⟨_, _, rfl⟩ := Option.map_eq_some_iff.mp hx
  obtain ⟨_, _, rfl⟩ := Option.map_eq_some_iff.mp hy
  exact hij

/-- A lane with one more follow-up. -/
def withFollowUp (u : Update) (r : Rect) (l : Lane) : Lane := { l with followUps := l.followUps ++ [{ u with rect := r }] }

theorem attach_cons (u : Update) (m : Nat × Lane × Rect) (ms : List (Nat × Lane × Rect)) (e : Engine) :
    attach u (m :: ms) e = attach u ms (setLane m.1 (some (withFollowUp u m.2.2 m.2.1)) e) := rfl

/-- The attaching of follow-ups changes the lanes only. -/
theorem attach_frame (u : Update) (ms : List (Nat × Lane × Rect)) :
    ∀ e, attach u ms e = { e with lanes := (attach u ms e).lanes } := by
  induction ms with
  | nil => exact fun e => rfl
  | cons m ms ih =>
    intro e
    rw [attach_cons, ih]
    rfl

theorem forall_laneAt_attach {Q : Nat → Lane → Prop} {u : Update} {ms : List (Nat × Lane × Rect)}
    (hms : ∀ m ∈ ms, Q m.1 (withFollowUp u m.2.2 m.2.1)) :
    ∀ e, (∀ j l, laneAt e j = some l → Q j l) → ∀ j l, laneAt (attach u ms e) j = some l → Q j l := by
  induction ms with
  | nil => exact fun e h => h
  | cons m ms ih =>
    intro e h
    rw [attach_cons]
    refine ih (fun m' hm' => hms m' (by simp [hm'])) _ (forall_laneAt_setLane h ?_)
    rintro _ ⟨⟩
    exact hms m (by simp)

/-- A sum over the lanes after follow-ups were attached to lanes of their own: each changed it by the same amount. -/
theorem laneSum_attach (f : Lane → Nat) (c : Nat) (u : Update) (hf : ∀ r l, f (withFollowUp u r l) = f l + c)
    (ms : List (Nat × Lane × Rect)) :
    ∀ e, (∀ m ∈ ms, laneAt e m.1 = some m.2.1) → ms.Pairwise (fun x y => x.1 < y.1) →
      laneSum f (attach u ms e) = laneSum f e + c * ms.length := by
  induction ms with
  | nil => intro e _ _; simp [attach]
  | cons m ms ih =>
    intro e hat hp
    obtain ⟨hm, hp'⟩ := List.pairwise_cons.mp hp
    have hlane := hat m (by simp)
    have hset := laneSum_setLane f e (some (withFollowUp u m.2.2 m.2.1)) (laneAt_lt hlane)
    rw [hlane, laneValue_some, laneValue_some, hf] at hset
    rw [attach_cons, ih _ ?_ hp', List.length_cons, Nat.mul_succ]
    · omega
    · intro m' hm'
      rw [laneAt_setLane_other e _ (hm m' hm').ne]
      exact hat m' (by simp [hm'])

theorem attach_meets (u : Update) (q : Rect) (e e' : Engine) (h : e'.lanes = e.lanes) :
    ∀ m ∈ meetings q e, laneAt e' m.1 = some m.2.1 := fun _ hm => by
  rw [laneAt_of_lanes h]
  exact (mem_meetings.mp hm).1

/-- The lowest IDLE lane is one of the eight, and IDLE (R55). -/
theorem laneAt_idleLane {e : Engine} {i : Nat} (h : idleLane e = some i) : i < 8 ∧ laneAt e i = none := by
  obtain ⟨⟨j, o⟩, hfind, rfl⟩ := Option.map_eq_some_iff.mp h
  obtain rfl : o = none := by simpa using List.find?_some hfind
  have hmem := List.mem_of_find?_eq_some hfind
  simp only [laneList, List.mem_map, Prod.mk.injEq, Prod.exists] at hmem
  obtain ⟨o, k, hk, rfl, rfl⟩ := hmem
  have hget := List.mem_zipIdx_iff_getElem?.mp hk
  have hlt : k < 8 := by
    obtain ⟨hlt, _⟩ := List.getElem?_eq_some_iff.mp hget
    simpa using hlt
  refine ⟨hlt, ?_⟩
  simp [laneAt, hget]

/-! ### The waiting TURN-origin update removed (R28, R54) -/

/-- A lane without the TURN-origin follow-ups of other items. -/
def withoutTurn (keep : Option Nat) (l : Lane) : Lane :=
  { l with followUps := l.followUps.filter fun u => !otherTurn keep u }

theorem laneAt_removeTurn (keep : Option Nat) (e : Engine) (i : Nat) :
    laneAt (removeTurn keep e) i = (laneAt e i).map (withoutTurn keep) := laneAt_map _ rfl i

theorem laneSum_removeTurn (f : Lane → Nat) (keep : Option Nat) (e : Engine) :
    laneSum f (removeTurn keep e) = laneSum (fun l => f (withoutTurn keep l)) e := laneSum_map f _ rfl

end Sys2Proof.Machine
end

section
/-! PROOFS. The fourth invariant: the engine's collections and ghost counts stay within their bounds (chapters 3 and 4).
Before it, what a property has to survive to be kept by a frame boundary (`boundary_keeps`). -/

namespace Sys2Proof.Machine

/-! ### A frame boundary, step by step (R48 to R57) -/

theorem raiseDone_frame (u : Update) (o f : Nat) (m n : Option Nat) (s : Part) :
    raiseDone u o f m n s = { s with ports := (raiseDone u o f m n s).ports } := by
  unfold raiseDone
  split
  · split <;> rfl
  · rfl

/-- What a completed lane hands on: its tiles counted and its follow-ups released (R58, R77). -/
def handOver (l : Lane) (e : Engine) : Engine :=
  { e with tiles := completeTiles l.applied l.update.rect e.tiles, release := e.release ++ l.followUps }

theorem completeLane_engine (i : Nat) (l : Lane) (s : Part) :
    (completeLane i l s).engine = setLane i none (handOver l s.engine) := by
  simp only [completeLane, modifyEngine_engine]
  rw [raiseDone_frame]
  rfl

theorem activateTable_engine (s : Part) : (activateTable s).engine = s.engine := by
  rw [activateTable, modifyWave_engine, setSlot_engine, placeTable, setDram_engine]

theorem discard_engine (released : Bool) (u : Update) (s : Part) :
    (discard released u s).engine = dropHead released s.engine := by
  have hd : (raiseDone u 1 (flagBit 0 released) none none (modifyEngine (dropHead released) s)).engine
      = dropHead released s.engine := by
    rw [raiseDone_frame]
    rfl
  simp only [discard]
  split
  · exact hd
  · exact hd

theorem completeLane_store (i : Nat) (l : Lane) (s : Part) :
    (completeLane i l s).store
      = (modifySlot l.update.source (fun v => { v with showing := v.showing - 1 }) (showLane l s)).store := by
  simp only [completeLane, modifyEngine_store]
  rw [raiseDone_frame]
  rfl

theorem discard_store (released : Bool) (u : Update) (s : Part) : (discard released u s).store = s.store := by
  have hd : (raiseDone u 1 (flagBit 0 released) none none (modifyEngine (dropHead released) s)).store = s.store := by
    rw [raiseDone_frame]
    rfl
  simp only [discard]
  split
  · exact hd
  · exact hd

theorem activateTable_retained (s : Part) : (activateTable s).store.retained = s.store.retained := by
  rw [activateTable, modifyWave_store, setSlot_store, placeTable, setDram_store]

/-- The follow-ups of a covered or starting item, and the removal of the other TURN-origin updates (R54). -/
def attached (released : Bool) (u : Update) (ms : List (Nat × Lane × Rect)) (e : Engine) : Engine :=
  if u.origin = .turn && !ms.isEmpty then removeTurn (some u.serial) (attach u ms (dropHead released e))
  else attach u ms (dropHead released e)

/-- An item committed: it leaves its collection with its follow-ups attached, and takes an IDLE lane unless it is fully
covered or none is IDLE. -/
theorem commit_cases (released : Bool) (u : Update) (ms : List (Nat × Lane × Rect)) (covered : Bool) (s : Part) :
    commit released u ms covered s = modifyEngine (attached released u ms) s
      ∨ ∃ i, idleLane (attached released u ms s.engine) = some i ∧ commit released u ms covered s
        = modifySlot u.source (fun v => { v with showing := v.showing + 1 })
          (modifyEngine (fun e => setLane i (some (laneOf released u ms s)) (attached released u ms e)) s) := by
  have hattached : (if (u.origin = .turn && !ms.isEmpty) = true then
      modifyEngine (removeTurn (some u.serial)) (modifyEngine (fun e => attach u ms (dropHead released e)) s)
      else modifyEngine (fun e => attach u ms (dropHead released e)) s) = modifyEngine (attached released u ms) s := by
    unfold attached
    split <;> rfl
  simp only [commit]
  rw [hattached]
  split
  · exact .inl rfl
  · split
    · next i hi => exact .inr ⟨i, hi, rfl⟩
    · exact .inl rfl

theorem head_eq_some {e : Engine} {released : Bool} {u : Update} (h : head e = some (released, u)) :
    (released = true ∧ e.release = u :: e.release.tail)
      ∨ (released = false ∧ e.release = [] ∧ e.queue = u :: e.queue.tail) := by
  unfold head at h
  split at h
  · next hr =>
    cases h
    exact .inl ⟨rfl, by rw [hr]; rfl⟩
  · next hr =>
    split at h
    · next hq =>
      cases h
      exact .inr ⟨rfl, hr, by rw [hq]; rfl⟩
    · cases h

section

variable {R : Part → Prop}

/-- A lane that completes is the running lane of its index, whatever completed before it. -/
theorem completions_keeps (hlane : ∀ i l s, laneAt s.engine i = some l → R s → R (completeLane i l s)) (s : Part) (h : R s) :
    R (completions s) := by
  have hfold (ls : List (Nat × Lane)) : ∀ s, R s → (∀ x ∈ ls, laneAt s.engine x.1 = some x.2) →
      ls.Pairwise (fun x y => x.1 < y.1) →
      R (ls.foldl (fun s x => if x.2.frames ≤ x.2.index then completeLane x.1 x.2 s else s) s) := by
    induction ls with
    | nil => exact fun s h _ _ => h
    | cons x ls ih =>
      intro s h hat hp
      obtain ⟨hx, hp'⟩ := List.pairwise_cons.mp hp
      have hrest : ∀ y ∈ ls, laneAt s.engine y.1 = some y.2 := fun y hy => hat y (by simp [hy])
      rw [List.foldl_cons]
      split
      · refine ih _ (hlane _ _ _ (hat x (by simp)) h) (fun y hy => ?_) hp'
        rw [completeLane_engine, laneAt_setLane_other _ _ (hx y hy).ne]
        exact hrest y hy
      · exact ih s h hrest hp'
  exact hfold _ s h (fun x hx => mem_runningLanes.mp hx) (pairwise_runningLanes _)

theorem startItems_keeps (hout : ∀ o s, R s → R (modifyEngine (fun e => { e with outcome := o }) s))
    (hitem : ∀ b u s, head s.engine = some (b, u) → R s → R (consider b u s).1) (n : Nat) :
    ∀ s, R s → R (startItems n s) := by
  induction n with
  | zero => exact fun s h => h
  | succ n ih =>
    intro s h
    unfold startItems
    split
    · exact hout _ s h
    · next b u hu =>
      have hc := hitem b u s hu h
      split
      · next hx => exact hout _ _ (by rw [hx] at hc; exact hc)
      · next hx => exact ih _ (by rw [hx] at hc; exact hc)

/-- What a frame boundary is made of. -/
theorem boundary_keeps (hlane : ∀ i l s, laneAt s.engine i = some l → R s → R (completeLane i l s))
    (htable : ∀ s, anyLane s.engine = false → R s → R (activateTable s))
    (hout : ∀ o s, R s → R (modifyEngine (fun e => { e with outcome := o }) s))
    (hitem : ∀ b u s, head s.engine = some (b, u) → R s → R (consider b u s).1)
    (hdrive : ∀ codes s, R s → R (modifyEngine (fun e => { e with
      panel := codes, lanes := tableMap (Option.map fun l => { l with index := l.index + 1 }) e.lanes }) s))
    (s : Part) (h : R s) : R (boundary s) := by
  have hcompleted := completions_keeps hlane s h
  have hactive : R (activation (completions s)) := by
    unfold activation
    split
    · next ha =>
      simp only [Bool.and_eq_true, Bool.not_eq_true'] at ha
      exact htable _ ha.2 hcompleted
    · exact hcompleted
  refine hdrive _ _ ?_
  unfold startStep
  split
  · exact hout _ _ hactive
  · exact startItems_keeps hout hitem _ _ hactive

end

/-! ### The bounds -/

/-- The engine within its bounds (R28, R43, R46, R53, R76, R80). -/
structure EngineOk (e : Engine) : Prop where
  ordinary : ordinaryPlaces e ≤ 16
  power : originCount .power e ≤ 1
  turn : originCount .turn e ≤ 1
  pool : e.pool ≤ 32
  lanes : ∀ i l, laneAt e i = some l → l.followUps.length ≤ 4
  tiles : ∀ n ∈ e.tiles.toList, n ≤ 15
  limit_pos : 1 ≤ e.ghostLimit
  limit_le : e.ghostLimit ≤ 15

theorem engineBounded_iff (s : Part) : engineBounded s = true ↔ EngineOk s.engine := by
  simp only [engineBounded, Bool.and_eq_true, decide_eq_true_eq, List.all_eq_true, Prod.forall, mem_runningLanes]
  constructor
  · rintro ⟨⟨⟨⟨⟨⟨⟨ho, hp⟩, ht⟩, hpool⟩, hl⟩, htiles⟩, hlp⟩, hll⟩
    exact ⟨ho, hp, ht, hpool, hl, htiles, hlp, hll⟩
  · intro h
    exact ⟨⟨⟨⟨⟨⟨⟨h.ordinary, h.power⟩, h.turn⟩, h.pool⟩, h.lanes⟩, h.tiles⟩, h.limit_pos⟩, h.limit_le⟩

/-- How many follow-ups a lane holds. -/
def followUpCount (l : Lane) : Nat := l.followUps.length

theorem pool_eq (e : Engine) : e.pool = e.release.length + laneSum followUpCount e := rfl

theorem ordinaryPlaces_enqueue (u : Update) (e : Engine) :
    ordinaryPlaces (enqueue u e) = ordinaryPlaces e + if u.origin = .power then 0 else 1 := by
  by_cases h : u.origin = .power <;> simp [ordinaryPlaces, enqueue, List.filter_append, h]

theorem originCount_enqueue (o : FirstOrigin) (u : Update) (e : Engine) :
    originCount o (enqueue u e) = originCount o e + if u.origin = o then 1 else 0 := by
  by_cases h : u.origin = o <;> simp [originCount, enqueue, List.filter_append, h]

/-- The entries that are not TURN-origin, and the TURN-origin ones: together the ordinary ones. -/
theorem ordinaryPlaces_removeTurn (e : Engine) :
    ordinaryPlaces (removeTurn none e) + originCount .turn e = ordinaryPlaces e := by
  simp only [ordinaryPlaces, originCount, removeTurn, otherTurn]
  induction e.queue with
  | nil => rfl
  | cons u us ih =>
    cases ho : u.origin <;> simp [ho] at ih ⊢ <;> omega

theorem originCount_turn_removeTurn (e : Engine) : originCount .turn (removeTurn none e) = 0 := by
  simp [originCount, removeTurn, otherTurn, List.filter_filter]

/-- An absorbing entry keeps its origin and its source (R41). -/
theorem absorb_map {α : Type} (f : Update → α) (hf : ∀ (u : Update) b, f { u with notify := b } = f u) {u : Update} :
    ∀ {q q' : List Update} {t : Byte}, absorb u q = some (q', t) → q'.map f = q.map f := by
  intro q
  induction q with
  | nil => intro q' t h; cases h
  | cons e es ih =>
    intro q' t h
    unfold absorb at h
    split at h
    · cases h
      simp [hf]
    · obtain ⟨⟨q'', t'⟩, hx, h⟩ := Option.map_eq_some_iff.mp h
      obtain ⟨rfl, rfl⟩ := Prod.mk.inj h
      simp [ih hx]

/-- A count of entries by their origins. -/
theorem length_filter_origin (p : FirstOrigin → Bool) (q : List Update) :
    (q.filter fun u => p u.origin).length = ((q.map Update.origin).filter p).length := by
  rw [List.filter_map, List.length_map]
  rfl

namespace EngineOk

variable {e : Engine}

/-- A queue cut. -/
theorem subqueue (h : EngineOk e) {q : List Update} (hq : q.Sublist e.queue) : EngineOk { e with queue := q } :=
  { h with
    ordinary := (hq.filter _).length_le.trans h.ordinary
    power := (hq.filter _).length_le.trans h.power
    turn := (hq.filter _).length_le.trans h.turn }

/-- A queue with the same origins. -/
theorem same_origins (h : EngineOk e) {q : List Update} (hq : q.map Update.origin = e.queue.map Update.origin) :
    EngineOk { e with queue := q } := by
  have hlen (p : FirstOrigin → Bool) : (q.filter fun u => p u.origin).length = (e.queue.filter fun u => p u.origin).length := by
    rw [length_filter_origin, length_filter_origin, hq]
  exact { h with
    ordinary := (hlen fun o => decide (o ≠ .power)).le.trans h.ordinary
    power := (hlen fun o => decide (o = .power)).le.trans h.power
    turn := (hlen fun o => decide (o = .turn)).le.trans h.turn }

theorem with_outcome (h : EngineOk e) (o : StartOutcome) : EngineOk { e with outcome := o } :=
  ⟨h.ordinary, h.power, h.turn, h.pool, h.lanes, h.tiles, h.limit_pos, h.limit_le⟩

theorem dropHead (h : EngineOk e) (released : Bool) : EngineOk (dropHead released e) := by
  cases released with
  | false => exact h.subqueue (List.tail_sublist _)
  | true =>
    refine { h with pool := ?_ }
    have := h.pool
    rw [pool_eq] at this ⊢
    refine Nat.le_trans ?_ this
    exact Nat.add_le_add ((List.tail_sublist _).length_le) le_rfl

/-- The same collections and counts, with shorter follow-up lists. -/
theorem removeTurn (h : EngineOk e) (keep : Option Nat) : EngineOk (removeTurn keep e) := by
  have hshort (l : Lane) : followUpCount (withoutTurn keep l) ≤ followUpCount l := List.length_filter_le _ _
  refine { h.subqueue (q := e.queue.filter fun u => !otherTurn keep u) List.filter_sublist with pool := ?_, lanes := ?_ }
  · have := h.pool
    rw [pool_eq] at this ⊢
    rw [laneSum_removeTurn]
    exact (Nat.add_le_add (List.length_filter_le _ _) (laneSum_le e hshort)).trans this
  · intro i l hl
    rw [laneAt_removeTurn, Option.map_eq_some_iff] at hl
    obtain ⟨l', hl', rfl⟩ := hl
    exact (hshort l').trans (h.lanes i l' hl')

/-- An entry joined to the queue, where its origin has room. -/
theorem enqueue (h : EngineOk e) (u : Update) (hroom : u.origin ≠ .power → ordinaryPlaces e < 16)
    (hpower : u.origin = .power → originCount .power e = 0) (hturn : u.origin = .turn → originCount .turn e = 0) :
    EngineOk (enqueue u e) := by
  refine { h with ordinary := ?_, power := ?_, turn := ?_ }
  · rw [ordinaryPlaces_enqueue]
    split
    · exact h.ordinary
    · next ho => exact hroom ho
  · rw [originCount_enqueue]
    split
    · next ho => rw [hpower ho]
    · exact h.power
  · rw [originCount_enqueue]
    split
    · next ho => rw [hturn ho]
    · exact h.turn

theorem placePower (h : EngineOk e) (i : Nat) : EngineOk (placePower i e) := by
  refine (h.subqueue (q := e.queue.filter fun u => decide (u.origin ≠ .power)) List.filter_sublist).enqueue _
    (fun ho => absurd rfl ho) (fun _ => ?_) (fun ho => by cases ho)
  simp [originCount, List.filter_filter]

theorem placeTurn (h : EngineOk e) (hroom : roomForTurn e = true) (i : Nat) (m : Mode) : EngineOk (placeTurn i m e) := by
  refine (h.removeTurn none).enqueue _ (fun _ => ?_) (fun ho => by cases ho) (fun _ => originCount_turn_removeTurn e)
  have hsum := ordinaryPlaces_removeTurn e
  simp only [roomForTurn, Bool.or_eq_true, decide_eq_true_eq, List.any_eq_true] at hroom
  rcases hroom with hlt | ⟨u, hu, ho⟩
  · omega
  · have hpos : 0 < originCount .turn e :=
      List.length_pos_of_mem (List.mem_filter.mpr ⟨hu, by simpa using ho⟩)
    have := h.ordinary
    omega

theorem map_tiles (h : EngineOk e) (q : Rect) (f : Bool → Nat → Nat) (hf : ∀ b n, n ≤ 15 → f b n ≤ 15) :
    ∀ n ∈ (changeTiles q f e.tiles).toList, n ≤ 15 := by
  intro n hn
  simp only [changeTiles, tableMapIdx_toList, List.mem_mapIdx] at hn
  obtain ⟨i, hi, rfl⟩ := hn
  have hle := h.tiles _ (List.getElem_mem hi)
  split
  · exact hf _ _ hle
  · exact hle

/-- A completed lane hands its follow-ups to the release list (R58), and its tiles count to 15 at most (R77). -/
theorem complete (h : EngineOk e) {i : Nat} {l : Lane} (hl : laneAt e i = some l) :
    EngineOk (setLane i none (handOver l e)) := by
  refine { h with pool := ?_, lanes := ?_, tiles := ?_ }
  · have hpool := h.pool
    have hset := laneSum_setLane followUpCount (handOver l e) none (laneAt_lt hl)
    rw [laneAt_of_lanes (e' := handOver l e) (e := e) rfl, laneSum_of_lanes (e' := handOver l e) (e := e) rfl, hl,
      laneValue_some, laneValue_none] at hset
    rw [pool_eq] at hpool ⊢
    change (e.release ++ l.followUps).length + _ ≤ 32
    rw [List.length_append]
    unfold followUpCount at *
    omega
  · exact forall_laneAt_setLane (e := handOver l e) (Q := fun _ l => l.followUps.length ≤ 4) h.lanes (by simp)
  · exact h.map_tiles _ _ fun b n _ => by split <;> omega

/-- The follow-ups of an item, attached within the bounds of the pool and of each lane (R46, R53, R54). -/
theorem attached (h : EngineOk e) {released : Bool} {u : Update} (hhead : head e = some (released, u))
    (hlanes : ∀ m ∈ meetings u.rect e, m.2.1.followUps.length < 4)
    (hpool : e.pool - (if released then 1 else 0) + (meetings u.rect e).length ≤ 32) :
    EngineOk (attached released u (meetings u.rect e) e) := by
  have hd := h.dropHead released
  have hdropLanes : (Machine.dropHead released e).lanes = e.lanes := by cases released <;> rfl
  have hattach : EngineOk (attach u (meetings u.rect e) (Machine.dropHead released e)) := by
    rw [attach_frame]
    refine { hd with pool := ?_, lanes := ?_ }
    · have hsum := laneSum_attach followUpCount 1 u (fun r l => by simp [followUpCount, withFollowUp]) (meetings u.rect e)
        (Machine.dropHead released e) (attach_meets u _ _ _ hdropLanes) (pairwise_meetings _ _)
      rw [laneSum_of_lanes hdropLanes] at hsum
      rw [pool_eq] at hpool ⊢
      change (Machine.dropHead released e).release.length
        + laneSum followUpCount (attach u (meetings u.rect e) (Machine.dropHead released e)) ≤ 32
      rw [hsum]
      rcases head_eq_some hhead with ⟨rfl, hr⟩ | ⟨rfl, hr, _⟩
      · have hlen : e.release.length = e.release.tail.length + 1 := by
          conv_lhs => rw [hr]
          rfl
        simp only [Machine.dropHead, if_true] at hpool ⊢
        omega
      · simp only [Machine.dropHead, Bool.false_eq_true, if_false] at hpool ⊢
        omega
    · refine forall_laneAt_attach (Q := fun _ l => l.followUps.length ≤ 4) (fun m hm => ?_) _ hd.lanes
      have := hlanes m hm
      simp only [withFollowUp, List.length_append, List.length_singleton]
      omega
  unfold Machine.attached
  split
  · exact hattach.removeTurn _
  · exact hattach

/-- An item that starts takes an IDLE lane, without follow-ups (R55). -/
theorem start (h : EngineOk e) {i : Nat} {l : Lane} (hi : idleLane e = some i) (hl : l.followUps = []) :
    EngineOk (setLane i (some l) e) := by
  obtain ⟨hlt, hnone⟩ := laneAt_idleLane hi
  refine { h with pool := ?_, lanes := ?_ }
  · have hset := laneSum_setLane followUpCount e (some l) hlt
    rw [hnone, laneValue_none, laneValue_some, followUpCount, hl, List.length_nil] at hset
    have hpool := h.pool
    rw [pool_eq] at hpool ⊢
    change e.release.length + _ ≤ 32
    omega
  · refine forall_laneAt_setLane (Q := fun _ l => l.followUps.length ≤ 4) h.lanes ?_
    rintro _ ⟨⟩
    simp [hl]

end EngineOk

/-! ### The engine of the part -/

/-- The engine of a part, within its bounds. -/
def EngineRight (s : Part) : Prop := EngineOk s.engine

namespace EngineRight

variable {s t : Part}

theorem congr (h : EngineRight s) (ht : t.engine = s.engine) : EngineRight t := by
  unfold EngineRight
  rw [ht]
  exact h

theorem consider (h : EngineRight s) {b : Bool} {u : Update} (hhead : head s.engine = some (b, u)) :
    EngineRight (consider b u s).1 := by
  rcases consider_cases b u s with ⟨_, hc⟩ | ⟨_, hc⟩ | ⟨_, hlanes, hpool, covered, _, hc⟩ <;> rw [hc]
  · unfold EngineRight
    rw [discard_engine]
    exact EngineOk.dropHead h b
  · exact h
  · have ha := EngineOk.attached h hhead hlanes hpool
    rcases commit_cases b u (meetings u.rect s.engine) covered s with hs | ⟨i, hi, hs⟩ <;> rw [hs]
    · exact ha
    · exact ha.start hi rfl

theorem boundary (h : EngineRight s) : EngineRight (boundary s) := by
  refine boundary_keeps (R := EngineRight) ?_ (fun s _ h => h.congr (activateTable_engine s)) (fun _ _ h => EngineOk.with_outcome h _) ?_ ?_ s h
  · intro i l s hl h
    unfold EngineRight
    rw [completeLane_engine]
    exact EngineOk.complete h hl
  · exact fun _ _ _ hhead h => h.consider hhead
  · intro codes s h
    have hlanes : (modifyEngine (fun e => { e with
        panel := codes, lanes := tableMap (Option.map fun l => { l with index := l.index + 1 }) e.lanes }) s).engine.lanes
        = tableMap (Option.map fun l => { l with index := l.index + 1 }) s.engine.lanes := rfl
    refine { h with pool := ?_, lanes := ?_ }
    · rw [pool_eq, laneSum_map _ _ hlanes]
      exact EngineOk.pool h
    · intro i l hl
      rw [laneAt_map _ hlanes, Option.map_eq_some_iff] at hl
      obtain ⟨l', hl', rfl⟩ := hl
      exact EngineOk.lanes h i l' hl'

theorem renderAhead (h : EngineRight s) (d : Int) : EngineRight (renderAhead d s) := by
  simp only [Machine.renderAhead]
  split <;> exact h

theorem submitTurn (h : EngineRight s) (hroom : roomForTurn s.engine = true) : EngineRight (submitTurn s) := by
  unfold Machine.submitTurn
  split
  · exact EngineOk.placeTurn h hroom _ _
  · exact h

theorem turnPress (h : EngineRight s) (d : Int) : EngineRight (turnPress d s) := by
  unfold Machine.turnPress turn readyTurn
  split
  · split
    · exact h
    · split
      · exact h
      · split
        · exact h
        · next hroom =>
          exact (submitTurn (s := modifyTurn (moveCursor d) s) h (by simpa using hroom)).renderAhead d
  · exact h

/-- A service steps the cursor only (R31, step 3). -/
theorem serveSteps_engine (d : Int) (n : Nat) : ∀ s, (serveSteps d n s).engine = s.engine := by
  induction n with
  | zero => exact fun s => rfl
  | succ n ih =>
    intro s
    unfold serveSteps
    split
    · rfl
    · rw [ih]
      rfl

theorem backlogService (h : EngineRight s) : EngineRight (backlogService s) := by
  simp only [Machine.backlogService]
  split
  · exact h
  · split
    · exact h
    · split
      · exact h
      · split
        · exact h
        · next hroom =>
          have hserved := h.congr (serveSteps_engine s.turn.backlog.sign s.turn.backlog.natAbs s)
          have hsubmitted := (hserved.submitTurn (by rw [serveSteps_engine]; simpa using hroom)).renderAhead
            s.turn.backlog.sign
          unfold reportRemainder
          split
          · exact hsubmitted
          · split <;> exact hsubmitted

theorem wakeRestore (h : EngineRight s) : EngineRight (wakeRestore s) := by
  unfold Machine.wakeRestore
  split
  · exact h
  · split
    · exact h
    · split
      · exact h
      · split
        · exact h
        · exact EngineOk.placePower h _

theorem of_spoolWork (h : EngineRight s) (hw : SpoolWork s t) : EngineRight t := h.congr (by rw [hw.1])

theorem leaveHold (h : EngineRight s) : EngineRight (leaveHold s) := by
  rcases leaveHold_cases s with hs | ⟨_, hs⟩
  · rw [hs]; exact h
  · exact of_spoolWork (s := sampleTemperature (restoreRefresh (setPowerState .settling s))) h hs

theorem enterSettling (h : EngineRight s) (b : Bool) : EngineRight (enterSettling b s) := by
  have hs : EngineRight (settled s) := EngineOk.removeTurn h none
  rcases enterSettling_cases b s with he | he <;> rw [he]
  · exact hs
  · exact EngineOk.placePower hs _

/-- The abort empties the collections and puts the tiles of the aborted lanes at 15 (R60). -/
theorem abortEngine (h : EngineRight s) : EngineRight (abortEngine s) := by
  have htiles (ls : List (Nat × Lane)) : ∀ t : Vector Nat 192, (∀ n ∈ t.toList, n ≤ 15) →
      ∀ n ∈ (ls.foldl (fun t x => changeTiles x.2.update.rect (fun _ _ => 15) t) t).toList, n ≤ 15 := by
    induction ls with
    | nil => exact fun t h => h
    | cons x ls ih =>
      intro t ht
      exact ih _ (EngineOk.map_tiles (e := { s.engine with tiles := t }) { h with tiles := ht } _ _ fun _ _ _ => le_rfl)
  have hnone := laneAt_replicate_none (e := (Machine.abortEngine s).engine) rfl
  refine ⟨Nat.zero_le _, Nat.zero_le _, Nat.zero_le _, ?_, ?_, htiles _ _ (EngineOk.tiles (e := s.engine) h), EngineOk.limit_pos (e := s.engine) h,
    EngineOk.limit_le (e := s.engine) h⟩
  · rw [pool_eq, laneSum_none _ hnone]
    exact Nat.zero_le _
  · intro i l hl
    rw [hnone i] at hl
    cases hl

end EngineRight

theorem engineRight_kept : KeptBlocks EngineRight where
  supply _ _ h := h
  pins _ _ h := h
  debounce _ _ h := h
  rights _ _ h := h
  unit _ _ _ _ h := h
  power _ _ _ h := h
  wave _ _ h := h
  writes hw h := h.congr (by rw [hw.1])
  array _ _ _ _ h := h
  select p s h := by
    rcases selectPort_cases p s with hs | hs | hs <;> rw [hs]
    · exact h
    · exact h
    · exact EngineRight.leaveHold (s := modifyPort p _ s) h
  sample s h := by
    rw [takeSample_frame]
    exact h
  boot _ _ _ h := h
  reset _ _ _ := (engineBounded_iff { State.reset.part with engine := defaultEngine }).mp (by decide)
  forcedOff s h := h.abortEngine.congr (by rw [beginForcedOff_frame])
  off s _ := { (engineBounded_iff { State.reset.part with engine := defaultEngine }).mp (by decide) with }
  wakes s h := by
    rcases wake_cases s with hs | ⟨_, _, hs⟩ <;> rw [hs]
    · exact h
    · exact EngineRight.wakeRestore (s := recomputeLight (setPowerState .active (setAsleep false (leaveHold s)))) h.leaveHold
  settling b s _ h := h.enterSettling b
  offPending _ _ h := h
  hold s hq h := by
    rw [enterHold, if_pos hq]
    exact h
  press d s _ _ h := h.turnPress d
  ramp _ h := h
  frame s _ h := h.boundary
  slotWrite _ _ _ _ _ _ _ _ h := h
  post i key s _ _ _ _ h :=
    EngineRight.backlogService (s := setSlot i { slot s i with state := .ready, key := some key } s) h
  discard _ _ _ _ _ h := h
  retain _ _ _ _ _ h := h
  turnList _ _ _ _ _ _ h := h
  turnSettings _ _ _ _ _ _ _ h := h
  absorbed _ _ _ _ _ _ habs h := EngineOk.same_origins h (absorb_map Update.origin (fun _ _ => rfl) habs)
  enqueued u p s _ ho _ hroom h :=
    EngineOk.enqueue h u (fun _ => hroom) (fun hp => by rw [ho] at hp; cases hp) (fun ht => by rw [ho] at ht; cases ht)
  cancel p s _ h := EngineOk.subqueue h List.filter_sublist
  ghostLimit l s _ hpos hle h := { h with limit_pos := hpos, limit_le := hle }
  ghosts s _ h := by
    refine { h with tiles := fun n hn => ?_ }
    simp only [clearGhosts, modifyEngine_engine, Vector.toList_replicate] at hn
    exact (List.eq_of_mem_replicate hn).le
  light _ _ _ _ _ h := h
  resistance _ _ _ h := h
  incoming _ _ _ h := h
  sleepImage _ _ _ _ h := h

theorem engineRight_bootSequence (ecc : List (Nat × List Sector)) (s : Part) (h : EngineRight s) :
    EngineRight (bootSequence ecc s) := by
  obtain ⟨t, ht, hb⟩ := bootSequence_frame ecc s
  refine EngineRight.of_spoolWork (h.congr ?_) hb
  rw [ht]

/-- Settles O56: by the step lemma for `EngineRight`. -/
theorem engineStaysBounded : Obligations.EngineStaysBounded := fun _ _ hs hst =>
  (engineBounded_iff _).mpr
    (engineRight_kept.kept.step (fun ecc p _ h => engineRight_bootSequence ecc p h) ((engineBounded_iff _).mp hs) hst)

end Sys2Proof.Machine
end

section
/-! PROOFS. The fifth invariant: HOLD keeps its pages in retained segments, and answers no transaction (sections 1.7 and
7.2). In the other power states it says only that nothing is marked retained. -/

namespace Sys2Proof.Machine

/-- HOLD with its lines at rest and every page in a retained segment; elsewhere nothing marked retained (R17, R18). -/
structure HoldRight (s : Part) : Prop where
  rests : s.power.state = .hold → ∀ p, lineRests (port s p) = true
  kept : s.power.state = .hold → ∃ ks, s.store.retained = some ks ∧
    ∀ i, i < Config.pageSlots → holdsPage (slot s i) = true → i / 4 ∈ ks
  outside : s.power.state ≠ .hold → s.store.retained = none

theorem holdLegal_iff (s : Part) : holdLegal s = true ↔ HoldRight s := by
  by_cases hs : s.power.state = .hold
  · rw [holdLegal, if_pos hs]
    cases hr : s.store.retained with
    | none =>
      refine ⟨fun h => by simp at h, fun h => ?_⟩
      obtain ⟨ks, hks, _⟩ := h.kept hs
      rw [hr] at hks
      cases hks
    | some ks =>
      simp only [Bool.and_eq_true, List.all_eq_true, List.mem_range, Bool.or_eq_true, Bool.not_eq_true',
        decide_eq_true_eq]
      constructor
      · rintro ⟨⟨ha, hb⟩, hpages⟩
        refine ⟨fun _ p => ?_, fun _ => ⟨ks, hr, fun i hi hpage => ?_⟩, fun hn => absurd hs hn⟩
        · cases p
          · exact ha
          · exact hb
        · rcases hpages i hi with hno | hin
          · rw [hpage] at hno
            cases hno
          · exact hin
      · intro h
        obtain ⟨ks', hks, hpages⟩ := h.kept hs
        obtain rfl := Option.some.inj (hr.symm.trans hks)
        refine ⟨⟨h.rests hs .A, h.rests hs .B⟩, fun i hi => ?_⟩
        cases hp : holdsPage (slot s i)
        · exact .inl rfl
        · exact .inr (hpages i hi hp)
  · rw [holdLegal, if_neg hs, Option.isNone_iff_eq_none]
    exact ⟨fun h => ⟨fun hh => absurd hh hs, fun hh => absurd hh hs, fun _ => h⟩, fun h => h.outside hs⟩

namespace HoldRight

variable {s t : Part}

/-- In HOLD the lines and the page store matter, elsewhere only the retained mark. -/
theorem congr (h : HoldRight s) (hp : t.power.state = s.power.state) (hs : t.store = s.store)
    (hl : s.power.state = .hold → ∀ p, lineRests (port s p) = true → lineRests (port t p) = true) : HoldRight t := by
  refine ⟨fun hh p => ?_, fun hh => ?_, fun hh => ?_⟩
  · exact hl (hp ▸ hh) p (h.rests (hp ▸ hh) p)
  · obtain ⟨ks, hks, hpages⟩ := h.kept (hp ▸ hh)
    refine ⟨ks, by rw [hs]; exact hks, fun i hi hpage => hpages i hi ?_⟩
    rw [slot, hs] at hpage
    exact hpage
  · rw [hs]
    exact h.outside (hp ▸ hh)

theorem sameLines (h : HoldRight s) (hp : t.power.state = s.power.state) (hs : t.store = s.store) (hl : SameLines s t) :
    HoldRight t :=
  h.congr hp hs fun _ p hrests => by
    rw [lineRests, hl p]
    exact hrests

/-- Outside HOLD only the retained mark matters. -/
theorem of_outside (h : HoldRight s) (hs : s.power.state ≠ .hold) (ht : t.power.state ≠ .hold)
    (hr : t.store.retained = s.store.retained) : HoldRight t :=
  ⟨fun hh => absurd hh ht, fun hh => absurd hh ht, fun _ => hr.trans (h.outside hs)⟩

theorem of_spoolWork (h : HoldRight s) (hw : SpoolWork s t) : HoldRight t :=
  h.sameLines (by rw [hw.1]) (by rw [hw.1]) hw.2.2.2

/-- Outside HOLD with nothing retained. -/
theorem of_none (hs : t.power.state ≠ .hold) (hr : t.store.retained = none) : HoldRight t :=
  ⟨fun hh => absurd hh hs, fun hh => absurd hh hs, fun _ => hr⟩

/-- A transaction in progress that the part answers excludes HOLD. -/
theorem not_hold (h : HoldRight s) (hin : InHand s) : s.power.state ≠ .hold := by
  intro hh
  obtain ⟨p, hp⟩ := hin
  have hrests := h.rests hh p
  rcases hp with hp | hp <;> simp [lineRests, hp] at hrests

/-- A change that a transaction in progress makes: the retained mark stays. -/
theorem inHand (h : HoldRight s) (hin : InHand s) (hp : t.power.state = s.power.state)
    (hr : t.store.retained = s.store.retained) : HoldRight t :=
  h.of_outside (h.not_hold hin) (hp ▸ h.not_hold hin) hr

/-- Leaving HOLD restores the refresh (R18), whatever stands on the lines. -/
theorem leaveHold (h : s.power.state = .hold ∨ HoldRight s) : HoldRight (leaveHold s) := by
  rcases leaveHold_cases s with hs | ⟨hh, hs⟩
  · have hne : s.power.state ≠ .hold := fun hh => by
      have hstate := congrArg (fun t => t.power.state) hs
      rw [Machine.leaveHold, if_pos hh] at hstate
      have hset := (spoolWork_thenArbitrate (sampleTemperature (restoreRefresh (setPowerState .settling s))) s
        fun s => sampleTemperature (restoreRefresh (setPowerState .settling s))).mpr (.refl _)
      rw [hset.1] at hstate
      rw [hh] at hstate
      cases hstate
    rw [hs]
    exact h.resolve_left hne
  · have hsettled : (sampleTemperature (restoreRefresh (setPowerState .settling s))).power.state ≠ .hold := by
      have hstate : (sampleTemperature (restoreRefresh (setPowerState .settling s))).power.state = .settling := rfl
      rw [hstate]
      simp
    exact of_spoolWork (of_none hsettled rfl) hs

theorem leaveHold_state (s : Part) : (Machine.leaveHold s).power.state ≠ .hold := by
  by_cases hh : s.power.state = .hold
  · have hset := (spoolWork_thenArbitrate (sampleTemperature (restoreRefresh (setPowerState .settling s))) s
      fun s => sampleTemperature (restoreRefresh (setPowerState .settling s))).mpr (.refl _)
    rw [Machine.leaveHold, if_pos hh, hset.1]
    have hstate : (sampleTemperature (restoreRefresh (setPowerState .settling s))).power.state = .settling := rfl
    rw [hstate]
    simp
  · rw [Machine.leaveHold, if_neg hh]
    exact hh

theorem enterSettling (h : HoldRight s) (hs : s.power.state ≠ .hold) (b : Bool) : HoldRight (enterSettling b s) := by
  have hstate : (settled s).power.state ≠ .hold := by
    have : (settled s).power.state = .settling := rfl
    simp [this]
  rcases enterSettling_cases b s with he | he <;> rw [he]
  · exact h.of_outside hs hstate rfl
  · exact h.of_outside hs hstate rfl

end HoldRight

/-- A slot of a segment that is not retained holds no page (R17). -/
theorem holdsPage_dropSlot (v : Slot) : holdsPage (dropSlot v) = false := by
  unfold dropSlot
  split
  · rfl
  · next h => simpa using h

theorem slot_computeRetention (s : Part) (i : Nat) (hi : i < 32) :
    slot (computeRetention s) i = if i / 4 ∈ retainedSegments s then slot s i else dropSlot (slot s i) := by
  have hlen : i < s.store.slots.toList.length := by simpa using hi
  simp only [slot, computeRetention, tableGet, tableMapIdx_toList, List.getD, List.getElem?_mapIdx,
    List.getElem?_eq_getElem hlen, Option.map_some, Option.getD_some]

theorem lineRests_of_deselected {u : PortUnit} (h : u.line = .deselected) : lineRests u = true := by
  simp [lineRests, h]

theorem lineRests_discardLine (u : PortUnit) : lineRests (discardLine u) = true := by
  unfold discardLine lineRests
  dsimp only
  split <;> rfl

/-- A frame boundary marks nothing (R48). -/
theorem boundary_retained (s : Part) : (boundary s).store.retained = s.store.retained := by
  refine boundary_keeps (R := fun t => t.store.retained = s.store.retained) (fun i l t _ h => ?_) (fun t _ h => ?_)
    (fun _ _ h => h) (fun b u t _ h => ?_) (fun _ _ h => h) s rfl
  · rw [completeLane_store]
    exact h
  · rw [activateTable_retained]
    exact h
  · rcases consider_cases b u t with ⟨_, hc⟩ | ⟨_, hc⟩ | ⟨_, _, _, covered, _, hc⟩ <;> rw [hc]
    · rw [discard_store]
      exact h
    · exact h
    · rcases commit_cases b u (meetings u.rect t.engine) covered t with hs | ⟨i, _, hs⟩ <;> rw [hs] <;> exact h

theorem holdRight_kept : KeptBlocks HoldRight where
  supply _ _ h := h.congr rfl rfl fun _ _ hl => hl
  pins _ _ h := h.congr rfl rfl fun _ _ hl => hl
  debounce _ _ h := h.congr rfl rfl fun _ _ hl => hl
  rights _ _ h := h.congr rfl rfl fun _ _ hl => hl
  unit p f hf s h := h.congr rfl rfl fun _ q hl => by
    rcases eq_or_ne q p with rfl | hne
    · have hport : port (modifyPort q f s) q = f (port s q) := by simp [port, modifyPort]
      rw [hport]
      rcases hf (port s q) with he | he
      · rw [lineRests, he]
        exact hl
      · exact lineRests_of_deselected he
    · have hport : port (modifyPort p f s) q = port s q := by
        cases p <;> cases q <;> first | rfl | exact absurd rfl hne
      rw [hport]
      exact hl
  power f hf s h := h.congr (hf _).1 rfl fun _ _ hl => hl
  wave _ _ h := h.congr rfl rfl fun _ _ hl => hl
  writes hw h := h.sameLines (by rw [hw.1]) (by rw [hw.1]) hw.2.2.2
  array _ _ _ _ h := h.congr rfl rfl fun _ _ hl => hl
  select p s h := by
    rcases selectPort_cases p s with hs | hs | hs <;> rw [hs]
    · exact h
    · refine h.congr rfl rfl fun _ q hl => ?_
      cases p <;> cases q <;> first | exact hl | rfl
    · by_cases hh : s.power.state = .hold
      · exact HoldRight.leaveHold (.inl hh)
      · exact HoldRight.leaveHold (.inr (h.of_outside hh hh rfl))
  sample s h := h.sameLines (by rw [takeSample_power]) (by rw [takeSample_frame]) (sameLines_takeSample s)
  boot _ s hs h := h.of_outside (by simp [hs]) (fun hh => by cases hh) rfl
  reset _ _ _ := .of_none (fun hh => by cases hh) rfl
  forcedOff s h := by
    refine ⟨fun hh p => ?_, fun hh => ?_, fun hh => ?_⟩
    · have hlines : SameLines (dropFlashQueue (modifyPorts discardLine (modifyLight darkLight (abortEngine s))))
          (beginForcedOff s) := (sameLines_dropRequest .A _).trans (sameLines_dropRequest .B _)
      rw [lineRests, hlines p]
      cases p <;> exact lineRests_discardLine _
    · rw [beginForcedOff_frame] at hh ⊢
      obtain ⟨ks, hks, hpages⟩ := h.kept hh
      refine ⟨ks, hks, fun i hi hpage => hpages i hi ?_⟩
      have hslot : slot (abortEngine s) i = { slot s i with showing := 0 } :=
        tableGet_tableMap _ _ _ _ (by simp [Config.pageSlots] at hi; omega)
      have hpage' : holdsPage (slot (abortEngine s) i) = true := hpage
      rw [hslot] at hpage'
      exact hpage'
    · rw [beginForcedOff_frame] at hh ⊢
      exact h.outside hh
  off _ _ := .of_none (fun hh => by cases hh) rfl
  wakes s h := by
    rcases wake_cases s with hs | ⟨_, _, hs⟩ <;> rw [hs]
    · exact h
    · have hl := HoldRight.leaveHold (.inr h)
      have ht : TurnSide (recomputeLight (setPowerState .active (setAsleep false (leaveHold s))))
          (wakeRestore (recomputeLight (setPowerState .active (setAsleep false (leaveHold s))))) := by simp [TurnSide.refl]
      refine hl.of_outside (HoldRight.leaveHold_state s) ?_ ?_
      · rw [ht]
        exact fun hh => by cases hh
      · rw [ht]
        rfl
  settling b s hs h := h.enterSettling (by simp [hs]) b
  offPending _ _ h := h.congr rfl rfl fun _ _ hl => hl
  hold s hq h := by
    rw [enterHold, if_pos hq]
    simp only [quiet, Bool.and_eq_true] at hq
    obtain ⟨_, hports⟩ := hq
    simp only [portsQuiet, Bool.and_eq_true, decide_eq_true_eq] at hports
    refine ⟨fun _ p => ?_, fun _ => ⟨retainedSegments s, rfl, fun i hi hpage => ?_⟩, fun hh => absurd rfl hh⟩
    · cases p
      · exact lineRests_of_deselected hports.1
      · exact lineRests_of_deselected hports.2
    · by_contra hno
      have hslot := slot_computeRetention s i (by simp [Config.pageSlots] at hi; omega)
      rw [if_neg hno] at hslot
      have hpage' : holdsPage (slot (computeRetention s) i) = true := hpage
      rw [hslot, holdsPage_dropSlot] at hpage'
      cases hpage'
  press d s _ ha h := by
    have ht : TurnSide s (turnPress d s) := by simp [TurnSide.refl]
    have hp : (turnPress d s).power.state = .active := by rw [ht]; exact ha
    exact h.of_outside (by simp [ha]) (by simp [hp]) (by rw [ht])
  ramp _ h := h.congr rfl rfl fun _ _ hl => hl
  frame s hb h := by
    have hs : s.power.state ≠ .hold := by
      intro hh
      simp [boundariesRun, hh] at hb
    have hst : (boundary s).power.state = s.power.state := by rw [displaySide_boundary s]
    exact h.of_outside hs (hst ▸ hs) (boundary_retained s)
  slotWrite _ _ _ _ _ hin _ _ h := h.inHand hin rfl rfl
  post i key s hin _ _ _ h := by
    have ht : TurnSide (setSlot i { slot s i with state := .ready, key := some key } s)
        (backlogService (setSlot i { slot s i with state := .ready, key := some key } s)) := by simp [TurnSide.refl]
    refine h.inHand hin ?_ ?_ <;> rw [ht] <;> rfl
  discard _ _ hin _ _ h := h.inHand hin rfl rfl
  retain _ _ _ hin _ h := h.inHand hin rfl rfl
  turnList _ _ _ _ hin _ h := h.inHand hin rfl rfl
  turnSettings _ _ _ hin _ _ _ h := h.inHand hin rfl rfl
  absorbed _ _ _ _ hin _ _ h := h.inHand hin rfl rfl
  enqueued _ _ _ hin _ _ _ h := h.inHand hin rfl rfl
  cancel _ _ hin h := h.inHand hin rfl rfl
  ghostLimit _ _ hin _ _ h := h.inHand hin rfl rfl
  ghosts _ hin h := h.inHand hin rfl rfl
  light _ _ _ _ hin h := h.inHand hin rfl rfl
  resistance _ _ hin h := h.inHand hin rfl rfl
  incoming file s hin h := h.inHand hin rfl rfl
  sleepImage image s hin _ h := h.inHand hin rfl rfl

/-- BOOT leaves nothing marked retained. -/
theorem holdRight_bootSequence (ecc : List (Nat × List Sector)) (s : Part) (hs : s.power.state = .boot) (h : HoldRight s) :
    HoldRight (bootSequence ecc s) := by
  obtain ⟨t, ht, hb⟩ := bootSequence_frame ecc s
  refine HoldRight.of_spoolWork (h.of_outside (by simp [hs]) ?_ ?_) hb
  · rw [ht]
    exact fun hh => by cases hh
  · rw [ht]
    exact (bootImages_slots ecc s).1

/-- Settles O58: by the step lemma for `HoldRight`. -/
theorem holdKeepsItsPages : Obligations.HoldKeepsItsPages := fun _ _ hs hst =>
  (holdLegal_iff _).mpr
    (holdRight_kept.kept.step (fun ecc p hp h => holdRight_bootSequence ecc p hp h) ((holdLegal_iff _).mp hs) hst)

end Sys2Proof.Machine
end

section
/-! PROOFS. The sixth invariant: the slot table and its showing counts stay legal (chapter 1), with what it rests on: the
sources that updates name, and no lane outside the states that drive the panel. -/

namespace Sys2Proof.Machine

/-! ### The sources of updates -/

/-- Every update of the engine names a slot that it may (R5, R39). -/
structure SourcesOk (e : Engine) : Prop where
  queue : ∀ u ∈ e.queue, sourceLegal u.source = true
  release : ∀ u ∈ e.release, sourceLegal u.source = true
  lanes : ∀ i l, laneAt e i = some l →
    sourceLegal l.update.source = true ∧ ∀ u ∈ l.followUps, sourceLegal u.source = true

theorem sourceLegal_of_page {i : Nat} (h : i < Config.pageSlots) : sourceLegal i = true := by simp [sourceLegal, h]

theorem sourceLegal_lt {i : Nat} (h : sourceLegal i = true) : i < 32 := by
  simp only [sourceLegal, Bool.or_eq_true, decide_eq_true_eq, Config.pageSlots, Config.sleepSlot] at h
  omega

namespace SourcesOk

variable {e : Engine}

theorem subqueue (h : SourcesOk e) {q : List Update} (hq : ∀ u ∈ q, u ∈ e.queue) : SourcesOk { e with queue := q } :=
  { h with queue := fun u hu => h.queue u (hq u hu) }

theorem with_outcome (h : SourcesOk e) (o : StartOutcome) : SourcesOk { e with outcome := o } :=
  ⟨h.queue, h.release, h.lanes⟩

theorem dropHead (h : SourcesOk e) (released : Bool) : SourcesOk (dropHead released e) := by
  cases released with
  | false => exact h.subqueue fun u hu => List.mem_of_mem_tail hu
  | true => exact { h with release := fun u hu => h.release u (List.mem_of_mem_tail hu) }

theorem removeTurn (h : SourcesOk e) (keep : Option Nat) : SourcesOk (removeTurn keep e) := by
  refine ⟨fun u hu => h.queue u (List.mem_of_mem_filter hu), fun u hu => h.release u (List.mem_of_mem_filter hu), ?_⟩
  intro i l hl
  rw [laneAt_removeTurn, Option.map_eq_some_iff] at hl
  obtain ⟨l', hl', rfl⟩ := hl
  obtain ⟨hsource, hfollow⟩ := h.lanes i l' hl'
  exact ⟨hsource, fun u hu => hfollow u (List.mem_of_mem_filter hu)⟩

theorem enqueue (h : SourcesOk e) {u : Update} (hu : sourceLegal u.source = true) : SourcesOk (enqueue u e) := by
  refine { h with queue := fun v hv => ?_ }
  rcases List.mem_append.mp hv with hv | hv
  · exact h.queue v hv
  · obtain rfl := List.mem_singleton.mp hv
    exact hu

theorem placePower (h : SourcesOk e) {i : Nat} (hi : sourceLegal i = true) : SourcesOk (placePower i e) :=
  (h.subqueue (q := e.queue.filter fun u => decide (u.origin ≠ .power)) fun _ hu => List.mem_of_mem_filter hu).enqueue hi

theorem placeTurn (h : SourcesOk e) {i : Nat} (hi : sourceLegal i = true) (m : Mode) : SourcesOk (placeTurn i m e) :=
  (h.removeTurn none).enqueue hi

theorem complete (h : SourcesOk e) {i : Nat} {l : Lane} (hl : laneAt e i = some l) :
    SourcesOk (setLane i none (handOver l e)) := by
  refine ⟨h.queue, fun u hu => ?_, ?_⟩
  · rcases List.mem_append.mp hu with hu | hu
    · exact h.release u hu
    · exact (h.lanes i l hl).2 u hu
  · exact forall_laneAt_setLane (e := handOver l e)
      (Q := fun _ l => sourceLegal l.update.source = true ∧ ∀ u ∈ l.followUps, sourceLegal u.source = true) h.lanes (by simp)

theorem attached (h : SourcesOk e) {released : Bool} {u : Update} (hu : sourceLegal u.source = true) (q : Rect) :
    SourcesOk (attached released u (meetings q e) e) := by
  have hd := h.dropHead released
  have hattach : SourcesOk (attach u (meetings q e) (Machine.dropHead released e)) := by
    rw [attach_frame]
    refine ⟨hd.queue, hd.release, ?_⟩
    refine forall_laneAt_attach
      (Q := fun _ l => sourceLegal l.update.source = true ∧ ∀ u ∈ l.followUps, sourceLegal u.source = true)
      (fun m hm => ?_) _ hd.lanes
    obtain ⟨hsource, hfollow⟩ := h.lanes m.1 m.2.1 (mem_meetings.mp hm).1
    refine ⟨hsource, fun v hv => ?_⟩
    rcases List.mem_append.mp hv with hv | hv
    · exact hfollow v hv
    · obtain rfl := List.mem_singleton.mp hv
      exact hu
  unfold Machine.attached
  split
  · exact hattach.removeTurn _
  · exact hattach

theorem start (h : SourcesOk e) {i : Nat} {l : Lane} (hl : l.followUps = []) (hs : sourceLegal l.update.source = true) :
    SourcesOk (setLane i (some l) e) := by
  refine ⟨h.queue, h.release, forall_laneAt_setLane
    (Q := fun _ l => sourceLegal l.update.source = true ∧ ∀ u ∈ l.followUps, sourceLegal u.source = true) h.lanes ?_⟩
  rintro _ ⟨⟩
  exact ⟨hs, by simp [hl]⟩

theorem of_head (h : SourcesOk e) {released : Bool} {u : Update} (hh : head e = some (released, u)) :
    sourceLegal u.source = true := by
  rcases head_eq_some hh with ⟨_, hr⟩ | ⟨_, _, hq⟩
  · exact h.release u (hr ▸ List.mem_cons_self)
  · exact h.queue u (hq ▸ List.mem_cons_self)

end SourcesOk

/-! ### The showing counts (R6) -/

/-- Whether a lane shows a slot, counted. -/
def showsSlot (i : Nat) (l : Lane) : Nat := if l.update.source = i then 1 else 0

theorem lanesShowing_eq (s : Part) (i : Nat) : lanesShowing s i = laneSum (showsSlot i) s.engine := by
  unfold lanesShowing laneSum
  induction runningLanes s.engine with
  | nil => rfl
  | cons x xs ih =>
    rw [List.countP_cons, List.map_cons, List.sum_cons, ih, Nat.add_comm]
    simp [showsSlot]

theorem laneSum_attached (i : Nat) (released : Bool) (u : Update) (q : Rect) (e : Engine) :
    laneSum (showsSlot i) (attached released u (meetings q e) e) = laneSum (showsSlot i) e := by
  have hdrop : (dropHead released e).lanes = e.lanes := by cases released <;> rfl
  have hsum := laneSum_attach (showsSlot i) 0 u (fun _ _ => rfl) (meetings q e) (dropHead released e)
    (attach_meets u q _ _ hdrop) (pairwise_meetings _ _)
  rw [laneSum_of_lanes hdrop, Nat.zero_mul, Nat.add_zero] at hsum
  unfold attached
  split
  · rw [laneSum_removeTurn]
    exact hsum
  · exact hsum

/-! ### The records of the slots (R2, R5) -/

theorem slotLegal_imageSlot {i : Nat} (h : Config.pageSlots ≤ i) : slotLegal i imageSlot = true := by
  have hnot : ¬ i < Config.pageSlots := by omega
  have hrows : rowsLegal (List.range Config.panelRows) = true := by
    simp [rowsLegal, List.pairwise_lt_range]
  simp [slotLegal, imageSlot, emptySlot, hnot, hrows]

theorem slotLegal_emptySlot {i : Nat} (h : i < Config.pageSlots) (b : Bool) :
    slotLegal i { emptySlot with retain := b } = true := by
  simp [slotLegal, emptySlot, rowsLegal, h]

/-- The showing count of a READY slot is free of its record. -/
theorem slotLegal_showing {i : Nat} {v : Slot} (h : slotLegal i v = true) (hready : v.state = .ready) (n : Nat) :
    slotLegal i { v with showing := n } = true := by
  simp only [slotLegal, hready] at h ⊢
  simpa using h

theorem slotLegal_not_shown {i : Nat} {v : Slot} (h : slotLegal i v = true) : slotLegal i { v with showing := 0 } = true := by
  simp only [slotLegal, Bool.and_eq_true, Bool.or_eq_true, decide_eq_true_eq] at h ⊢
  obtain ⟨⟨⟨hrows, _⟩, hretain⟩, hstate⟩ := h
  exact ⟨⟨⟨hrows, .inr trivial⟩, hretain⟩, hstate⟩

theorem slotLegal_ready_of_showing {i : Nat} {v : Slot} (h : slotLegal i v = true) (hn : v.showing ≠ 0) : v.state = .ready := by
  simp only [slotLegal, Bool.and_eq_true, Bool.or_eq_true, decide_eq_true_eq] at h
  obtain ⟨⟨⟨_, hready⟩, _⟩, _⟩ := h
  exact hready.resolve_right hn

theorem slotLegal_rows {i : Nat} {v : Slot} (h : slotLegal i v = true) : rowsLegal v.rows = true := by
  simp only [slotLegal, Bool.and_eq_true] at h
  exact h.1.1.1

theorem slotLegal_retain {i : Nat} {v : Slot} (h : slotLegal i v = true) (hi : i < Config.pageSlots) (b : Bool) :
    slotLegal i { v with retain := b } = true := by
  simp only [slotLegal, Bool.and_eq_true, Bool.or_eq_true, decide_eq_true_eq] at h ⊢
  obtain ⟨⟨⟨hrows, hready⟩, _⟩, hstate⟩ := h
  exact ⟨⟨⟨hrows, hready⟩, .inl hi⟩, hstate⟩

/-- A FILLING page slot (R7). -/
theorem slotLegal_filling {i : Nat} {v : Slot} (hi : i < Config.pageSlots) (hs : v.state = .filling) (hk : v.key = none)
    (hw : v.writer.isSome = true) (h0 : v.showing = 0) (hr : rowsLegal v.rows = true) : slotLegal i v = true := by
  simp [slotLegal, hi, hs, hk, hw, h0, hr]

/-- A posted page slot (R11). -/
theorem slotLegal_posted {i : Nat} {v : Slot} (hi : i < Config.pageSlots) (hs : v.state = .ready) (hk : v.key.isSome = true)
    (hw : v.writer.isSome = true) (hr : rowsLegal v.rows = true) : slotLegal i v = true := by
  simp [slotLegal, hi, hs, hk, hw, hr]

theorem slotLegal_dropSlot {i : Nat} {v : Slot} (hi : i < Config.pageSlots) (h : slotLegal i v = true) :
    slotLegal i (dropSlot v) = true := by
  unfold dropSlot
  split
  · simp [slotLegal, emptySlot, rowsLegal, hi]
  · exact h

theorem rowsLegal_insertAscending {n : Nat} {rows : List Nat} (hn : n < Config.panelRows) (h : rowsLegal rows = true) :
    rowsLegal (insertAscending n rows) = true := by
  simp only [rowsLegal, Bool.and_eq_true, decide_eq_true_eq, List.all_eq_true] at h ⊢
  obtain ⟨hp, hlt⟩ := h
  refine ⟨?_, fun r hr => ?_⟩
  · induction rows with
    | nil => simp [insertAscending]
    | cons m ms ih =>
      obtain ⟨hm, hp'⟩ := List.pairwise_cons.mp hp
      have hrest := ih hp' fun r hr => hlt r (by simp [hr])
      unfold insertAscending
      split
      · next hnm =>
        refine List.pairwise_cons.mpr ⟨fun r hr => ?_, hp⟩
        rcases List.mem_cons.mp hr with rfl | hr
        · exact hnm
        · exact hnm.trans (hm r hr)
      · split
        · exact hp
        · refine List.pairwise_cons.mpr ⟨fun r hr => ?_, hrest⟩
          rcases (mem_insertAscending n r ms).mp hr with rfl | hr
          · omega
          · exact hm r hr
  · rcases (mem_insertAscending n r rows).mp hr with rfl | hr
    · exact hn
    · exact hlt r hr

theorem rowsLegal_placeBytes (i : Nat) {places : List (Option Nat × Byte)} (hpl : PlacesInImage places) :
    ∀ x : List Host.Cell × List Nat, rowsLegal x.2 = true → rowsLegal (placeBytes i places x).2 = true := by
  unfold placeBytes
  induction places with
  | nil => exact fun x h => h
  | cons pb pbs ih =>
    intro x h
    rw [List.foldl_cons]
    refine ih (fun y hy => hpl y (by simp [hy])) _ ?_
    cases ho : pb.1 with
    | none => exact h
    | some o =>
      have hlt := hpl pb (by simp) o ho
      refine rowsLegal_insertAscending ?_ h
      simp only [Config.imageBytes, Config.rowBytes, Config.panelRows] at hlt ⊢
      omega

/-! ### The slot table of the part -/

/-- Each slot's record legal, and its showing count that of the lanes. -/
def SlotsMatch (s : Part) : Prop :=
  ∀ i, i < 32 → slotLegal i (slot s i) = true ∧ (slot s i).showing = laneSum (showsSlot i) s.engine

/-- The slot table legal (R2, R5, R6). -/
structure SlotsRight (s : Part) : Prop where
  slots : SlotsMatch s
  idle : s.power.state = .off ∨ s.power.state = .boot → ∀ i, laneAt s.engine i = none
  sources : SourcesOk s.engine
  list : ∀ k ∈ s.turn.list, k < Config.pageSlots

theorem slotTableLegal_iff (s : Part) : slotTableLegal s = true ↔ SlotsRight s := by
  have hidle : ((!anyLane s.engine) = true ∨ s.power.state ≠ .off ∧ s.power.state ≠ .boot)
      ↔ (s.power.state = .off ∨ s.power.state = .boot → ∀ i, laneAt s.engine i = none) := by
    rw [Bool.not_eq_true', anyLane_eq_false]
    tauto
  simp only [slotTableLegal, Bool.and_eq_true, Bool.or_eq_true (!anyLane s.engine), decide_eq_true_eq, hidle,
    List.all_eq_true, List.mem_range, List.mem_append, Prod.forall, mem_runningLanes, lanesShowing_eq]
  constructor
  · rintro ⟨⟨⟨⟨hslots, hi⟩, hq⟩, hl⟩, hlist⟩
    exact ⟨hslots, hi, ⟨fun u hu => hq u (.inl hu), fun u hu => hq u (.inr hu), hl⟩, hlist⟩
  · intro h
    exact ⟨⟨⟨⟨h.slots, h.idle⟩, fun u hu => hu.elim (h.sources.queue u) (h.sources.release u)⟩, h.sources.lanes⟩, h.list⟩

namespace SlotsMatch

variable {s t : Part}

theorem congr (h : SlotsMatch s) (hs : t.store.slots = s.store.slots)
    (he : ∀ i, laneSum (showsSlot i) t.engine = laneSum (showsSlot i) s.engine) : SlotsMatch t := by
  intro i hi
  rw [he i, slot, hs]
  exact h i hi

/-- A slot's record replaced by a legal one with the same showing count. -/
theorem setSlot (h : SlotsMatch s) (i : Nat) (v : Slot) (hv : slotLegal i v = true) (hn : v.showing = (slot s i).showing) :
    SlotsMatch (setSlot i v s) := by
  intro j hj
  rcases slot_setSlot_cases s j i v with hs | ⟨rfl, hs⟩ <;> rw [hs]
  · exact h j hj
  · exact ⟨hv, hn.trans (h j hj).2⟩

end SlotsMatch

namespace SlotsRight

variable {s t : Part}

/-- The slots, the engine, the turn list and the power state matter. -/
theorem congr (h : SlotsRight s) (hs : t.store.slots = s.store.slots) (he : t.engine = s.engine) (ht : t.turn.list = s.turn.list)
    (hp : t.power.state = .off ∨ t.power.state = .boot → s.power.state = .off ∨ s.power.state = .boot) : SlotsRight t := by
  refine ⟨h.slots.congr hs fun i => by rw [he], fun hh => ?_, ?_, ?_⟩
  · rw [he]
    exact h.idle (hp hh)
  · rw [he]
    exact h.sources
  · rw [ht]
    exact h.list

theorem of_spoolWork (h : SlotsRight s) (hw : SpoolWork s t) : SlotsRight t :=
  h.congr (by rw [hw.1]) (by rw [hw.1]) (by rw [hw.1]) (by rw [hw.1]; exact id)

theorem withSlot (h : SlotsRight s) (i : Nat) (v : Slot) (hv : slotLegal i v = true) (hn : v.showing = (slot s i).showing) :
    SlotsRight (setSlot i v s) :=
  ⟨h.slots.setSlot i v hv hn, h.idle, h.sources, h.list⟩

/-- The engine changed with the lanes' sources as they were. -/
theorem withEngine (h : SlotsRight s) (f : Engine → Engine)
    (hsum : ∀ i, laneSum (showsSlot i) (f s.engine) = laneSum (showsSlot i) s.engine)
    (hidle : (∀ i, laneAt s.engine i = none) → ∀ i, laneAt (f s.engine) i = none) (hsrc : SourcesOk (f s.engine)) :
    SlotsRight (modifyEngine f s) :=
  ⟨h.slots.congr rfl hsum, fun hh => hidle (h.idle hh), hsrc, h.list⟩

theorem removeTurn (h : SlotsRight s) (keep : Option Nat) : SlotsRight (modifyEngine (removeTurn keep) s) :=
  h.withEngine _ (fun i => laneSum_removeTurn _ keep _)
    (fun hnone i => by rw [laneAt_removeTurn, hnone i]; rfl) (h.sources.removeTurn keep)

theorem placePower (h : SlotsRight s) {k : Nat} (hk : sourceLegal k = true) : SlotsRight (modifyEngine (placePower k) s) :=
  h.withEngine _ (fun _ => rfl) (fun hnone => hnone) (h.sources.placePower hk)

theorem placeTurn (h : SlotsRight s) {k : Nat} (hk : sourceLegal k = true) (m : Mode) :
    SlotsRight (modifyEngine (placeTurn k m) s) :=
  (h.removeTurn none).withEngine _ (fun _ => rfl) (fun hnone => hnone) ((h.sources.removeTurn none).enqueue hk)

/-- The slot at the cursor is a page slot. -/
theorem cursorSlot_legal (h : SlotsRight s) {k : Nat} (hk : cursorSlot s.turn = some k) : sourceLegal k = true := by
  refine sourceLegal_of_page (h.list k ?_)
  unfold cursorSlot entryAt at hk
  split at hk
  · cases hk
  · split at hk
    · exact List.mem_of_getElem? hk
    · cases hk

theorem withTurn (h : SlotsRight s) (f : Turn → Turn) (hf : (f s.turn).list = s.turn.list) : SlotsRight (modifyTurn f s) :=
  h.congr rfl rfl hf id

theorem renderAhead (h : SlotsRight s) (d : Int) : SlotsRight (renderAhead d s) := by
  simp only [Machine.renderAhead]
  split
  · exact h.congr rfl rfl rfl id
  · exact h

theorem starve (h : SlotsRight s) (d : Int) (r : StarveReason) (b : Option Nat) : SlotsRight (starve d r b s) :=
  h.congr rfl rfl rfl id

theorem submitTurn (h : SlotsRight s) : SlotsRight (submitTurn s) := by
  unfold Machine.submitTurn
  split
  · next k hk => exact h.placeTurn (h.cursorSlot_legal hk) _
  · exact h

theorem turnPress (h : SlotsRight s) (d : Int) : SlotsRight (turnPress d s) := by
  unfold Machine.turnPress turn readyTurn
  split
  · split
    · exact (h.withTurn (setBacklog d) rfl).starve _ _ _
    · split
      · exact h.starve _ _ _
      · split
        · exact h.starve _ _ _
        · exact (h.withTurn (moveCursor d) rfl).submitTurn.renderAhead d
  · exact h.withTurn (addBacklog d) rfl

theorem serveSteps (d : Int) (n : Nat) : ∀ s, SlotsRight s → SlotsRight (serveSteps d n s) := by
  induction n with
  | zero => exact fun s h => h
  | succ n ih =>
    intro s h
    unfold Machine.serveSteps
    split
    · exact h
    · exact ih _ (h.withTurn _ rfl)

theorem backlogService (h : SlotsRight s) : SlotsRight (backlogService s) := by
  simp only [Machine.backlogService]
  split
  · exact h
  · split
    · exact h
    · split
      · exact h.starve _ _ _
      · split
        · exact h.starve _ _ _
        · have hserved := ((serveSteps s.turn.backlog.sign s.turn.backlog.natAbs s h).submitTurn).renderAhead
            s.turn.backlog.sign
          unfold reportRemainder
          split
          · exact hserved
          · split
            · exact hserved.starve _ _ _
            · exact hserved

theorem wakeRestore (h : SlotsRight s) : SlotsRight (wakeRestore s) := by
  unfold Machine.wakeRestore
  split
  · exact h
  · split
    · exact h.starve _ _ _
    · next k hk =>
      split
      · exact h.starve _ _ _
      · split
        · exact h.starve _ _ _
        · exact h.placePower (h.cursorSlot_legal hk)

theorem leaveHold (h : SlotsRight s) : SlotsRight (leaveHold s) := by
  rcases leaveHold_cases s with hs | ⟨hh, hs⟩
  · rw [hs]; exact h
  · exact of_spoolWork (s := sampleTemperature (restoreRefresh (setPowerState .settling s)))
      (h.congr rfl rfl rfl fun hx => by rcases hx with hx | hx <;> cases hx) hs

theorem enterSettling (h : SlotsRight s) (b : Bool) : SlotsRight (enterSettling b s) := by
  have hs : SlotsRight (settled s) :=
    (SlotsRight.removeTurn (s := modifyTurn (setBacklog 0) (setPowerState .settling (setAsleep true s)))
      (h.congr rfl rfl rfl fun hx => by rcases hx with hx | hx <;> cases hx) none).congr rfl rfl rfl id
  rcases enterSettling_cases b s with he | he <;> rw [he]
  · exact hs
  · exact hs.placePower (by decide)

/-- Every block of the page store and of the engine at its default (R19, R63). -/
theorem of_defaults (hs : s.store.slots = Vector.replicate 32 emptySlot) (he : s.engine.lanes = Vector.replicate 8 none)
    (hq : s.engine.queue = []) (hr : s.engine.release = []) (ht : s.turn.list = []) : SlotsRight s := by
  have hnone := laneAt_replicate_none he
  refine ⟨fun i hi => ?_, fun _ => hnone, ⟨by simp [hq], by simp [hr], fun i l hl => ?_⟩, by simp [ht]⟩
  · have hslot : slot s i = emptySlot := by
      rw [slot, hs, tableGet_of_lt _ _ _ hi, Vector.getElem_replicate]
    rw [hslot, laneSum_none _ hnone]
    refine ⟨?_, rfl⟩
    simp [slotLegal, emptySlot, rowsLegal]
  · rw [hnone i] at hl
    cases hl

/-- The abort leaves no lane and shows no slot (R60). -/
theorem abortEngine (h : SlotsRight s) : SlotsRight (abortEngine s) := by
  have hnone := laneAt_replicate_none (e := (Machine.abortEngine s).engine) rfl
  refine ⟨fun i hi => ?_, fun _ => hnone, ⟨fun u hu => absurd hu List.not_mem_nil, fun u hu => absurd hu List.not_mem_nil,
    fun i l hl => ?_⟩, h.list⟩
  · have hslot : slot (Machine.abortEngine s) i = { slot s i with showing := 0 } := tableGet_tableMap _ _ _ _ hi
    rw [hslot, laneSum_none _ hnone]
    exact ⟨slotLegal_not_shown (h.slots i hi).1, rfl⟩
  · rw [hnone i] at hl
    cases hl

/-- The retention computation, with no lane running: only pages are lost (R17). -/
theorem computeRetention (h : SlotsRight s) (hnone : ∀ i, laneAt s.engine i = none) : SlotsRight (computeRetention s) := by
  refine ⟨fun i hi => ?_, h.idle, h.sources, h.list⟩
  obtain ⟨hlegal, hshow⟩ := h.slots i hi
  have hzero : laneSum (showsSlot i) s.engine = 0 := laneSum_none _ hnone
  rw [slot_computeRetention s i hi]
  split
  · exact ⟨hlegal, hshow⟩
  · next hno =>
    have hpage : i < Config.pageSlots := by
      by_contra hge
      refine hno (List.mem_filter.mpr ⟨List.mem_range.mpr (by omega), ?_⟩)
      have h7 : i / 4 = 7 := by simp [Config.pageSlots] at hge; omega
      simp [h7]
    refine ⟨slotLegal_dropSlot hpage hlegal, ?_⟩
    have hdrop : (dropSlot (slot s i)).showing = 0 := by
      unfold dropSlot
      split
      · rfl
      · rw [hshow, hzero]
    exact hdrop.trans hzero.symm

/-! ### A frame boundary -/

/-- A lane's completion takes one from its source's showing count (R58). -/
theorem completeLane (h : SlotsRight s) {i : Nat} {l : Lane} (hl : laneAt s.engine i = some l) (hp : ¬ (s.power.state = .off
    ∨ s.power.state = .boot)) : SlotsRight (completeLane i l s) := by
  have hframe : DisplaySide s (Machine.completeLane i l s) := by simp [DisplaySide.refl]
  have hsum (j : Nat) := laneSum_setLane (showsSlot j) (handOver l s.engine) none (laneAt_lt hl)
  refine ⟨fun j hj => ?_, fun hh => absurd ?_ hp, ?_, ?_⟩
  · have hs := hsum j
    rw [laneAt_of_lanes (e' := handOver l s.engine) (e := s.engine) rfl,
      laneSum_of_lanes (e' := handOver l s.engine) (e := s.engine) rfl, hl, laneValue_some, laneValue_none] at hs
    obtain ⟨hlegal, hshow⟩ := h.slots j hj
    rw [completeLane_engine, slot, completeLane_store]
    change slotLegal j (slot (modifySlot l.update.source _ (showLane l s)) j) = true
      ∧ (slot (modifySlot l.update.source _ (showLane l s)) j).showing = _
    have hslot : slot (showLane l s) j = slot s j := rfl
    rcases eq_or_ne l.update.source j with heq | hne
    · have hone : showsSlot j l = 1 := by simp [showsSlot, heq]
      rw [hone] at hs
      rw [heq, modifySlot, slot_setSlot_same _ _ _ hj, hslot]
      have hready := slotLegal_ready_of_showing hlegal (by omega)
      refine ⟨slotLegal_showing hlegal hready _, ?_⟩
      change (slot s j).showing - 1 = _
      omega
    · have hzero : showsSlot j l = 0 := by simp [showsSlot, hne]
      rw [hzero] at hs
      rw [modifySlot, slot_setSlot_other _ _ _ _ hne, hslot]
      exact ⟨hlegal, by omega⟩
  · rw [hframe] at hh
    exact hh
  · rw [completeLane_engine]
    exact h.sources.complete hl
  · rw [hframe]
    exact h.list

/-- An item that starts adds one to its source's showing count (R55). -/
theorem start (h : SlotsRight s) {i : Nat} {l : Lane} (hi : idleLane s.engine = some i) (hl : l.followUps = [])
    (hs : sourceLegal l.update.source = true) (hready : (slot s l.update.source).state = .ready)
    (hp : ¬ (s.power.state = .off ∨ s.power.state = .boot)) :
    SlotsRight (modifySlot l.update.source (fun v => { v with showing := v.showing + 1 })
      (modifyEngine (setLane i (some l)) s)) := by
  obtain ⟨hlt, hnone⟩ := laneAt_idleLane hi
  refine ⟨fun j hj => ?_, fun hh => absurd hh hp, h.sources.start hl hs, h.list⟩
  have hsum := laneSum_setLane (showsSlot j) s.engine (some l) hlt
  rw [hnone, laneValue_none, laneValue_some] at hsum
  obtain ⟨hlegal, hshow⟩ := h.slots j hj
  have hslot : slot (modifyEngine (setLane i (some l)) s) j = slot s j := rfl
  change _ ∧ _ = laneSum (showsSlot j) (setLane i (some l) s.engine)
  rcases eq_or_ne l.update.source j with heq | hne
  · have hone : showsSlot j l = 1 := by simp [showsSlot, heq]
    rw [heq] at hready ⊢
    rw [modifySlot, slot_setSlot_same _ _ _ hj, hslot]
    refine ⟨slotLegal_showing hlegal hready _, ?_⟩
    change (slot s j).showing + 1 = _
    omega
  · have hzero : showsSlot j l = 0 := by simp [showsSlot, hne]
    rw [modifySlot, slot_setSlot_other _ _ _ _ hne, hslot]
    exact ⟨hlegal, by omega⟩

theorem consider (h : SlotsRight s) {b : Bool} {u : Update} (hhead : head s.engine = some (b, u))
    (hp : ¬ (s.power.state = .off ∨ s.power.state = .boot)) : SlotsRight (consider b u s).1 := by
  have hsrc := h.sources.of_head hhead
  rcases consider_cases b u s with ⟨_, hc⟩ | ⟨_, hc⟩ | ⟨hready, _, _, covered, _, hc⟩ <;> rw [hc]
  · have hframe : DisplaySide s (discard b u s) := by
      have := displaySide_consider s s b u
      rw [hc] at this
      exact this.mpr (.refl s)
    have hlanes : (dropHead b s.engine).lanes = s.engine.lanes := by cases b <;> rfl
    refine ⟨h.slots.congr (by rw [discard_store]) fun i => ?_, fun hh => absurd ?_ hp, ?_, ?_⟩
    · rw [discard_engine, laneSum_of_lanes hlanes]
    · rw [hframe] at hh
      exact hh
    · rw [discard_engine]
      exact h.sources.dropHead b
    · rw [hframe]
      exact h.list
  · exact h
  · have ha : SlotsRight (modifyEngine (attached b u (meetings u.rect s.engine)) s) :=
      ⟨h.slots.congr rfl fun i => laneSum_attached i b u u.rect s.engine, fun hh => absurd hh hp,
        h.sources.attached hsrc u.rect, h.list⟩
    rcases commit_cases b u (meetings u.rect s.engine) covered s with hs | ⟨i, hi, hs⟩ <;> rw [hs]
    · exact ha
    · exact ha.start (l := laneOf b u (meetings u.rect s.engine) s) hi rfl hsrc hready hp

theorem activateTable (h : SlotsRight s) (hnone : ∀ i, laneAt s.engine i = none) : SlotsRight (activateTable s) := by
  have hshow := (h.slots Config.waveformSlot (by decide)).2
  rw [laneSum_none _ hnone] at hshow
  have hplace (file : List Byte) : SlotsRight (modifyWave (fun w => { w with replacementPending := false })
      (setSlot Config.waveformSlot imageSlot (placeTable 0 file s))) :=
    ((SlotsRight.congr (t := placeTable 0 file s) h rfl rfl rfl id).withSlot Config.waveformSlot imageSlot
      (slotLegal_imageSlot (by decide)) hshow.symm).congr rfl rfl rfl id
  rw [Machine.activateTable]
  exact hplace _

theorem boundary (h : SlotsRight s) (hp : ¬ (s.power.state = .off ∨ s.power.state = .boot)) : SlotsRight (boundary s) := by
  have hout (t u : Part) (hu : DisplaySide t u) (ht : ¬ (t.power.state = .off ∨ t.power.state = .boot)) :
      ¬ (u.power.state = .off ∨ u.power.state = .boot) := by
    rw [hu]
    exact ht
  refine (boundary_keeps (R := fun t => SlotsRight t ∧ ¬ (t.power.state = .off ∨ t.power.state = .boot))
    ?_ ?_ ?_ ?_ ?_ s ⟨h, hp⟩).1
  · rintro i l t hl ⟨h, hp⟩
    exact ⟨h.completeLane hl hp, hout _ _ (by simp [DisplaySide.refl]) hp⟩
  · rintro t hany ⟨h, hp⟩
    refine ⟨h.activateTable (anyLane_eq_false.mp hany), ?_⟩
    rw [Machine.activateTable, modifyWave_power, setSlot_power, placeTable, setDram_power]
    exact hp
  · rintro o t ⟨h, hp⟩
    exact ⟨h.withEngine _ (fun _ => rfl) (fun hnone => hnone) (h.sources.with_outcome o), hp⟩
  · rintro b u t hhead ⟨h, hp⟩
    exact ⟨h.consider hhead hp, hout _ _ (by simp [DisplaySide.refl]) hp⟩
  · rintro codes t ⟨h, hp⟩
    refine ⟨h.withEngine _ (fun i => laneSum_map _ (fun l => { l with index := l.index + 1 }) rfl) (fun hnone i => ?_) ?_, hp⟩
    · rw [laneAt_map (e := t.engine) (fun l => { l with index := l.index + 1 }) rfl, hnone i]
      rfl
    · refine ⟨h.sources.queue, h.sources.release, fun i l hl => ?_⟩
      rw [laneAt_map (e := t.engine) (fun l => { l with index := l.index + 1 }) rfl, Option.map_eq_some_iff] at hl
      obtain ⟨l', hl', rfl⟩ := hl
      exact h.sources.lanes i l' hl'

end SlotsRight

theorem slotsRight_kept : KeptBlocks SlotsRight where
  supply _ _ h := h.congr rfl rfl rfl id
  pins _ _ h := h.congr rfl rfl rfl id
  debounce _ _ h := h.congr rfl rfl rfl id
  rights _ _ h := h.congr rfl rfl rfl id
  unit _ _ _ _ h := h.congr rfl rfl rfl id
  power f hf s h := h.congr rfl rfl rfl fun hx => by
    have hstate : (modifyPower f s).power.state = s.power.state := (hf _).1
    rw [hstate] at hx
    exact hx
  wave _ _ h := h.congr rfl rfl rfl id
  writes hw h := h.congr (by rw [hw.1]) (by rw [hw.1]) (by rw [hw.1]) (by rw [hw.1]; exact id)
  array _ _ _ _ h := h.congr rfl rfl rfl id
  select p s h := by
    rcases selectPort_cases p s with hs | hs | hs <;> rw [hs]
    · exact h
    · exact h.congr rfl rfl rfl id
    · exact SlotsRight.leaveHold (s := modifyPort p _ s) (h.congr rfl rfl rfl id)
  sample s h := by
    rw [takeSample_frame]
    exact h.congr rfl rfl rfl id
  boot _ s hs h := h.congr rfl rfl rfl fun _ => .inl hs
  reset _ _ _ := .of_defaults rfl rfl rfl rfl rfl
  forcedOff s h := by
    rw [beginForcedOff_frame]
    exact h.abortEngine.congr rfl rfl rfl id
  off _ _ := .of_defaults rfl rfl rfl rfl rfl
  wakes s h := by
    rcases wake_cases s with hs | ⟨_, _, hs⟩ <;> rw [hs]
    · exact h
    · exact SlotsRight.wakeRestore (h.leaveHold.congr rfl rfl rfl fun hx => by rcases hx with hx | hx <;> cases hx)
  settling b s _ h := h.enterSettling b
  offPending _ _ h := h.congr rfl rfl rfl id
  hold s hq h := by
    rw [enterHold, if_pos hq]
    simp only [quiet, Bool.and_eq_true, engineQuiet, Bool.not_eq_true'] at hq
    obtain ⟨⟨⟨⟨⟨⟨_, ⟨hlanes, _⟩, _⟩, _⟩, _⟩, _⟩, _⟩, _⟩ := hq
    exact (h.computeRetention (anyLane_eq_false.mp hlanes)).congr rfl rfl rfl fun hx => by rcases hx with hx | hx <;> cases hx
  press d s _ _ h := h.turnPress d
  ramp _ h := h.congr rfl rfl rfl id
  frame s hb h := h.boundary fun hx => by
    simp only [boundariesRun, Bool.and_eq_true, Bool.or_eq_true, decide_eq_true_eq] at hb
    obtain ⟨_, hb⟩ := hb
    rcases hx with hx | hx <;> rw [hx] at hb <;> simp at hb
  slotWrite p i places s hpl _ hi hshow h := by
    have hrows := slotLegal_rows (h.slots i (by simp [Config.pageSlots] at hi; omega)).1
    have hdram (m : List Host.Cell) : SlotsRight (setDram m s) := h.congr rfl rfl rfl id
    refine (hdram (placeBytes i places (s.store.dram, (slot s i).rows)).1).withSlot i _ ?_ rfl
    exact slotLegal_filling hi rfl rfl rfl hshow (rowsLegal_placeBytes i hpl _ hrows)
  post i key s _ hi hf hw h := by
    have hrows := slotLegal_rows (h.slots i (by simp [Config.pageSlots] at hi; omega)).1
    exact (h.withSlot i { slot s i with state := .ready, key := some key } (slotLegal_posted hi rfl rfl hw hrows) rfl).backlogService
  discard i s _ hi hshow h := h.withSlot i _ (slotLegal_emptySlot hi _) hshow.symm
  retain i b s _ hi h :=
    h.withSlot i _ (slotLegal_retain (h.slots i (by simp [Config.pageSlots] at hi; omega)).1 hi b) rfl
  turnList n places c s _ hv h := by
    simp only [listValid, Bool.and_eq_true, decide_eq_true_eq, List.all_eq_true] at hv
    obtain ⟨⟨⟨_, hpages⟩, _⟩, _⟩ := hv
    exact ⟨h.slots.congr rfl fun _ => rfl, h.idle, h.sources, hpages⟩
  turnSettings _ _ _ _ _ _ _ h := h.congr rfl rfl rfl id
  absorbed u queue tag s _ _ habs h := by
    refine h.withEngine _ (fun _ => rfl) (fun hnone => hnone) ?_
    refine { h.sources with queue := fun v hv => ?_ }
    have hmap := absorb_map Update.source (fun _ _ => rfl) habs
    obtain ⟨w, hw, hws⟩ := List.mem_map.mp (hmap ▸ List.mem_map_of_mem hv)
    exact hws ▸ h.sources.queue w hw
  enqueued u p s _ _ hsrc _ h :=
    h.withEngine _ (fun _ => rfl) (fun hnone => hnone) (h.sources.enqueue (sourceLegal_of_page hsrc))
  cancel p s _ h := by
    exact h.withEngine (fun e => { e with queue := e.queue.filter fun u => !decide (u.origin = .port p) }) (fun _ => rfl) (fun hnone => hnone) (h.sources.subqueue fun _ hu => List.mem_of_mem_filter hu)
  ghostLimit l s _ _ _ h := h.withEngine _ (fun _ => rfl) (fun hnone => hnone) ⟨h.sources.queue, h.sources.release, h.sources.lanes⟩
  ghosts s _ h := by
    exact h.withEngine (fun e => { e with tiles := Vector.replicate 192 15 }) (fun _ => rfl) (fun hnone => hnone) ⟨h.sources.queue, h.sources.release, h.sources.lanes⟩
  light _ _ _ _ _ h := h.congr rfl rfl rfl id
  resistance _ _ _ h := h.congr rfl rfl rfl id
  incoming _ _ _ h := h.congr rfl rfl rfl id
  sleepImage image s _ hshow h := by
    have hdram (m : List Host.Cell) : SlotsRight (setDram m s) := h.congr rfl rfl rfl id
    exact (hdram _).withSlot Config.sleepSlot imageSlot (slotLegal_imageSlot (by decide)) hshow.symm

/-- In BOOT no lane runs, so that the loads may take the system slots (R126). -/
theorem slotsRight_bootSequence (ecc : List (Nat × List Sector)) (s : Part) (hs : s.power.state = .boot) (h : SlotsRight s) :
    SlotsRight (bootSequence ecc s) := by
  have hnone := h.idle (.inr hs)
  obtain ⟨t, ht, hb⟩ := bootSequence_frame ecc s
  refine SlotsRight.of_spoolWork ?_ hb
  have hslot (i : Nat) : slot t i = slot (bootImages ecc s) i := by rw [ht]; rfl
  have he : t.engine = s.engine := by rw [ht]
  refine ⟨fun i hi => ?_, fun _ => ?_, ?_, ?_⟩
  · rw [hslot, he]
    rcases (bootImages_slots ecc s).2 i with hi' | ⟨hpage, _, hi'⟩ <;> rw [hi']
    · exact h.slots i hi
    · exact ⟨slotLegal_imageSlot hpage, (laneSum_none _ hnone).symm⟩
  · rw [he]
    exact hnone
  · rw [he]
    exact h.sources
  · rw [ht]
    exact h.list

/-- Settles O57: by the step lemma for `SlotsRight`. -/
theorem slotTableStaysLegal : Obligations.SlotTableStaysLegal := fun _ _ hs hst =>
  (slotTableLegal_iff _).mpr
    (slotsRight_kept.kept.step (fun ecc p hp h => slotsRight_bootSequence ecc p hp h) ((slotTableLegal_iff _).mp hs) hst)

end Sys2Proof.Machine
end

section
/-! PROOFS. The machine right after reset (R128, R157), and the invariants there. -/

namespace Sys2Proof.Machine

/-- A page that the array does not list is erased. -/
theorem Nand.page_of_unlisted {m : List (Nat × Page)} {a : Nat} (h : ∀ c ∈ m, c.1 ≠ a) : Nand.page m a = none := by
  induction m with
  | nil => rfl
  | cons c m ih =>
    obtain ⟨k, v⟩ := c
    rw [Nand.page, if_neg (h _ List.mem_cons_self)]
    exact ih fun c hc => h c (List.mem_cons_of_mem _ hc)

/-- As delivered the array lists the table's 13 pages in block 1 and the first page of block 6 (R157). -/
theorem reset_page_of_ge (a : Nat) (h : 64 * 7 ≤ a) : Nand.page State.reset.part.flash.nand a = none := by
  refine Nand.page_of_unlisted (m := deliveredNand) fun c hc => ?_
  rcases List.mem_append.mp hc with hc | hc
  · obtain ⟨i, hi, rfl⟩ := List.mem_map.mp hc
    have := List.mem_range.mp hi
    change 64 + i ≠ a
    omega
  · obtain rfl := List.mem_singleton.mp hc
    change 384 ≠ a
    omega

/-- Every kind is enabled and none is pending (R192). -/
theorem reset_notice (p : Port) (k : NoticeKind) : notice (port State.reset.part p).notices k = none
    ∧ kindEnabled (port State.reset.part p).notices k = true := by
  cases p <;> cases k <;> exact ⟨rfl, rfl⟩

/-- Settles O60: each value is the default of its block, which evaluates; the slot table is legal by its defaults. -/
theorem resetValues : Obligations.ResetValues := by
  refine ⟨⟨rfl, rfl, rfl, rfl, ⟨rfl, rfl, rfl, rfl, rfl, rfl, rfl, rfl, rfl, rfl⟩, fun i hi => ?_, rfl,
    ⟨rfl, rfl, rfl, rfl, rfl, rfl⟩, rfl, rfl, rfl, ⟨rfl, rfl, rfl, rfl⟩, fun r hr => ?_, rfl, rfl, rfl,
    fun p => ⟨reset_notice p, ?_⟩, ?_, fun a ha _ => reset_page_of_ge a ha⟩, rfl, rfl, rfl, rfl, ?_, rfl, rfl⟩
  · interval_cases i <;> rfl
  · interval_cases r <;> rfl
  · cases p <;> exact ⟨rfl, rfl, rfl, rfl⟩
  · rfl
  · exact (slotTableLegal_iff _).mpr (.of_defaults rfl rfl rfl rfl rfl)

end Sys2Proof.Machine
end

section
/-! PROOFS. How a command answers: a taken command that passes comes down to its owning block's effect on the part in its
transaction, and a result settled on a part whose ports stand in that transaction leaves `answered`. With it, the refusals of
the slot writes, SLOT POST, DISCARD and RETAIN, and the reads of images (chapter 1). -/

namespace Sys2Proof.Machine

/-! ### The answer of a command (R121, R180 to R182, R188) -/

/-- What a step answers is what the command makes of the part. -/
theorem exec_of_part {i : Instr} {s : State} {t : Part} (h : partAfter i s.part = t) :
    exec i s = .next { s with part := t } := by
  rw [exec_eq_partAfter, h]

/-- A result settled on a part whose ports stand in the transaction: nothing but the ports changes. -/
theorem settle_of_ports {p : Port} {r : Reply} {s t : Part} (h : t.ports = (inTransaction s p).ports) :
    settle p r t = { t with ports := answered s p r } := by
  have hports := congrArg Part.ports (settle_inTransaction p r s)
  unfold settle at hports ⊢
  rw [modifyPort_ports] at hports
  rw [modifyPort, h, hports]

/-- The step of a command whose owning block left the ports in the transaction. -/
theorem next_settled {ρ φ : Type} {p : Port} {r : Reply} {s : State} {t : Part} (h : t.ports = (inTransaction s.part p).ports) :
    (Host.Outcome.next { s with part := settleWith p (t, some r) } : Host.Outcome State ρ φ)
      = .next { s with part := { t with ports := answered s.part p r } } := by
  rw [settleWith_some, settle_of_ports h]

@[simp] theorem slot_inTransaction (s : Part) (p : Port) (i : Nat) : slot (inTransaction s p) i = slot s i := rfl

theorem maskHolds_inTransaction (s : Part) (p q : Port) (i : Nat) :
    maskHolds (inTransaction s p) q i = (s.rights.records.get q).mask.getLsbD i := rfl

section

variable {i : Instr} {p : Port} {f : Part → Part × Option Reply} {s : Part}

/-- A taken command that passes, without stray bytes and with no orderly OFF in progress, answers as its owning block does. -/
theorem partAfter_of_pass (hi : ∀ s, partAfter i s = transact i f s) (hp : commandPort i = p) (ht : takes s p = true)
    (hx : strayData i = 0) (hv : verdict i p s = .pass) (ho : s.power.offPending = false) :
    partAfter i s = settleWith p (f (inTransaction s p)) := by
  subst hp
  rw [hi]
  exact transact_pass i f s ht hx hv (by simp [offRefuses, ho])

/-- A command that an orderly OFF in progress does not refuse. -/
theorem partAfter_of_pass_always (hi : ∀ s, partAfter i s = transact i f s) (hp : commandPort i = p) (ht : takes s p = true)
    (hx : strayData i = 0) (hv : verdict i p s = .pass) (ho : takenWhileOffPending (codeOf i) = true) :
    partAfter i s = settleWith p (f (inTransaction s p)) := by
  subst hp
  rw [hi]
  exact transact_pass i f s ht hx hv (by simp [offRefuses, ho])

/-- A command that needs no capability, or a slot's (R180). -/
theorem partAfter_of_free (hi : ∀ s, partAfter i s = transact i f s) (hp : commandPort i = p) (ht : takes s p = true)
    (hx : strayData i = 0) (hn : needOf (codeOf i) = .none ∨ needOf (codeOf i) = .slots) (ho : s.power.offPending = false) :
    partAfter i s = settleWith p (f (inTransaction s p)) :=
  partAfter_of_pass hi hp ht hx (verdict_of_free i p s hn) ho

/-- A command of a capability that its port holds (R181). -/
theorem partAfter_of_permits {n : Nat} (hi : ∀ s, partAfter i s = transact i f s) (hp : commandPort i = p)
    (ht : takes s p = true) (hx : strayData i = 0) (hn : needOf (codeOf i) = .capability n) (hc : permits s p n = true)
    (ho : s.power.offPending = false) : partAfter i s = settleWith p (f (inTransaction s p)) :=
  partAfter_of_pass hi hp ht hx (verdict_of_permits i p s n hn hc) ho

/-- A SYSTEM-class command with SYSTEM held and the peer absent (R182). -/
theorem partAfter_of_permitsSystem (hi : ∀ s, partAfter i s = transact i f s) (hp : commandPort i = p)
    (ht : takes s p = true) (hx : strayData i = 0) (hn : needOf (codeOf i) = .system) (hc : permitsSystem s p = true)
    (ho : s.power.offPending = false) : partAfter i s = settleWith p (f (inTransaction s p)) :=
  partAfter_of_pass hi hp ht hx (verdict_of_permitsSystem i p s hn hc) ho

/-- A read that is taken and passes: its deselect answers, and its sample takes the bytes of that answer. -/
theorem read_of_pass {r : Reply} (hp : commandPort i = p) (ht : takes s p = true) (hx : strayData i = 0)
    (hv : verdict i p s = .pass) (ho : takenWhileOffPending (codeOf i) = true)
    (hf : f (inTransaction s p) = (inTransaction s p, some r)) :
    readTransaction i .deselect f s = { s with ports := answered s p r }
      ∧ readTransaction i .sample f s = sampled .taken s p r.data := by
  subst hp
  constructor
  · rw [readTransaction, transact_pass i f s ht hx hv (by simp [offRefuses, ho]), hf, settleWith_some, settle_of_ports rfl]
    rfl
  · have hv' : verdict i (commandPort i) (inTransaction s (commandPort i)) = .pass := hv
    have hdata : drivenData i (commandPort i) f (inTransaction s (commandPort i)) = r.data := by
      rw [drivenData, hv', hf]
    rw [readTransaction, sampleRead_of_selects .taken (.inl rfl) _ _ _ s ht rfl]
    change { s with ports := s.ports.set _ (ensureSample
      (dataSample (drivenData i (commandPort i) f (inTransaction s (commandPort i)))) _) } = _
    rw [hdata, sampled]
    congr 2
    cases hs : (port s (commandPort i)).sample with
    | none => simp [ensureSample, hs, sampledUnit]
    | some x => simp [ensureSample, hs]

end

/-! ### The refusals of a slot write (R7 to R9) -/

/-- R7's checks in their order, with the parameters' own check. -/
def writeRefusal (s : Part) (p : Port) (i : Nat) (good : Bool) : Option ResultCode :=
  if 28 ≤ i then some .badParam
  else if (s.rights.records.get p).mask.getLsbD i = false then some .denied
  else if good = false then some .badParam
  else if (slot s i).showing ≠ 0 then some .slotBusy
  else if (slot s i).state = .filling ∧ (slot s i).writer = some (peer p) then some .slotOwned
  else none

theorem slotWriteChecked_eq (p : Port) (i : Nat) (good : Bool) (places : List (Option Nat × Byte)) (s : Part) :
    slotWriteChecked p i good places s = match writeRefusal s p i good with
      | some c => (s, some { code := c })
      | none => (takeWrite p i places s, some { code := if places.any (fun x => x.1.isNone) then .clipped else .ok }) := by
  simp only [slotWriteChecked, writeRefusal, maskHolds, Bool.not_eq_true']
  split_ifs <;> rfl

theorem slotWriteChecked_of_refusal {p : Port} {i : Nat} {good : Bool} {s : Part} {c : ResultCode}
    (h : writeRefusal s p i good = some c) (places : List (Option Nat × Byte)) :
    slotWriteChecked p i good places s = (s, some { code := c }) := by
  rw [slotWriteChecked_eq, h]

theorem runValid_eq (offset : Word) (data : List Byte) :
    (decide (offset.toNat < Config.imageBytes) && !data.isEmpty) = decide (offset.toNat < 1038336 ∧ data ≠ []) := by
  cases data <;> simp [Config.imageBytes]

theorem rectValid_eq (bc row bw h : Half) (data : List Byte) :
    (decide (bc.toNat < Config.rowBytes) && decide (row.toNat < Config.panelRows) && decide (bw ≠ 0) && decide (h ≠ 0)
      && !data.isEmpty) = decide (bc.toNat < 624 ∧ row.toNat < 1664 ∧ bw ≠ 0 ∧ h ≠ 0 ∧ data ≠ []) := by
  cases data <;> simp [Config.rowBytes, Config.panelRows, Bool.and_assoc]

/-- Settles O3: both commands make R7's checks on the part in its transaction, where they find what they find now. -/
theorem slotWriteRefusals : Obligations.SlotWriteRefusals := by
  intro p i s ht ho v refusal
  have hrefused (good : Bool) (places : List (Option Nat × Byte)) (c : ResultCode) (hc : refusal good = some c) :
      settleWith p (slotWriteChecked p i.toNat good places (inTransaction s.part p))
        = { s.part with ports := answered s.part p { code := c } } := by
    rw [slotWriteChecked_of_refusal (s := inTransaction s.part p) (c := c) hc, settleWith_some, settle_inTransaction]
  refine ⟨fun offset data c hc => exec_of_part ?_, fun bc row bw h data c hc => exec_of_part ?_⟩
  · rw [partAfter_of_free (p := p) (f := writeRunTo p i offset data) (fun _ => rfl) rfl ht rfl (.inr rfl) ho, writeRunTo, runValid_eq,
      hrefused _ _ c hc]
  · rw [partAfter_of_free (p := p) (f := writeRectTo p i bc row bw h data) (fun _ => rfl) rfl ht rfl (.inr rfl) ho, writeRectTo,
      rectValid_eq, hrefused _ _ c hc]

/-! ### SLOT POST, SLOT DISCARD and SLOT RETAIN (R11 to R13) -/

theorem flagOf_eq (b : Byte) : flagOf b = if b.toNat ≤ 1 then some (decide (b.toNat = 1)) else none := by
  unfold flagOf
  generalize b.toNat = n
  match n with
  | 0 => rfl
  | 1 => rfl
  | n + 2 =>
    rw [if_neg (by omega)]
    rfl

/-- Settles O5: each command's chain of tests, on the part in its transaction. -/
theorem slotPostDiscardRetain : Obligations.SlotPostDiscardRetain := by
  constructor
  · intro tx i key s ht hx ho v refused
    rw [exec_eq_partAfter, partAfter_of_free (i := .slotPost tx i key) (p := tx.port) (f := postSlot tx.port i key)
      (fun _ => rfl) rfl ht hx (.inr rfl) ho]
    have hpost : postSlot tx.port i key (inTransaction s.part tx.port)
        = if 28 ≤ i.toNat then (inTransaction s.part tx.port, some { code := .badParam })
          else if (s.part.rights.records.get tx.port).mask.getLsbD i.toNat = false then
            (inTransaction s.part tx.port, some { code := .denied })
          else if v.state = .filling ∧ v.writer = some tx.port then
            (backlogService (setSlot i.toNat { v with state := .ready, key := some key } (inTransaction s.part tx.port)),
              some { code := .ok })
          else (inTransaction s.part tx.port, some { code := .badState }) := by
      unfold postSlot
      simp only [Bool.not_eq_true']
      rfl
    rw [hpost]
    split_ifs
    · exact next_settled rfl
    · exact next_settled rfl
    · rfl
    · exact next_settled rfl
  · intro tx i flag s ht hx ho v answer closed
    constructor
    · rw [exec_eq_partAfter, partAfter_of_free (i := .slotDiscard tx i) (p := tx.port) (f := discardSlot tx.port i)
        (fun _ => rfl) rfl ht hx (.inr rfl) ho]
      have hdiscard : discardSlot tx.port i (inTransaction s.part tx.port)
          = if 28 ≤ i.toNat then (inTransaction s.part tx.port, some { code := .badParam })
            else if (s.part.rights.records.get tx.port).mask.getLsbD i.toNat = false then
              (inTransaction s.part tx.port, some { code := .denied })
            else if v.showing ≠ 0 then (inTransaction s.part tx.port, some { code := .slotBusy })
            else (setSlot i.toNat { emptySlot with retain := v.retain } (inTransaction s.part tx.port),
              some { code := .ok }) := by
        unfold discardSlot
        simp only [Bool.not_eq_true']
        rfl
      rw [hdiscard]
      simp only [closed]
      split_ifs <;> exact next_settled rfl
    · rw [exec_eq_partAfter, partAfter_of_free (i := .slotRetain tx i flag) (p := tx.port) (f := retainSlot tx.port i flag)
        (fun _ => rfl) rfl ht hx (.inr rfl) ho]
      simp only [retainSlot, flagOf_eq, maskHolds_inTransaction, Bool.not_eq_true', Config.pageSlots, closed, v]
      split_ifs <;> exact next_settled rfl

/-! ### The reads of images (R14, R15) -/

theorem readLength_eq (o n : Nat) : readLength o n = if 1038336 < o + n then 1038336 - o else n := by
  unfold readLength Config.imageBytes
  split <;> omega

theorem imageReply_eq (i o n : Nat) (s : Part) (ho : o < 1038336) :
    imageReply i o n s = { code := if 1038336 < o + n then .clipped else .ok, data := (List.range (if 1038336 < o + n then 1038336 - o else n)).map fun j => seen s i (o + j) } := by
  have hclip : (if 1038336 < o + n then 1038336 - o else n) < n ↔ 1038336 < o + n := by
    split <;> omega
  simp only [imageReply, seenRun, readLength_eq, hclip]

theorem rangeValid_iff (o n : Nat) : rangeValid o n = true ↔ o < 1038336 ∧ n ≠ 0 := by
  simp [rangeValid, Config.imageBytes]

/-- Settles O6: a range in the image is answered as `imageReply_eq` gives it, and any other with BAD_PARAM. -/
theorem imageReads : Obligations.ImageReads := by
  intro p i offset length s ht o n bytes result answers
  have hresult (bad : Bool) (k : Nat) : (if bad = false ∧ rangeValid o n = true then imageReply k o n (inTransaction s.part p)
      else { code := .badParam }) = result bad k := by
    by_cases hrange : rangeValid o n = true
    · obtain ⟨ho, hn⟩ := (rangeValid_iff o n).mp hrange
      have hgood : (decide (1038336 ≤ o) || decide (n = 0)) = false := by simp [ho, hn]
      cases bad with
      | true => simp [result]
      | false =>
        simp only [result, Bool.or_assoc, hgood, hrange, Bool.or_false, Bool.false_eq_true, if_false, and_self, if_true]
        exact imageReply_eq k o n _ ho
    · have hrefused : (decide (1038336 ≤ o) || decide (n = 0)) = true := by
        rw [rangeValid_iff] at hrange
        simp only [Bool.or_eq_true, decide_eq_true_eq]
        omega
      simp [result, Bool.or_assoc, hrefused, hrange]
  constructor
  · have hf : slotReadReply i offset length (inTransaction s.part p) = result (decide (28 ≤ i.toNat)) i.toNat := by
      rw [← hresult, slotReadReply]
      congr 1
      simp [Config.pageSlots, o, n]
    obtain ⟨hd, hs⟩ := read_of_pass (i := .slotRead ⟨p, .deselect⟩ i offset length) (f := replyWith (slotReadReply i offset length))
      rfl ht rfl (verdict_of_free _ _ _ (.inl rfl)) rfl (congrArg (fun r => (inTransaction s.part p, some r)) hf)
    exact ⟨exec_of_part hd, exec_of_part hs⟩
  · have hf : shownReadReply offset length (inTransaction s.part p) = result false 28 := by
      rw [← hresult, shownReadReply]
      simp [o, n]
    obtain ⟨hd, hs⟩ := read_of_pass (i := .shownRead ⟨p, .deselect⟩ offset length) (f := replyWith (shownReadReply offset length))
      rfl ht rfl (verdict_of_free _ _ _ (.inl rfl)) rfl (congrArg (fun r => (inTransaction s.part p, some r)) hf)
    exact ⟨exec_of_part hd, exec_of_part hs⟩

end Sys2Proof.Machine
end

section
/-! PROOFS. How an event steps: an event of a running part comes down to what its block makes of the part. With it, HOLD
entry (R17, R114, R115), the changes at the inputs and the key presses (R20 to R22). -/

namespace Sys2Proof.Machine

/-! ### The step of an event -/

section

variable {i : Instr} {f : Part → Part} {s : State}

/-- An event of a part that runs. -/
theorem exec_of_alive (hi : ∀ s, partAfter i s = whileRunning f s) (ha : alive s.part = true) :
    exec i s = .next { s with part := f s.part } := by
  rw [exec_eq_partAfter, hi, whileRunning, if_pos ha]

/-- An event of a part that does not run (log entry 9). -/
theorem exec_of_not_alive (hi : ∀ s, partAfter i s = whileRunning f s) (ha : alive s.part = false) : exec i s = .next s := by
  rw [exec_eq_partAfter, hi, whileRunning, if_neg (by simp [ha])]

end

/-- A debouncer's event, where its candidate waits for it. -/
theorem afterDebounce_of_candidate {v : Bool} {get : Debouncers → Debouncer} {set : Debouncer → Debouncers → Debouncers}
    {f : Part → Part} {s : Part} (h : (get s.debounce).candidate = some v) :
    afterDebounce v get set f s = f { s with debounce := set { level := v, candidate := none } s.debounce } := by
  rw [afterDebounce, if_pos h]
  rfl

theorem afterDebounce_of_other {v : Bool} {get : Debouncers → Debouncer} {set : Debouncer → Debouncers → Debouncers}
    {f : Part → Part} {s : Part} (h : (get s.debounce).candidate ≠ some v) : afterDebounce v get set f s = s := by
  rw [afterDebounce, if_neg h]

/-! ### HOLD entry (R17, R114, R115) -/

theorem Both.forall_iff {α : Type} {x : Both α} {P : α → Prop} : (∀ p, P (x.get p)) ↔ P x.a ∧ P x.b :=
  ⟨fun h => ⟨h .A, h .B⟩, fun h p => by cases p; exacts [h.1, h.2]⟩

theorem queuedFetch_isNone_iff {x : FetchBuffer} :
    (queuedFetch x).isNone = true ↔ ∀ r o n, x ≠ .waiting r o n true := by
  unfold queuedFetch
  split
  · simp
  · next h => simpa using fun r o n => h r o n

theorem engineQuiet_iff {e : Engine} :
    engineQuiet e = true ↔ (∀ l, l ∈ e.lanes.toList → l = none) ∧ e.queue = [] ∧ e.release = [] := by
  have hlanes : anyLane e = false ↔ ∀ l, l ∈ e.lanes.toList → l = none := by
    simp only [anyLane, List.any_eq_false, Bool.not_eq_true, Option.isSome_eq_false_iff, Option.isNone_iff_eq_none]
  simp only [engineQuiet, Bool.and_eq_true, Bool.not_eq_true', hlanes, List.isEmpty_iff, and_assoc]

theorem flashQuiet_iff {s : Part} :
    flashQuiet s = true ↔ s.flash.running = none ∧ s.flash.journal.batch = [] ∧ s.flash.journal.compaction = none
      ∧ s.flash.system = [] ∧ s.flash.recovery = none ∧ ∀ p r o n, (port s p).fetch ≠ .waiting r o n true := by
  have hports : (∀ p r o n, (port s p).fetch ≠ .waiting r o n true)
      ↔ (queuedFetch s.ports.a.fetch).isNone = true ∧ (queuedFetch s.ports.b.fetch).isNone = true := by
    simp only [queuedFetch_isNone_iff]
    exact Both.forall_iff (P := fun u : PortUnit => ∀ r o n, u.fetch ≠ .waiting r o n true)
  rw [hports]
  simp only [flashQuiet, engineIdle, Bool.and_eq_true, List.isEmpty_iff, Option.isNone_iff_eq_none]
  tauto

theorem ringQuiet_iff {s : Part} :
    ringQuiet s = true ↔ ∀ e, e ∈ s.spool.ring → e.state ≠ .full ∧ e.state ≠ .programming := by
  simp only [ringQuiet, List.all_eq_true, decide_eq_true_eq]
  refine forall₂_congr fun e _ => ?_
  cases e.state <;> simp

theorem recordsQuiet_iff {s : Part} :
    recordsQuiet s = true ↔ ∀ r, r < 32 → (record s r).state ≠ .opened ∧ (record s r).state ≠ .sealing := by
  simp only [recordsQuiet, List.all_eq_true, Bool.and_eq_true, decide_eq_true_eq]
  constructor
  · intro h r hr
    have hget : record s r = s.spool.records.toList[r]'(by simpa using hr) := by
      simp [record, tableGet, List.getD, hr]
    rw [hget]
    exact h _ (List.getElem_mem _)
  · intro h v hv
    obtain ⟨r, hr, rfl⟩ := List.mem_iff_getElem.mp hv
    have hr' : r < 32 := by simpa using hr
    have hget : record s r = s.spool.records.toList[r] := by simp [record, tableGet, List.getD, hr']
    exact hget ▸ h r hr'

theorem portsQuiet_iff {s : Part} : portsQuiet s = true ↔ ∀ p, (port s p).line = .deselected := by
  simp only [portsQuiet, Bool.and_eq_true, decide_eq_true_eq]
  exact (Both.forall_iff (P := fun u : PortUnit => u.line = .deselected)).symm

theorem holdsPage_iff {v : Slot} : holdsPage v = true ↔ v.state = .ready ∨ v.state = .filling := by simp [holdsPage]

/-- The content of the segments of `ks` gone (R18). -/
theorem read_dropSegments (x : Nat) (ks : List Nat) (m : List Host.Cell) :
    Memory.read (ks.foldl dropSegment m) x = if x / 4194304 ∈ ks then Memory.unlisted else Memory.read m x := by
  induction ks generalizing m with
  | nil => simp
  | cons k ks ih =>
    rw [List.foldl_cons, ih, dropSegment, Memory.read_clear]
    have hin : dramAddress (4 * k) 0 ≤ x ∧ x < dramAddress (4 * k + 4) 0 ↔ x / 4194304 = k := by
      simp only [dramAddress, Config.slotBytes]
      omega
    by_cases hk : x / 4194304 = k <;> simp [hin, hk]

theorem cell_computeRetention (s : Part) {i a : Nat} (ha : a < 1048576)
    (hk : i / 4 ∈ retainedSegments s) : cell (computeRetention s) i a = cell s i a := by
  have hseg : dramAddress i a / 4194304 = i / 4 := by
    simp only [dramAddress, Config.slotBytes]
    omega
  simp only [cell, computeRetention]
  rw [read_dropSegments, if_neg]
  simp [hseg, hk]

theorem mem_retainedSegments {s : Part} {k : Nat} :
    k ∈ retainedSegments s ↔ k < 8 ∧ (k = 7 ∨ ∃ j, j < 4 ∧ keepsSegment s (4 * k + j) = true) := by
  simp [retainedSegments]

/-- Settles O7: the quiet test is taken apart condition by condition, and the retained set is read slot by slot and byte by
byte. -/
theorem holdEntryRetention : Obligations.HoldEntryRetention := by
  intro s ha
  have hstep : exec .holdEntry s = .next { s with part := enterHold s.part } := exec_of_alive (fun _ => rfl) ha
  refine ⟨?_, fun hq => ?_, fun hq => ?_⟩
  · simp only [quiet, Bool.and_eq_true, decide_eq_true_eq, Bool.not_eq_true', engineQuiet_iff, flashQuiet_iff, ringQuiet_iff,
      recordsQuiet_iff, portsQuiet_iff, lightDark, and_assoc]
  · rw [hstep, enterHold, if_neg (by simp [hq])]
  · intro wanted kept
    have hkept {k : Nat} (hk : k < 8) : k ∈ retainedSegments s.part ↔ kept k := by
      rw [mem_retainedSegments]
      simp only [kept, wanted, keepsSegment, Bool.and_eq_true, Bool.or_eq_true, decide_eq_true_eq, holdsPage_iff, hk,
        true_and, or_assoc]
      rfl
    rw [enterHold, if_pos hq] at hstep
    refine ⟨_, hstep, rfl, ⟨retainedSegments s.part, rfl, fun k => ?_⟩, fun i hi => ⟨fun hk => ⟨?_, fun a hlt => ?_⟩, fun hk => ?_⟩⟩
    · constructor
      · intro hk
        have hlt := (mem_retainedSegments.mp hk).1
        exact ⟨hlt, (hkept hlt).mp hk⟩
      · exact fun hk => (hkept hk.1).mpr hk.2
    · exact (slot_computeRetention s.part i hi).trans (if_pos ((hkept (by omega)).mpr hk))
    · exact cell_computeRetention s.part hlt ((hkept (by omega)).mpr hk)
    · refine (slot_computeRetention s.part i hi).trans ((if_neg fun h => hk ((hkept (by omega)).mp h)).trans ?_)
      simp only [dropSlot, holdsPage_iff]
      rfl

/-! ### Inputs and keys (R20 to R22, R119, R191) -/

theorem exec_inputChange (x : Input) (s : State) :
    exec (.inputChange x) s = .next { s with part := { s.part with pins := inputPins x s.part.pins, debounce := if alive s.part = true then inputDebounce x s.part.debounce else s.part.debounce } } := by
  rw [exec_eq_partAfter]
  have halive : alive { s.part with pins := inputPins x s.part.pins } = alive s.part := by
    have hreset : (inputPins x s.part.pins).resetLow = s.part.pins.resetLow := by
      cases x with
      | turnKey k v => cases k <;> rfl
      | _ => rfl
    simp only [alive, hreset]
  change Host.Outcome.next { s with part := whileRunning (modifyDebounce (inputDebounce x)) { s.part with pins := inputPins x s.part.pins } } = _
  rw [whileRunning, halive]
  split <;> rfl

/-- Settles O9: an input's change by the input, a key's press by the power state. -/
theorem keysAndInputs : Obligations.KeysAndInputs := by
  refine ⟨fun s v p => ?_, fun k s ha => ?_⟩
  · intro d n c answer
    exact ⟨exec_inputChange _ s, exec_inputChange _ s, exec_inputChange _ s, exec_inputChange _ s, exec_inputChange _ s,
      exec_inputChange _ s, fun x => exec_inputChange _ s, fun x => exec_inputChange _ s⟩
  intro settled
  refine ⟨fun hc hf => ?_, fun hc => ?_⟩
  · have hset : { s.part with debounce := setKey k { level := true, candidate := none } s.part.debounce } = settled true := by
      cases k <;> rfl
    have hstep : exec (.keyPress k) s = .next { s with part := keyAction k (settled true) } := by
      rw [exec_of_alive (f := afterDebounce true (fun d => keyOf d k) (setKey k) (unlessForced (keyAction k))) (fun _ => rfl) ha,
        afterDebounce_of_candidate hc, hset, unlessForced, if_neg]
      change ¬ s.part.power.forcedOff = true
      simp [hf]
    have hstate : (settled true).power.state = s.part.power.state := rfl
    refine ⟨fun h => ?_, fun h => ?_, fun h hk => ?_⟩
    · rw [hstep]
      unfold keyAction
      rw [hstate]
      rcases h with h | h <;> rw [h]
    · rw [hstep]
      unfold keyAction
      rw [hstate]
      rcases h with h | h <;> rw [h]
    · subst hk
      rw [hstep]
      unfold keyAction
      rw [hstate, h]
      rfl
  · rw [exec_of_alive (f := afterDebounce false (fun d => keyOf d k) (setKey k) id) (fun _ => rfl) ha,
      afterDebounce_of_candidate hc]
    cases k <;> rfl

end Sys2Proof.Machine
end

section
/-! PROOFS. The steps of the cursor (R23, R26), the FWD and BACK presses (R21, R26, R30), render-ahead (R33), backlog
service (R31) and the placing of a TURN entry (R27, R28). -/

namespace Sys2Proof.Machine

/-! ### The steps of the cursor -/

/-- A step that lands has a cursor to step from. -/
theorem cursor_of_entryAt {t : Turn} {d : Int} {e : Nat} (h : entryAt t d = some e) :
    ∃ i : Nat, t.cursor = some i ∧ 0 ≤ (i : Int) + d := by
  unfold entryAt at h
  split at h
  · cases h
  · next i hi =>
    split at h
    · next hd => exact ⟨i, hi, hd⟩
    · cases h

/-- From a cursor that moved, the entries lie `d` steps further. -/
theorem entryAt_of_moved {t u : Turn} {i : Nat} {d : Int} (hc : t.cursor = some i) (hd : 0 ≤ (i : Int) + d)
    (hl : u.list = t.list) (hu : u.cursor = some ((i : Int) + d).toNat) (x : Int) : entryAt u x = entryAt t (d + x) := by
  simp only [entryAt, hc, hu, hl]
  rw [Int.toNat_of_nonneg hd, add_assoc]

/-- A step that does not fail: its entry is READY (R26, tests 1 to 3). -/
theorem stepFailure_eq_none {d : Int} {s : Part} :
    stepFailure d s = none ↔ ∃ e, entryAt s.turn d = some e ∧ (slot s e).state = .ready := by
  unfold stepFailure
  cases entryAt s.turn d with
  | none => simp
  | some e =>
    cases he : (slot s e).state <;> simp [he]

/-- Why the entry `x` stops a step (R26, tests 1 to 3). -/
def stopReason (s : Part) : Option Nat → StarveReason
  | none => .endOfList
  | some e => if (slot s e).state = .lost then .lost else .notReady

theorem stepFailure_eq_some {d : Int} {s : Part} (h : stepFailure d s ≠ none) :
    stepFailure d s = some (stopReason s (entryAt s.turn d), entryAt s.turn d) := by
  cases he : entryAt s.turn d with
  | none => simp [stepFailure, he, stopReason]
  | some e =>
    simp only [stepFailure, he, stopReason, ne_eq] at h ⊢
    revert h
    cases (slot s e).state <;> simp

/-- The step failure depends on the list, the cursor and the slots only. -/
theorem stepFailure_of_moved {s t : Part} {i : Nat} {d : Int} (hc : s.turn.cursor = some i) (hd : 0 ≤ (i : Int) + d)
    (hl : t.turn.list = s.turn.list) (hu : t.turn.cursor = some ((i : Int) + d).toNat) (hs : t.store = s.store) (x : Int) :
    stepFailure x t = stepFailure (d + x) s := by
  have hslot (k : Nat) : slot t k = slot s k := by simp only [slot, hs]
  simp only [stepFailure, entryAt_of_moved hc hd hl hu, hslot]

/-- A TURN entry submitted from the entry at the cursor (R27). -/
theorem submitTurn_of_entry {s : Part} {e : Nat} (h : entryAt s.turn 0 = some e) :
    submitTurn s = modifyEngine (placeTurn e s.turn.mode) s := by
  simp only [submitTurn, cursorSlot, h]

theorem roomForTurn_iff {e : Engine} : roomForTurn e = false ↔
    16 ≤ (e.queue.filter fun u => decide (u.origin ≠ .power)).length ∧ ∀ u, u ∈ e.queue → u.origin ≠ .turn := by
  simp [roomForTurn, ordinaryPlaces]

theorem tableHeld_iff {s : Part} : tableHeld s = true ↔ (slot s 29).state = .ready := decide_eq_true_iff

/-! ### The FWD and BACK presses (R21, R26, R30) -/

/-- R30: the backlog moved, saturating at 8 in either direction. -/
theorem addBacklog_eq (d : Int) (t : Turn) :
    addBacklog d t = { t with backlog := if 8 < t.backlog + d then 8 else if t.backlog + d < -8 then -8 else t.backlog + d } := by
  have hsat : max (-8) (min 8 (t.backlog + d))
      = if 8 < t.backlog + d then 8 else if t.backlog + d < -8 then -8 else t.backlog + d := by
    split_ifs <;> omega
  rw [addBacklog, hsat]

/-- R26, tests 1 to 3: a turn that its step stops. -/
theorem turn_of_stopped {d : Int} {s : Part} (h : stepFailure d s ≠ none) :
    turn d s = starve d (stopReason s (entryAt s.turn d)) (entryAt s.turn d) (modifyTurn (setBacklog d) s) := by
  rw [turn, stepFailure_eq_some h]

/-- R26, tests 4 to 6: a turn to a READY entry. -/
theorem turn_of_ready {d : Int} {s : Part} {e : Nat} (he : entryAt s.turn d = some e) (hr : (slot s e).state = .ready) :
    turn d s = if tableHeld s = false then starve d .noWaveform (some e) s
      else if roomForTurn s.engine = false then starve d .queue (some e) s
      else renderAhead d (modifyEngine (placeTurn e s.turn.mode) (modifyTurn (moveCursor d) s)) := by
  obtain ⟨i, hc, hd⟩ := cursor_of_entryAt he
  have hcursor : entryAt (modifyTurn (moveCursor d) s).turn 0 = some e := by
    change entryAt (moveCursor d s.turn) 0 = some e
    rw [entryAt_of_moved (u := moveCursor d s.turn) hc hd rfl (by simp [moveCursor, hc]), add_zero, he]
  have hplaced : submitTurn (modifyTurn (moveCursor d) s)
      = modifyEngine (placeTurn e s.turn.mode) (modifyTurn (moveCursor d) s) := submitTurn_of_entry hcursor
  rw [turn, stepFailure_eq_none.mpr ⟨e, he, hr⟩]
  simp only [readyTurn, Bool.not_eq_true', he, hplaced]

/-- Settles O10: with a backlog the press moves it; without one, each branch is the one that the entry's state and the two
tests of a READY entry give. -/
theorem turnPressDecides : Obligations.TurnPressDecides := by
  intro back s k d ha hf hs hc q t backlogged starved ports16
  have hstep : exec (.keyPress k) s = .next { s with part := turnPress d q } := by
    have hq : exec (.keyPress k) s = .next { s with part := keyAction k q } := by
      rw [exec_of_alive (f := afterDebounce true (fun d => keyOf d k) (setKey k) (unlessForced (keyAction k))) (fun _ => rfl) ha,
        afterDebounce_of_candidate hc, unlessForced, if_neg]
      change ¬ s.part.power.forcedOff = true
      simp [hf]
    have hactive : q.power.state = .active := hs
    rw [hq]
    unfold keyAction
    rw [hactive]
    cases back <;> rfl
  have hpress : turnPress d q = if t.backlog = 0 then turn d q else backlogged (addBacklog d t).backlog := by
    unfold turnPress
    rfl
  refine ⟨fun hb => ?_, fun hb => ?_⟩
  · rw [hstep, hpress, if_neg hb, addBacklog_eq]
  · have hstarve (b : Int) (r : StarveReason) (x : Option Nat) :
        starve d r x { q with turn := { t with backlog := b } } = starved b (byteOf (starveCode r)) x := rfl
    have hrest : q = { q with turn := { t with backlog := 0 } } := by
      rw [← hb]
    have hstopped (r : StarveReason) (x : Option Nat) (hx : entryAt t d = x) (hn : stepFailure d q ≠ none)
        (hr : stopReason q x = r) : turn d q = starved d (byteOf (starveCode r)) x := by
      subst hr hx
      rw [turn_of_stopped hn]
      rfl
    rw [hstep, hpress, if_pos hb]
    cases he : entryAt t d with
    | none => rw [hstopped .endOfList none he (by simp [stepFailure_eq_none, q, he, t]) rfl]; rfl
    | some e =>
      have hslot : slot q e = slot s.part e := rfl
      have hfailed (h : (slot s.part e).state ≠ .ready) : stepFailure d q ≠ none := by
        rw [ne_eq, stepFailure_eq_none]
        rintro ⟨x, hx, hr⟩
        obtain rfl := Option.some.inj (he.symm.trans hx)
        exact h hr
      dsimp only
      cases hst : (slot s.part e).state with
      | lost => rw [hstopped .lost (some e) he (hfailed (by simp [hst])) (by simp [stopReason, hslot, hst])]; rfl
      | empty => rw [hstopped .notReady (some e) he (hfailed (by simp [hst])) (by simp [stopReason, hslot, hst])]; rfl
      | filling => rw [hstopped .notReady (some e) he (hfailed (by simp [hst])) (by simp [stopReason, hslot, hst])]; rfl
      | ready =>
        have htable : tableHeld q = false ↔ (slot s.part 29).state ≠ .ready := by
          rw [← Bool.not_eq_true, tableHeld_iff]
          rfl
        have hroom : roomForTurn q.engine = false ↔ ports16 := roomForTurn_iff
        rw [turn_of_ready (s := q) he hst]
        simp only [htable, hroom]
        split_ifs
        · rw [hrest]
          rfl
        · rw [hrest]
          rfl
        · rfl

/-! ### Render-ahead (R33) -/

/-- A count of leading elements stops at the first that does not have the property. -/
theorem length_takeWhile_spec {α : Type} (p : α → Bool) (xs : List α) :
    (xs.takeWhile p).length ≤ xs.length
      ∧ (∀ k (h : k < xs.length), k < (xs.takeWhile p).length → p xs[k] = true)
      ∧ ∀ h : (xs.takeWhile p).length < xs.length, p xs[(xs.takeWhile p).length] = false := by
  have hlen : (xs.takeWhile p).length = xs.findIdx fun a => !p a := by
    rw [List.takeWhile_eq_take_findIdx_not, List.length_take, min_eq_left List.findIdx_le_length]
  simp only [hlen]
  refine ⟨List.findIdx_le_length, fun k _ hk => ?_, fun h => ?_⟩
  · simpa using List.not_of_lt_findIdx hk
  · simpa using List.findIdx_getElem (w := h)

/-- R33: the entries ahead of the cursor are counted up to the first that is missing or not READY. -/
theorem aheadCount_spec (d : Int) (s : Part) :
    aheadCount d s ≤ s.turn.lookahead
      ∧ (∀ k, 1 ≤ k → k ≤ aheadCount d s → stepFailure ((k : Int) * d) s = none)
      ∧ (aheadCount d s < s.turn.lookahead → stepFailure (((aheadCount d s + 1 : Nat) : Int) * d) s ≠ none) := by
  obtain ⟨hle, hin, hout⟩ := length_takeWhile_spec (fun k : Nat => decide (stepFailure ((k + 1 : Nat) * d) s = none))
    (List.range s.turn.lookahead)
  simp only [List.length_range, List.getElem_range, decide_eq_true_eq, decide_eq_false_iff_not] at hle hin hout
  refine ⟨hle, fun k h1 hk => ?_, hout⟩
  obtain ⟨j, rfl⟩ : ∃ j, k = j + 1 := ⟨k - 1, by omega⟩
  exact hin j (Nat.lt_of_lt_of_le hk hle) hk

/-! ### Backlog service (R31) -/

/-- R31, step 3: the cursor after `n` steps. -/
def movedBy (i : Nat) (d : Int) (n : Nat) (s : Part) : Part :=
  { s with turn := { s.turn with cursor := some ((i : Int) + n * d).toNat, backlog := s.turn.backlog - n * d } }

theorem stepFailure_movedBy {s : Part} {i : Nat} {d : Int} {n : Nat} (hc : s.turn.cursor = some i)
    (hn : 0 ≤ (i : Int) + n * d) (x : Int) : stepFailure x (movedBy i d n s) = stepFailure (n * d + x) s :=
  stepFailure_of_moved (t := movedBy i d n s) hc hn rfl rfl rfl x

/-- R31, step 3: the cursor is stepped over the READY entries, as many as the count allows. -/
theorem serveSteps_spec (d : Int) (n : Nat) :
    ∀ (s : Part) (i : Nat), s.turn.cursor = some i →
      ∃ m, m ≤ n ∧ 0 ≤ (i : Int) + m * d ∧ (∀ k : Nat, 1 ≤ k → k ≤ m → stepFailure ((k : Int) * d) s = none)
        ∧ (m < n → stepFailure (((m + 1 : Nat) : Int) * d) s ≠ none) ∧ serveSteps d n s = movedBy i d m s := by
  induction n with
  | zero =>
    intro s i hc
    refine ⟨0, le_rfl, by simp, fun k h1 h2 => absurd h1 (by omega), fun h => absurd h (by omega), ?_⟩
    simp [serveSteps, movedBy, ← hc]
  | succ n ih =>
    intro s i hc
    by_cases hf : stepFailure d s = none
    · obtain ⟨e, he, _⟩ := stepFailure_eq_none.mp hf
      obtain ⟨j, hj, hd⟩ := cursor_of_entryAt he
      obtain rfl : i = j := Option.some.inj (hc.symm.trans hj)
      have hone : modifyTurn (fun t => setBacklog (t.backlog - d) (moveCursor d t)) s = movedBy i d 1 s := by
        simp [modifyTurn, setBacklog, moveCursor, movedBy, hc]
      obtain ⟨m, hle, hnn, hready, hstop, hres⟩ := ih (movedBy i d 1 s) ((i : Int) + (1 : Nat) * d).toNat rfl
      have hd1 : 0 ≤ (i : Int) + (1 : Nat) * d := by simpa using hd
      have hcast (k : Nat) : ((1 : Nat) : Int) * d + (k : Int) * d = ((k + 1 : Nat) : Int) * d := by
        push_cast
        ring
      have hpos : (i : Int) + ((m + 1 : Nat) : Int) * d = (((i : Int) + (1 : Nat) * d).toNat : Int) + m * d := by
        rw [Int.toNat_of_nonneg hd1]
        push_cast
        ring
      refine ⟨m + 1, by omega, by rw [hpos]; exact hnn, fun k h1 hk => ?_, fun h => ?_, ?_⟩
      · obtain ⟨j, rfl⟩ : ∃ j, k = j + 1 := ⟨k - 1, by omega⟩
        rcases Nat.eq_zero_or_pos j with rfl | hj
        · simpa using hf
        · rw [← hcast, ← stepFailure_movedBy hc hd1]
          exact hready j hj (by omega)
      · have := hstop (by omega)
        rwa [stepFailure_movedBy hc hd1, hcast] at this
      · rw [serveSteps, hf, hone, hres]
        simp only [movedBy, ← hpos]
        congr 2
        push_cast
        ring
    · refine ⟨0, by omega, by simp, fun k h1 h2 => absurd h1 (by omega), fun _ => by simpa using hf, ?_⟩
      rw [serveSteps, stepFailure_eq_some hf]
      simp [movedBy, ← hc]

/-- R27 and R28: where a TURN entry is placed, every other waiting TURN-origin update is gone. -/
theorem placeTurn_lanes (source : Nat) (mode : Mode) (e : Engine) :
    (placeTurn source mode e).lanes = tableMap (Option.map fun l => { l with followUps := l.followUps.filter fun u => decide (u.origin ≠ .turn) }) e.lanes := by
  simp only [placeTurn, enqueue, removeTurn, otherTurn]
  congr 1
  funext l
  cases l with
  | none => rfl
  | some l => simp

theorem otherTurn_none (u : Update) : (!otherTurn none u) = decide (u.origin ≠ .turn) := by simp [otherTurn]

/-- Settles O11: the counts of render-ahead and of backlog service stop at the first entry that fails, and a placing filters
each collection. -/
theorem backlogAndRenderAhead : Obligations.BacklogAndRenderAhead := by
  refine ⟨fun d s hd hlen => ?_, fun s i hc => ?_, fun source mode e => ?_⟩
  · intro ready
    obtain ⟨hle, hin, hout⟩ := aheadCount_spec d s
    refine ⟨aheadCount d s, hle, fun k h1 h2 => stepFailure_eq_none.mp (hin k h1 h2),
      fun h hr => hout h (stepFailure_eq_none.mpr hr), ?_⟩
    have hbeyond : entriesBeyond d s.turn = match s.turn.cursor with
        | none => 0
        | some i => if d = 1 then s.turn.list.length - 1 - i else i := by
      unfold entriesBeyond
      cases s.turn.cursor with
      | none => rfl
      | some i =>
        dsimp only
        rcases hd with rfl | rfl <;> rfl
    rw [renderAhead, hbeyond]
    rfl
  · intro t d ready
    have hready (k : Nat) : ready k ↔ stepFailure ((k : Int) * d) s = none := stepFailure_eq_none.symm
    have hfirst : ready 1 ↔ stepFailure d s = none := by simpa using hready 1
    have hsign : d = 0 ↔ t.backlog = 0 := Int.sign_eq_zero_iff_zero
    have htable : tableHeld s = true ↔ (slot s 29).state = .ready := tableHeld_iff
    refine ⟨fun h => ?_, fun hb hr hh => ?_, fun hb hr hh hroom => ?_, fun hb hr hh hroom => ?_⟩
    · rw [backlogService]
      rcases h with h | h
      · exact if_pos (hsign.mpr h)
      · by_cases h0 : d = 0
        · exact if_pos h0
        · rw [if_neg h0, if_pos (by rwa [ne_eq, ← hfirst])]
    · rw [backlogService, if_neg (hsign.not.mpr hb), if_neg (by simpa using hfirst.mp hr), if_pos (by rw [Bool.not_eq_true', ← Bool.not_eq_true, htable]; exact hh)]
    · rw [backlogService, if_neg (hsign.not.mpr hb), if_neg (by simpa using hfirst.mp hr), if_neg (by rw [Bool.not_eq_true', ← Bool.not_eq_true, htable]; exact not_not.mpr hh),
        if_pos (by simp [hroom])]
    · obtain ⟨n, hle, hnn, hsteps, hstop, hmoved⟩ := serveSteps_spec d t.backlog.natAbs s i hc
      have hpos : 1 ≤ n := by
        by_contra h0
        obtain rfl : n = 0 := by omega
        refine hstop (by omega) ?_
        simpa using hfirst.mp hr
      obtain ⟨e, he, _⟩ := stepFailure_eq_none.mp (hsteps n hpos le_rfl)
      refine ⟨n, e, hpos, hle, fun k h1 hk => (hready k).mpr (hsteps k h1 hk), fun h hx => hstop h ((hready _).mp hx), he, ?_⟩
      intro moved shown
      have hcursor : entryAt (movedBy i d n s).turn 0 = some e := by
        rw [entryAt_of_moved (u := (movedBy i d n s).turn) hc hnn rfl rfl, add_zero]
        exact he
      have hserved : backlogService s = reportRemainder d shown := by
        rw [backlogService, if_neg (hsign.not.mpr hb), if_neg (by simpa using hfirst.mp hr),
          if_neg (by rw [Bool.not_eq_true', ← Bool.not_eq_true, htable]; exact not_not.mpr hh), if_neg (by simp [hroom]), hmoved, submitTurn_of_entry hcursor]
        rfl
      have hshown : shown.turn = moved.turn ∧ shown.store = moved.store := by
        simp only [shown, renderAhead]
        split <;> exact ⟨rfl, rfl⟩
      have hleft : shown.turn.backlog = 0 ↔ n = t.backlog.natAbs := by
        rw [hshown.1]
        change t.backlog - n * t.backlog.sign = 0 ↔ _
        rcases lt_trichotomy t.backlog 0 with h | h | h
        · rw [Int.sign_eq_neg_one_of_neg h]
          omega
        · exact absurd h hb
        · rw [Int.sign_eq_one_of_pos h]
          omega
      have hnext : stepFailure d shown = stepFailure (((n + 1 : Nat) : Int) * d) s := by
        rw [stepFailure_of_moved (t := shown) hc hnn (by rw [hshown.1]) (by rw [hshown.1]) hshown.2]
        congr 1
        push_cast
        ring
      rw [hserved, reportRemainder]
      by_cases hn : n = t.backlog.natAbs
      · rw [if_pos (hleft.mpr hn), if_pos hn]
      · rw [if_neg (hleft.not.mpr hn), if_neg hn, hnext, stepFailure_eq_some (hstop (by omega))]
        rfl
  · intro kept t
    have hlane (x : Engine) (i : Nat) : x.lanes.toList.getD i none = laneAt x i := by
      rw [laneAt, List.getD_eq_getElem?_getD]
      cases x.lanes.toList[i]? <;> rfl
    refine ⟨?_, fun i hi => ?_⟩
    · simp only [t, kept, placeTurn, enqueue, removeTurn, otherTurn_none]
      rfl
    · rw [hlane, hlane, laneAt_map _ (placeTurn_lanes source mode e)]
      cases laneAt e i <;> rfl

end Sys2Proof.Machine
end

section
/-! PROOFS. UPDATE SUBMIT (R39 to R42), the settings commands (R25, R80, R84 to R87, R107), and the ticks and samples
(R71, R89, R91, R129, R150, R183). -/

namespace Sys2Proof.Machine

/-! ### UPDATE SUBMIT (R39 to R42) -/

theorem modeOf_eq (b : Byte) :
    modeOf b = if b.toNat ≤ 2 then some (if b.toNat = 0 then .full else if b.toNat = 1 then .gray else .quick) else none := by
  unfold modeOf
  generalize b.toNat = n
  match n with
  | 0 => rfl
  | 1 => rfl
  | 2 => rfl
  | n + 3 =>
    rw [if_neg (by omega)]
    rfl

/-- The covering entry nearest the head absorbs (R41). -/
theorem absorb_of_split {u c : Update} {before after : List Update} (hc : covers c u = true)
    (hb : ∀ x, x ∈ before → covers x u = false) :
    absorb u (before ++ c :: after) = some (before ++ { c with notify := c.notify || u.notify } :: after, c.tag) := by
  induction before with
  | nil => simp [absorb, hc]
  | cons x before ih =>
    have hx : covers x u = false := hb x (by simp)
    simp only [List.cons_append, absorb, hx, Bool.false_eq_true, if_false]
    rw [ih fun y hy => hb y (by simp [hy])]
    rfl

theorem absorb_eq_none {u : Update} {q : List Update} (h : ∀ x, x ∈ q → covers x u = false) : absorb u q = none := by
  induction q with
  | nil => rfl
  | cons x q ih =>
    have hx : covers x u = false := h x (by simp)
    simp only [absorb, hx, Bool.false_eq_true, if_false]
    rw [ih fun y hy => h y (by simp [hy])]
    rfl

theorem covers_iff {c u : Update} : covers c u = true ↔ c.origin = u.origin ∧ c.source = u.source
    ∧ (c.rect.xs ≤ u.rect.xs ∧ u.rect.xe ≤ c.rect.xe ∧ c.rect.ys ≤ u.rect.ys ∧ u.rect.ye ≤ c.rect.ye)
    ∧ modeCode c.mode ≤ modeCode u.mode := by
  simp [covers, Rect.contains, atLeastAsStrong, and_assoc]

/-- The update that a legal submission asks for (R39, R40). -/
def submission (p : Port) (i : Byte) (x0 y0 w h : Half) (mode tag notify : Byte) : Update :=
  { origin := .port p, source := i.toNat, rect := normalize x0.toNat y0.toNat w.toNat h.toNat, mode := if mode.toNat = 0 then .full else if mode.toNat = 1 then .gray else .quick, tag := tag, notify := decide (notify.toNat = 1), serial := 0 }

/-- R39's checks in their order. -/
def submitRefusal (s : Part) (p : Port) (i : Byte) (x0 y0 w h : Half) (mode notify : Byte) : Option ResultCode :=
  if 28 ≤ i.toNat ∨ 2 < mode.toNat ∨ 1 < notify.toNat then some .badParam
  else if (s.rights.records.get p).mask.getLsbD i.toNat = false then some .denied
  else if s.power.asleep = true then some .badState
  else if w = 0 ∨ h = 0 ∨ 1248 ≤ x0.toNat ∨ 1664 ≤ y0.toNat then some .emptyRegion
  else if (slot s 29).state ≠ .ready then some .noWaveform
  else none

theorem regionEmpty_iff (x0 y0 w h : Half) :
    regionEmpty x0.toNat y0.toNat w.toNat h.toNat = true ↔ w = 0 ∨ h = 0 ∨ 1248 ≤ x0.toNat ∨ 1664 ≤ y0.toNat := by
  have hzero (v : Half) : v.toNat = 0 ↔ v = 0 := by
    rw [← BitVec.toNat_inj]
    rfl
  simp [regionEmpty, Config.panelColumns, Config.panelRows, hzero, or_assoc]

/-- What a submission that no check refuses does (R41, R42). -/
def placeSubmission (u : Update) (clamped : Bool) (s : Part) : Part × Option Reply :=
  match absorb u s.engine.queue with
  | some (queue, t) => (modifyEngine (fun e => { e with queue := queue }) s, some { code := .absorbed, value := t.setWidth 32 })
  | none =>
      if 16 ≤ ordinaryPlaces s.engine then (s, some { code := .queueFull })
      else (modifyEngine (enqueue u) s, some { code := if clamped then .clipped else .ok })

theorem submitUpdate_eq (p : Port) (i : Byte) (x0 y0 w h : Half) (mode tag notify : Byte) (s : Part) :
    submitUpdate p i x0 y0 w h mode tag notify s = match submitRefusal s p i x0 y0 w h mode notify with
      | some c => (s, some { code := c })
      | none => placeSubmission (submission p i x0 y0 w h mode tag notify) (regionClamped x0.toNat y0.toNat w.toNat h.toNat) s := by
  have htable : tableHeld s = false ↔ (slot s 29).state ≠ .ready := by rw [← Bool.not_eq_true, tableHeld_iff]
  by_cases hm : mode.toNat ≤ 2
  · by_cases hn : notify.toNat ≤ 1
    · have hbad : (28 ≤ i.toNat ∨ 2 < mode.toNat ∨ 1 < notify.toNat) ↔ 28 ≤ i.toNat := by omega
      simp only [submitUpdate, submitRefusal, modeOf_eq, flagOf_eq, if_pos hm, if_pos hn, Config.pageSlots, hbad, maskHolds,
        Bool.not_eq_true', regionEmpty_iff, htable]
      change ite _ _ (ite _ _ (ite _ _ (ite _ _ (ite _ _ (placeSubmission (submission p i x0 y0 w h mode tag notify)
        (regionClamped x0.toNat y0.toNat w.toNat h.toNat) s))))) = _
      split_ifs <;> rfl
    · rw [submitRefusal, if_pos (by omega)]
      simp only [submitUpdate, modeOf_eq, flagOf_eq, if_pos hm, if_neg hn]
  · rw [submitRefusal, if_pos (by omega)]
    simp only [submitUpdate, modeOf_eq, if_neg hm]

theorem submitUpdate_of_refusal {p : Port} {i : Byte} {x0 y0 w h : Half} {mode notify : Byte} {s : Part} {c : ResultCode}
    (hc : submitRefusal s p i x0 y0 w h mode notify = some c) (tag : Byte) :
    submitUpdate p i x0 y0 w h mode tag notify s = (s, some { code := c }) := by
  rw [submitUpdate_eq, hc]

theorem submitUpdate_of_taken {p : Port} {i : Byte} {x0 y0 w h : Half} {mode notify : Byte} {s : Part}
    (hc : submitRefusal s p i x0 y0 w h mode notify = none) (tag : Byte) :
    submitUpdate p i x0 y0 w h mode tag notify s
      = placeSubmission (submission p i x0 y0 w h mode tag notify) (regionClamped x0.toNat y0.toNat w.toNat h.toNat) s := by
  rw [submitUpdate_eq, hc]

/-- Settles O12: R39's checks by `submitRefusal`, the absorption and the placing by the queue's covering entries. -/
theorem updateSubmitResult : Obligations.UpdateSubmitResult := by
  intro tx i x0 y0 w h mode tag notify s ht hx hp ho e refused m q covering
  have hstep : exec (.updateSubmit tx i x0 y0 w h mode tag notify) s = .next { s with part := settleWith tx.port (submitUpdate tx.port i x0 y0 w h mode tag notify (inTransaction s.part tx.port)) } := by
    rw [exec_eq_partAfter, partAfter_of_permits (i := .updateSubmit tx i x0 y0 w h mode tag notify) (p := tx.port)
      (f := submitUpdate tx.port i x0 y0 w h mode tag notify) (fun _ => rfl) rfl ht hx rfl hp ho]
  have hrefused (c : ResultCode) (hc : submitRefusal s.part tx.port i x0 y0 w h mode notify = some c) : refused c := by
    have hc' : submitRefusal (inTransaction s.part tx.port) tx.port i x0 y0 w h mode notify = some c := hc
    change exec _ s = _
    rw [hstep, submitUpdate_of_refusal hc']
    exact next_settled rfl
  by_cases h1 : 28 ≤ i.toNat ∨ 2 < mode.toNat ∨ 1 < notify.toNat
  · rw [if_pos h1]
    exact hrefused _ (if_pos h1)
  rw [if_neg h1]
  by_cases h2 : (s.part.rights.records.get tx.port).mask.getLsbD i.toNat = false
  · rw [if_pos h2]
    exact hrefused _ (by rw [submitRefusal, if_neg h1, if_pos h2])
  rw [if_neg h2]
  by_cases h3 : s.part.power.asleep = true
  · rw [if_pos h3]
    exact hrefused _ (by rw [submitRefusal, if_neg h1, if_neg h2, if_pos h3])
  rw [if_neg h3]
  by_cases h4 : w = 0 ∨ h = 0 ∨ 1248 ≤ x0.toNat ∨ 1664 ≤ y0.toNat
  · rw [if_pos h4]
    exact hrefused _ (by rw [submitRefusal, if_neg h1, if_neg h2, if_neg h3, if_pos h4])
  rw [if_neg h4]
  by_cases h5 : (slot s.part 29).state ≠ .ready
  · rw [if_pos h5]
    exact hrefused _ (by rw [submitRefusal, if_neg h1, if_neg h2, if_neg h3, if_neg h4, if_pos h5])
  rw [if_neg h5]
  have htaken : submitRefusal (inTransaction s.part tx.port) tx.port i x0 y0 w h mode notify = none :=
    show submitRefusal s.part tx.port i x0 y0 w h mode notify = none by
      rw [submitRefusal, if_neg h1, if_neg h2, if_neg h3, if_neg h4, if_neg h5]
  rw [submitUpdate_of_taken htaken] at hstep
  have hcovers (c : Update) : covers c (submission tx.port i x0 y0 w h mode tag notify) = true ↔ covering c := covers_iff
  have hcovers' (c : Update) (hc : ¬ covering c) : covers c (submission tx.port i x0 y0 w h mode tag notify) = false := by
    rw [← Bool.not_eq_true, hcovers]
    exact hc
  constructor
  · intro before c after hq hc hb
    have habsorb : absorb (submission tx.port i x0 y0 w h mode tag notify) (inTransaction s.part tx.port).engine.queue
        = some (before ++ { c with notify := c.notify || decide (notify.toNat = 1) } :: after, c.tag) := by
      have hq' : (inTransaction s.part tx.port).engine.queue = before ++ c :: after := hq
      rw [hq']
      exact absorb_of_split ((hcovers c).mpr hc) fun x hx => hcovers' x (hb x hx)
    rw [hstep, placeSubmission, habsorb]
    exact next_settled rfl
  · intro hnone
    have habsorb : absorb (submission tx.port i x0 y0 w h mode tag notify) (inTransaction s.part tx.port).engine.queue = none :=
      absorb_eq_none fun x hx => hcovers' x (hnone x hx)
    have hfull : 16 ≤ ordinaryPlaces (inTransaction s.part tx.port).engine
        ↔ 16 ≤ (e.queue.filter fun u => decide (u.origin ≠ .power)).length := Iff.rfl
    rw [placeSubmission, habsorb] at hstep
    simp only [hfull] at hstep
    split
    · next hf =>
      change exec _ s = _
      rw [hstep, if_pos hf]
      exact next_settled rfl
    · next hf =>
      have hclamped : (if regionClamped x0.toNat y0.toNat w.toNat h.toNat then ResultCode.clipped else .ok)
          = if 1248 < x0.toNat + w.toNat ∨ 1664 < y0.toNat + h.toNat then .clipped else .ok := by
        simp [regionClamped, Config.panelColumns, Config.panelRows]
      rw [hstep, if_neg hf, hclamped]
      exact next_settled rfl

end Sys2Proof.Machine
end

section
/-! PROOFS. The notice unit (R192 to R194): what a raise and a clearing leave of a port, a run of raises of one kind, NOTICE
READ and NOTICE MASK. -/

namespace Sys2Proof.Machine

/-! ### Pending kinds -/

theorem kindIndex_lt (k : NoticeKind) : kindIndex k < 15 := by cases k <;> decide

theorem kindIndex_inj {j k : NoticeKind} : kindIndex j = kindIndex k ↔ j = k := by
  constructor
  · intro h
    revert h
    cases j <;> cases k <;> decide
  · exact fun h => h ▸ rfl

@[simp] theorem notice_setNotice_same (k : NoticeKind) (v : Option Notice) (u : NoticeUnit) :
    notice (setNotice k v u) k = v :=
  tableGet_tableSet_same _ _ _ _ (kindIndex_lt k)

theorem notice_setNotice_other {j k : NoticeKind} (h : j ≠ k) (v : Option Notice) (u : NoticeUnit) :
    notice (setNotice k v u) j = notice u j :=
  tableGet_tableSet_other _ _ _ _ _ fun e => h (kindIndex_inj.mp e.symm)

theorem tableSet_get {α : Type} {n : Nat} (t : Vector α n) {i : Nat} {v : α} (hi : i < n) (h : tableGet t i v = v) :
    tableSet t i v = t := by
  have hget : t[i] = v := by
    rw [tableGet_of_lt t i v hi] at h
    exact h
  apply Vector.toList_inj.mp
  rw [tableSet_toList]
  apply List.ext_getElem
  · simp
  · intro j h1 h2
    rw [List.getElem_set]
    split
    · next hj =>
      subst hj
      simpa using hget.symm
    · rfl

/-- A kind that is not pending is cleared already. -/
theorem setNotice_none {k : NoticeKind} {u : NoticeUnit} (h : notice u k = none) : setNotice k none u = u := by
  rw [setNotice, tableSet_get _ (kindIndex_lt k) h]

@[simp] theorem port_modifyPort_same (p : Port) (f : PortUnit → PortUnit) (s : Part) : port (modifyPort p f s) p = f (port s p) :=
  Both.get_modify_same _ _ _

@[simp] theorem port_modifyPort_peer (p : Port) (f : PortUnit → PortUnit) (s : Part) :
    port (modifyPort p f s) (peer p) = port s (peer p) :=
  Both.get_modify_peer _ _ _

theorem mem_allKinds (k : NoticeKind) : k ∈ allKinds := by cases k <;> decide

/-! ### A run of raises of one kind -/

/-- The raises of one kind with these details, in order. -/
def raiseAll (k : NoticeKind) (ds : List (List Byte)) (u : PortUnit) : PortUnit := ds.foldl (fun u d => raiseIn k d u) u

/-- A run of raises changes the pending records and the sample's count only. -/
theorem raiseAll_frame (k : NoticeKind) (ds : List (List Byte)) (u : PortUnit) :
    raiseAll k ds u = { u with notices := { u.notices with pending := (raiseAll k ds u).notices.pending }, sample := (raiseAll k ds u).sample } := by
  induction ds generalizing u with
  | nil => rfl
  | cons d ds ih =>
    rw [raiseAll, List.foldl_cons, ← raiseAll, ih]
    rfl

theorem raiseAll_sample (k : NoticeKind) (ds : List (List Byte)) (u : PortUnit) :
    (raiseAll k ds u).sample = u.sample.map fun x => if x.kind = some k then { x with raises := x.raises + ds.length } else x := by
  induction ds generalizing u with
  | nil => cases h : u.sample <;> simp [raiseAll, h]
  | cons d ds ih =>
    rw [raiseAll, List.foldl_cons, ← raiseAll, ih]
    cases h : u.sample with
    | none => simp [raiseIn, h]
    | some x =>
      by_cases hk : x.kind = some k <;> simp [raiseIn, h, countRaise, hk]
      omega

theorem notice_raiseAll_other {j k : NoticeKind} (h : j ≠ k) (ds : List (List Byte)) (u : PortUnit) :
    notice (raiseAll k ds u).notices j = notice u.notices j := by
  induction ds generalizing u with
  | nil => rfl
  | cons d ds ih =>
    rw [raiseAll, List.foldl_cons, ← raiseAll, ih]
    exact notice_setNotice_other h _ _

/-- How often a kind has been raised. -/
def countOf (n : Option Notice) : Nat := (n.map Notice.count).getD 0

/-- The last detail stays, and the count rises by the raises, up to 255 (R192). -/
theorem notice_raiseAll_same (k : NoticeKind) (ds : List (List Byte)) (d : List Byte) (u : PortUnit) :
    notice (raiseAll k (ds ++ [d]) u).notices k
      = some { detail := padTo 8 d, count := min 255 (countOf (notice u.notices k) + (ds.length + 1)) } := by
  induction ds generalizing u with
  | nil =>
    rw [List.nil_append, raiseAll, List.foldl_cons, List.foldl_nil]
    simp only [raiseIn, notice_setNotice_same]
    cases notice u.notices k <;> rfl
  | cons x ds ih =>
    rw [List.cons_append, raiseAll, List.foldl_cons, ← raiseAll, ih]
    simp only [raiseIn, notice_setNotice_same]
    have hcount : countOf (some (raised (notice u.notices k) x)) = min 255 (countOf (notice u.notices k) + 1) := by
      cases notice u.notices k <;> rfl
    rw [hcount, List.length_cons]
    congr 2
    omega

/-! ### NOTICE READ (R193) -/

/-- What a port's unit becomes when a NOTICE READ ends. -/
theorem notice_deselect {x : Line} {p : Port} {s : State} (hx : x = .taken ∨ x = .boot) (hs : selectsAs x s.part p = true) :
    exec (.noticeRead p .deselect) s
      = .next { s with part := { s.part with ports := s.part.ports.set p (finishNotice (unitIn x s.part p)) } } := by
  rw [exec_eq_partAfter]
  change Host.Outcome.next { s with part := transaction p (fun _ s => modifyPort p finishNotice s) s.part } = _
  rcases hx with rfl | rfl
  · rw [transaction_of_takes _ _ _ hs, modifyPort_eq, port_inTransaction]
    simp [inTransaction]
  · rw [transaction_of_boot _ _ _ hs, modifyPort_eq, port_setPorts]
    simp

theorem notice_sample {x : Line} {p : Port} {s : State} (hx : x = .taken ∨ x = .boot) (hs : selectsAs x s.part p = true) :
    exec (.noticeRead p .sample) s = .next { s with part := { s.part with ports := s.part.ports.set p (ensureSample (noticeSample (unitIn x s.part p).notices) (unitIn x s.part p)) } } := by
  rw [exec_eq_partAfter]
  change Host.Outcome.next { s with part := sampleRead 2 p (fun s => noticeSample (port s p).notices) s.part } = _
  rw [sampleRead_of_selects x hx 2 p _ _ hs (by rcases hx with rfl | rfl <;> rfl), port_setPorts]

@[simp] theorem unitIn_notices (x : Line) (s : Part) (p : Port) : (unitIn x s p).notices = (port s p).notices := by
  unfold unitIn
  split <;> rfl

theorem readable_iff {u : NoticeUnit} {k : NoticeKind} :
    readable u k = true ↔ notice u k ≠ none ∧ u.enables.getLsbD (kindIndex k) = true := by
  simp [readable, isPending, kindEnabled, Option.isSome_iff_ne_none]

/-- The kind a read returns is the readable one of highest priority (R193). -/
theorem nextNotice_of_first {u : NoticeUnit} {k : NoticeKind} (hk : readable u k = true)
    (hj : ∀ j, kindIndex j < kindIndex k → readable u j = false) : nextNotice u = some k := by
  have hkinds : allKinds.Pairwise fun a b => kindIndex a < kindIndex b := by decide
  obtain ⟨before, after, hsplit⟩ := List.append_of_mem (mem_allKinds k)
  rw [hsplit] at hkinds
  rw [nextNotice, hsplit, List.find?_append, List.find?_eq_none.mpr, List.find?_cons_of_pos hk]
  · rfl
  · intro j hjb
    rw [hj j ((List.pairwise_append.mp hkinds).2.2 j hjb k (by simp))]
    simp

theorem nextNotice_of_none {u : NoticeUnit} (h : ∀ k, readable u k = false) : nextNotice u = none :=
  List.find?_eq_none.mpr fun k _ => by simp [h k]

/-- Settles O51: raises and clearings by the kind's own record, NOTICE READ by what its sample holds, NOTICE MASK by its two
tests. -/
theorem noticeUnitRules : Obligations.NoticeUnitRules := by
  refine ⟨fun p k detail s => ?_, fun x p s hx hs => ?_, fun tx enables master s ht hx => ?_⟩
  · intro u t c counted
    have ht : port t p = raiseIn k detail u := port_modifyPort_same _ _ _
    have hc : port c p = clearIn k u := port_modifyPort_same _ _ _
    refine ⟨⟨?_, fun j hj => ?_, ?_⟩, ⟨?_, fun j hj => ?_, ?_⟩, fun x hx => ?_⟩
    · rw [ht, raiseIn, notice_setNotice_same]
      cases notice u.notices k <;> rfl
    · rw [ht]
      exact notice_setNotice_other hj _ _
    · rw [ht]
      rfl
    · rw [hc]
      exact notice_setNotice_same _ _ _
    · rw [hc]
      exact notice_setNotice_other hj _ _
    · rw [hc]
      rfl
    · rcases hx with rfl | rfl
      · exact ⟨rfl, port_modifyPort_peer _ _ _, by rw [ht]; rfl⟩
      · exact ⟨rfl, port_modifyPort_peer _ _ _, by rw [hc]; rfl⟩
  · intro u readable' unit
    have hread (k : NoticeKind) : readable u.notices k = true ↔ readable' k := readable_iff
    have hunread {k : NoticeKind} (h : ¬ readable' k) : readable u.notices k = false := by
      rw [← Bool.not_eq_true, hread]
      exact h
    have hdeselect := notice_deselect hx hs
    have hsample := notice_sample hx hs
    have hnone (h : ∀ k, ¬ readable' k) : noticeSample u.notices = { data := [0] ++ List.replicate 9 0xFF, kind := none, raises := 0 } := by
      have hnext := nextNotice_of_none fun k => hunread (h k)
      simp only [noticeSample, noticeBytes, hnext]
      rfl
    have hsome {k : NoticeKind} {n : Notice} (hn : notice u.notices k = some n) (hk : readable' k)
        (hj : ∀ j, kindIndex j < kindIndex k → ¬ readable' j) :
        noticeSample u.notices = { data := [byteOf (kindIndex k + 1), byteOf n.count] ++ n.detail, kind := some k, raises := 0 } := by
      have hnext := nextNotice_of_first ((hread k).mpr hk) fun j h => hunread (hj j h)
      simp only [noticeSample, noticeBytes, hnext, hn]
    have hfinish (y : ReadSample) (hy : u.sample.getD (noticeSample u.notices) = y) :
        finishNotice (unitIn x s.part p) = { unitIn x s.part p with line := .deselected, sample := none, notices := readNotice y u.notices, lastResult := .ok, lastValue := 0, data := y.data } := by
      simp only [finishNotice, unitIn_sample, unitIn_notices]
      rw [show (port s.part p).sample.getD (noticeSample (port s.part p).notices) = y from hy]
      rfl
    have hfresh (hu : u.sample = none) : u.sample.getD (noticeSample u.notices) = noticeSample u.notices := by
      rw [hu, Option.getD_none]
    have hheld {y : ReadSample} (hu : u.sample = some y) : u.sample.getD (noticeSample u.notices) = y := by
      rw [hu, Option.getD_some]
    have hunit : (unitIn x s.part p).notices = u.notices := unitIn_notices x s.part p
    refine ⟨fun hu h => ?_, fun hu k n hn hk hj => ?_, fun hu h => ?_, fun hu => ?_, fun sent k m hu hn => ?_, fun sent m hu => ?_,
      fun sent k n m hu hn => ?_⟩
    · rw [hdeselect, hfinish _ ((hfresh hu).trans (hnone h))]
      simp only [unit, answeredUnit, sentData, show (port s.part p).sample = none from hu, readNotice, ← hunit]
    · intro bytes
      constructor
      · rw [hdeselect, hfinish _ ((hfresh hu).trans (hsome hn hk hj))]
        simp only [unit, answeredUnit, sentData, show (port s.part p).sample = none from hu, readNotice, if_true]
        rfl
      · rw [hsample, hunit, hsome hn hk hj]
        simp only [ensureSample, unitIn_sample, show (port s.part p).sample = none from hu, Option.isNone_none, if_true]
        rfl
    · rw [hsample, hunit, hnone h]
      simp only [ensureSample, unitIn_sample, show (port s.part p).sample = none from hu, Option.isNone_none, if_true]
      rfl
    · have hsampled : (unitIn x s.part p).sample.isNone = false := by
        rw [unitIn_sample, ← Bool.not_eq_true, Option.isNone_iff_eq_none]
        exact hu
      rw [hsample]
      simp only [ensureSample, hsampled, Bool.false_eq_true, if_false]
      rfl
    · have hkeep : readNotice { data := sent, kind := some k, raises := m } u.notices = u.notices := by
        simp only [readNotice, hn, Option.map_none, ite_self]
        exact setNotice_none hn
      rw [hdeselect, hfinish _ (hheld hu), hkeep, ← hunit]
    · rw [hdeselect, hfinish _ (hheld hu), readNotice, ← hunit]
    · intro left
      rw [hdeselect, hfinish _ (hheld hu)]
      by_cases hm : m = 0
      · simp only [readNotice, left, hm, if_true]
        rfl
      · simp only [readNotice, left, hm, if_false, hn, Option.map_some]
        rfl
  · intro u
    constructor
    · have hmask := partAfter_of_pass_always (i := .noticeMask tx enables master) (p := tx.port) (f := setMask tx.port enables master)
        (fun _ => rfl) rfl ht hx (verdict_of_free _ _ _ (.inl rfl)) rfl
      rw [exec_eq_partAfter, hmask]
      have hbit : enables.getLsbD 15 = true ↔ ¬ enables.toNat < 32768 := by
        have := enables.isLt
        simp only [BitVec.getLsbD, Nat.testBit_eq_decide_div_mod_eq, decide_eq_true_eq]
        omega
      simp only [setMask, flagOf_eq, hbit]
      by_cases hm : master.toNat ≤ 1
      · by_cases he : enables.toNat < 32768
        · have hflag : flagBit 16 u.notices.master = if u.notices.master = true then 65536 else 0 := by
            cases u.notices.master <;> rfl
          simp only [hm, he, if_true, not_true, if_false, and_self, settleWith, settle, modifyPort_eq, port_setPorts,
            port_inTransaction, answeredUnit, unitIn_notices]
          rw [← hflag]
          simp [inTransaction, deselected, sentData, u]
        · simp only [hm, he, if_true, not_false_eq_true, and_false, if_false]
          exact next_settled rfl
      · simp only [hm, if_false, false_and]
        exact next_settled rfl
    · have hany : allKinds.any (readable u.notices) = true
          ↔ ∃ k, notice u.notices k ≠ none ∧ u.notices.enables.getLsbD (kindIndex k) = true := by
        simp only [List.any_eq_true, mem_allKinds, true_and, readable_iff]
      simp only [attention, asserts, Bool.and_eq_true, decide_eq_true_eq, hany, u, and_assoc]

end Sys2Proof.Machine
end

section
/-! PROOFS. The settings commands (R25, R80, R84 to R87, R107), and the ticks and samples (R71, R89, R91, R129, R150, R183). -/

namespace Sys2Proof.Machine

/-! ### The settings commands -/

theorem clamp_one (n hi : Nat) (h : 1 ≤ hi) : min (max n 1) hi = if n = 0 then 1 else if hi < n then hi else n := by
  split_ifs <;> omega

theorem clamp_zero (n hi : Nat) : min n hi = if hi < n then hi else n := by
  split <;> omega

/-- Settles O19: each command's clamps, and the targets that follow the request in ACTIVE. -/
theorem settingsClamp : Obligations.SettingsClamp := by
  refine ⟨fun tx lookahead mode s ht hx hp ho => ?_, fun tx limit s ht hx hp ho => ?_,
    fun tx brightness warmth step s ht hx hp ho => ?_, fun tx r s ht hx hp ho => ?_⟩
  · intro l
    rw [exec_eq_partAfter, partAfter_of_permits (i := .turnSettings tx lookahead mode) (p := tx.port)
      (f := setTurnSettings lookahead mode) (fun _ => rfl) rfl ht hx rfl hp ho]
    simp only [setTurnSettings, modeOf_eq, clamp_one _ 8 (by decide)]
    have hcases : mode.toNat = 0 ∨ mode.toNat = 1 ∨ mode.toNat = 2 ∨ 2 < mode.toNat := by omega
    rcases hcases with h | h | h | h
    · simp only [h, Nat.zero_le, if_true, OfNat.zero_ne_ofNat, zero_ne_one, or_self, if_false]
      exact next_settled rfl
    · simp only [h, one_ne_zero, if_true, if_false, Nat.one_le_ofNat, true_or]
      exact next_settled rfl
    · simp only [h, OfNat.ofNat_ne_zero, OfNat.ofNat_ne_one, le_refl, if_true, if_false, or_true]
      exact next_settled rfl
    · rw [if_neg (show ¬mode.toNat ≤ 2 by omega), if_neg (show ¬(mode.toNat = 1 ∨ mode.toNat = 2) by omega)]
      exact next_settled rfl
  · intro e answer
    constructor
    · rw [exec_eq_partAfter, partAfter_of_permits (i := .ghostSet tx limit) (p := tx.port) (f := setGhostLimit limit)
        (fun _ => rfl) rfl ht hx rfl hp ho, setGhostLimit, clamp_one _ 15 (by decide)]
      exact next_settled rfl
    · rw [exec_eq_partAfter, partAfter_of_permits (i := .ghostClear tx) (p := tx.port) (f := clearGhosts)
        (fun _ => rfl) rfl ht hx rfl hp ho]
      exact next_settled rfl
  · intro b w r limited warm
    have hlit : lit s.part.power = decide (s.part.power.state = .active) := by simp [lit, ho]
    have hlight : retarget (lit s.part.power) (takeRequest brightness.toNat warmth.toNat step.toNat s.part.light)
        = { s.part.light with brightness := b, warmth := w, step := r, warmTarget := if s.part.power.state = .active then warm * 4095 / 1000 else 0, coolTarget := if s.part.power.state = .active then (limited - warm) * 4095 / 1000 else 0 } := by
      rw [hlit, takeRequest, clamp_zero, clamp_zero, clamp_one _ 4095 (by decide)]
      by_cases ha : s.part.power.state = .active
      · simp only [ha, decide_true, retarget, if_true]
        rfl
      · simp only [ha, decide_false, retarget, Bool.false_eq_true, if_false]
        rfl
    rw [exec_eq_partAfter, partAfter_of_permits (i := .lightSet tx brightness warmth step) (p := tx.port)
      (f := setLight brightness warmth step) (fun _ => rfl) rfl ht hx rfl hp ho, ← hlight]
    exact next_settled rfl
  · rw [exec_eq_partAfter, partAfter_of_permits (i := .batterySettings tx r) (p := tx.port) (f := setResistance r)
      (fun _ => rfl) rfl ht hx rfl hp ho, setResistance, clamp_zero]
    exact next_settled rfl

/-! ### The stall tick (R150) -/

/-- Whether a record stalls at this tick. -/
def stallsNow (s : Part) (r : Nat) : Bool := decide ((record s r).state = .opened) && decide (3 ≤ (record s r).stall + 1)

/-- The detail of DOWNLOAD for a record that stalls. -/
def stallDetail (s : Part) (r : Nat) : List Byte := downloadDetail r 0 (record s r).title

/-- One record's part of a stall tick. -/
def stallOne (s : Part) (r : Nat) : Part :=
  let v := record s r
  let v' := stallRecord v
  let s := setRecord r v' s
  if v.state = .opened ∧ v'.state = .stalled then raiseBoth .download (downloadDetail r 0 v.title) s else s

theorem stallTick_eq (s : Part) : stallTick s = (List.range 32).foldl stallOne s := rfl

theorem stallsNow_iff {s : Part} {r : Nat} :
    stallsNow s r = true ↔ (record s r).state = .opened ∧ (stallRecord (record s r)).state = .stalled := by
  simp only [stallsNow, stallRecord, Bool.and_eq_true, decide_eq_true_eq]
  split_ifs with ho h3
  · simp [ho, h3]
  · simp [ho, h3]
  · simp [ho]

theorem stallOne_eq (s : Part) (r : Nat) :
    stallOne s r = if stallsNow s r then raiseBoth .download (stallDetail s r) (setRecord r (stallRecord (record s r)) s)
      else setRecord r (stallRecord (record s r)) s := by
  simp only [stallsNow_iff]
  rfl

theorem stallOne_frame (s : Part) (r : Nat) :
    stallOne s r = { s with ports := (stallOne s r).ports, spool := { s.spool with records := tableSet s.spool.records r (stallRecord (record s r)) } } := by
  rw [stallOne_eq]
  split <;> rfl

theorem record_stallOne_same {s : Part} {r : Nat} (hr : r < 32) : record (stallOne s r) r = stallRecord (record s r) := by
  rw [stallOne_frame]
  exact record_setRecord_same s r _ hr

theorem record_stallOne_other {s : Part} {r q : Nat} (h : r ≠ q) : record (stallOne s r) q = record s q := by
  rw [stallOne_frame]
  exact record_setRecord_other s r q _ h

theorem port_stallOne (s : Part) (r : Nat) (p : Port) :
    port (stallOne s r) p = raiseAll .download (if stallsNow s r then [stallDetail s r] else []) (port s p) := by
  rw [stallOne_eq]
  split
  · cases p <;> rfl
  · rfl

/-- A stall tick over some of the records. -/
theorem foldl_stallOne (rs : List Nat) (hnd : rs.Nodup) (hlt : ∀ r, r ∈ rs → r < 32) (s : Part) :
    rs.foldl stallOne s = { s with ports := (rs.foldl stallOne s).ports, spool := { s.spool with records := (rs.foldl stallOne s).spool.records } }
      ∧ (∀ r, record (rs.foldl stallOne s) r = if r ∈ rs then stallRecord (record s r) else record s r)
      ∧ ∀ p, port (rs.foldl stallOne s) p = raiseAll .download ((rs.filter (stallsNow s)).map (stallDetail s)) (port s p) := by
  induction rs generalizing s with
  | nil => exact ⟨rfl, fun r => by simp, fun p => rfl⟩
  | cons r rs ih =>
    obtain ⟨hr, hnd'⟩ := List.nodup_cons.mp hnd
    obtain ⟨hframe, hrec, hport⟩ := ih hnd' (fun q hq => hlt q (by simp [hq])) (stallOne s r)
    have hother {q : Nat} (hq : q ∈ rs) : record (stallOne s r) q = record s q :=
      record_stallOne_other fun e => hr (e ▸ hq)
    refine ⟨?_, fun q => ?_, fun p => ?_⟩
    · rw [List.foldl_cons, hframe, stallOne_frame]
    · rw [List.foldl_cons, hrec]
      by_cases hq : q ∈ rs
      · simp [hq, hother hq]
      · by_cases he : q = r
        · subst he
          simp [hq, record_stallOne_same (hlt q (by simp))]
        · simp [hq, he, record_stallOne_other (Ne.symm he)]
    · have hfilter : rs.filter (stallsNow (stallOne s r)) = rs.filter (stallsNow s) :=
        List.filter_congr fun q hq => by simp [stallsNow, hother hq]
      have hmap : (rs.filter (stallsNow s)).map (stallDetail (stallOne s r)) = (rs.filter (stallsNow s)).map (stallDetail s) :=
        List.map_congr_left fun q hq => by simp [stallDetail, hother (List.mem_of_mem_filter hq)]
      rw [List.foldl_cons, hport, hfilter, hmap, port_stallOne]
      simp only [raiseAll, ← List.foldl_append]
      congr 1
      cases hst : stallsNow s r <;> simp [hst]

theorem stallRecord_eq (v : Record) : stallRecord v = if v.state = .opened then { v with stall := v.stall + 1, state := if 3 ≤ v.stall + 1 then .stalled else .opened } else v := by
  unfold stallRecord
  by_cases ho : v.state = .opened
  · rw [if_pos ho, if_pos ho]
    split
    · rfl
    · rw [← ho]
  · rw [if_neg ho, if_neg ho]

/-- The last element of a filtered range is the largest number that the filter takes. -/
theorem filter_range_split {p : Nat → Bool} {n x : Nat} (hx : x < n) (hp : p x = true)
    (hlast : ∀ y, x < y → y < n → p y = false) : (List.range n).filter p = (List.range x).filter p ++ [x] := by
  obtain ⟨k, rfl⟩ : ∃ k, n = x + 1 + k := ⟨n - (x + 1), by omega⟩
  have hrest : ((List.range k).map (x + 1 + ·)).filter p = [] := by
    rw [List.filter_eq_nil_iff]
    intro y hy
    obtain ⟨j, hj, rfl⟩ := List.mem_map.mp hy
    simp [hlast (x + 1 + j) (by omega) (by have := List.mem_range.mp hj; omega)]
  rw [List.range_add, List.range_succ, List.filter_append, List.filter_append, List.filter_singleton, hp, hrest,
    List.append_nil]
  rfl

/-- R91: as many steps of a period are high as the applied duty. -/
theorem length_filter_pwmHigh {d n : Nat} (h : d ≤ n) : ((List.range n).filter (pwmHigh d)).length = d := by
  obtain ⟨k, rfl⟩ : ∃ k, n = d + k := ⟨n - d, by omega⟩
  have hhigh : (List.range d).filter (pwmHigh d) = List.range d :=
    List.filter_eq_self.mpr fun x hx => by simpa [pwmHigh] using hx
  have hrest : ((List.range k).map (d + ·)).filter (pwmHigh d) = [] := by
    simp [List.filter_eq_nil_iff, pwmHigh]
  rw [List.range_add, List.filter_append, hhigh, hrest, List.append_nil, List.length_range]

/-- Settles O17: each tick's own operation; the stall tick record by record, its notices as one run of raises. -/
theorem ticksCount : Obligations.TicksCount := by
  refine ⟨fun s ha => ?_, fun s => ?_, fun s ha => ?_, fun s => ?_, fun s ha hf hs => ?_⟩
  · intro p aged nearer
    have haged (r : Option PeerRequest) : tickRequest r = aged r := by
      cases r with
      | none => rfl
      | some x =>
        have hage : min 30 (x.age + 1) = if 30 ≤ x.age + 1 then 30 else x.age + 1 := by split <;> omega
        simp only [tickRequest, Option.map_some, aged, hage]
    have hnear (a : Option Nat) : tickAlarm a = nearer a := by cases a <;> rfl
    rw [exec_of_alive (f := secondTick) (fun _ => rfl) ha]
    simp only [secondTick, ← haged, ← hnear]
    cases hr : s.part.wave.reading <;> simp [modifyRights, modifyWave, modifyPower, hr, p]
  · intro c
    have hclamp : clampTemperature c = if c < -160 then -160 else if 400 < c then 400 else c := by
      unfold clampTemperature
      split_ifs <;> omega
    rw [← hclamp]
    by_cases ha : alive s.part = true
    · rw [exec_of_alive (f := takeTemperature) (fun _ => rfl) ha, takeTemperature]
      have hruns : temperatureRuns s.part = true ↔ alive s.part = true ∧ (s.part.power.state = .active ∨ s.part.power.state = .settling) := by
        simp [temperatureRuns, ha]
      by_cases hr : temperatureRuns s.part = true
      · rw [if_pos hr, if_pos (hruns.mp hr)]
        rfl
      · rw [if_neg hr, if_neg (hruns.not.mp hr)]
    · rw [exec_of_not_alive (f := takeTemperature) (fun _ => rfl) (by simpa using ha), if_neg fun h => ha h.1]
  · intro l moved
    have hmoved (a t : Nat) : rampToward l.step a t = moved a t := by
      simp only [rampToward, moved]
      split_ifs <;> omega
    rw [exec_of_alive (f := modifyLight rampLight) (fun _ => rfl) ha, ← hmoved, ← hmoved]
    rfl
  · exact ⟨fun h => length_filter_pwmHigh (by omega), fun h => length_filter_pwmHigh (by omega)⟩
  · have hcount : stallsCount s.part = true := by
      simp only [stallsCount, hf, Bool.not_false, Bool.true_and, Bool.or_eq_true, decide_eq_true_eq, or_assoc]
      exact hs
    obtain ⟨hframe, hrec, hport⟩ := foldl_stallOne (List.range 32) List.nodup_range (fun r hr => List.mem_range.mp hr) s.part
    rw [← stallTick_eq] at hframe hrec hport
    have hstep : exec .stallTick s = .next { s with part := stallTick s.part } := by
      rw [exec_of_alive (f := takeStallTick) (fun _ => rfl) ha, takeStallTick, if_pos hcount]
    generalize stallTick s.part = after at hframe hrec hport hstep
    refine ⟨_, hstep, ?_, ?_, fun r hr => ?_, ?_⟩
    · rw [hframe]
    · rw [hframe]
    · rw [hrec, if_pos (List.mem_range.mpr hr)]
      exact stallRecord_eq _
    · intro stalls n p u v
      obtain ⟨ds, hds⟩ : ∃ ds, ds = ((List.range 32).filter (stallsNow s.part)).map (stallDetail s.part) := ⟨_, rfl⟩
      have hv : v = raiseAll .download ds u := by
        rw [hds]
        exact hport p
      have hlen : ds.length = n := by
        rw [hds, List.length_map, ← List.countP_eq_length_filter]
        rfl
      have hst (x : Nat) : stallsNow s.part x = true ↔ stalls x := by simp [stallsNow, stalls]
      refine ⟨?_, ?_, ?_, fun k hk => ?_, fun h0 => ?_, fun x hx hxs hlast => ?_⟩
      · rw [hv, raiseAll_frame]
      · rw [hv, raiseAll_frame]
      · rw [hv, raiseAll_sample, hlen]
        cases u.sample <;> rfl
      · rw [hv]
        exact notice_raiseAll_other hk _ _
      · rw [hv, List.length_eq_zero_iff.mp (hlen.trans h0)]
        rfl
      · intro old
        have hsplit := filter_range_split (p := stallsNow s.part) hx ((hst x).mpr hxs) fun y h1 h2 => by
          rw [← Bool.not_eq_true, hst]
          exact hlast y h1 h2
        rw [hsplit, List.map_append, List.map_singleton] at hds
        rw [hv, hds, notice_raiseAll_same]
        have hn : n = (((List.range x).filter (stallsNow s.part)).map (stallDetail s.part)).length + 1 := by
          rw [← hlen, hds, List.length_append]
          rfl
        rw [← hn]
        have hold : countOf (notice u.notices .download) = old := by
          simp only [countOf, old]
          cases notice u.notices .download <;> rfl
        rw [hold]
        rfl

end Sys2Proof.Machine
end

section
/-! PROOFS. Sleep and wake (R112, R113, R117), boot triggers (R106, R125), and the battery sample (R98 to R105). -/

namespace Sys2Proof.Machine

/-! ### Sleep and wake (R112, R113, R117) -/

theorem isReady_iff {s : Part} {i : Nat} : isReady s i = true ↔ (slot s i).state = .ready := decide_eq_true_iff

theorem isReady_eq_false {s : Part} {i : Nat} : isReady s i = false ↔ (slot s i).state ≠ .ready := decide_eq_false_iff_not

theorem tableHeld_eq_false {s : Part} : tableHeld s = false ↔ (slot s 29).state ≠ .ready := decide_eq_false_iff_not

theorem filter_not_otherTurn (us : List Update) :
    (us.filter fun u => !otherTurn none u) = us.filter fun u => decide (u.origin ≠ .turn) :=
  List.filter_congr fun u _ => otherTurn_none u

/-- R45: the waiting TURN-origin update removed. -/
theorem removeTurn_none (e : Engine) :
    removeTurn none e = { e with queue := e.queue.filter fun u => decide (u.origin ≠ .turn), release := e.release.filter fun u => decide (u.origin ≠ .turn), lanes := tableMap (Option.map fun l => { l with followUps := l.followUps.filter fun u => decide (u.origin ≠ .turn) }) e.lanes } := by
  simp only [removeTurn, filter_not_otherTurn]

/-- A wake's targets: those of the request, in ACTIVE (R86, R87, R117). -/
theorem recomputeLight_woken {x : Part} (h : x.power.offPending = false) :
    recomputeLight (setPowerState .active (setAsleep false x))
      = { x with power := { x.power with state := .active, asleep := false }, light := { x.light with warmTarget := shareDuty (warmShare x.light), coolTarget := shareDuty (coolShare x.light) } } := by
  have hlit : lit (setPowerState .active (setAsleep false x)).power = true := by
    change (decide (PowerState.active = .active) && !x.power.offPending) = true
    rw [h]
    rfl
  rw [recomputeLight, hlit]
  rfl

/-- Outside ACTIVE the targets are 0 (R87). -/
theorem recomputeLight_dark {x : Part} (h : lit x.power = false) :
    recomputeLight x = { x with light := { x.light with warmTarget := 0, coolTarget := 0 } } := by
  rw [recomputeLight, h]
  rfl

/-- Leaving HOLD keeps the flag of an entry to OFF. -/
theorem leaveHold_offPending (s : Part) : (leaveHold s).power.offPending = s.power.offPending := by
  rcases leaveHold_cases s with h | ⟨_, h⟩
  · rw [h]
  · rw [h.1]
    rfl

/-- Settles O20: the entry to SETTLING field by field, the wake by state, and the commands through both. -/
theorem sleepAndWake : Obligations.SleepAndWake := by
  refine ⟨fun forOff s => ?_, fun s => ?_, fun tx s ht hx hp ho => ?_⟩
  · intro notTurn e screen
    have hdark : recomputeLight (modifyEngine (removeTurn none) (modifyTurn (setBacklog 0) (setPowerState .settling (setAsleep true s))))
        = { s with power := { s.power with state := .settling, asleep := true }, turn := { s.turn with backlog := 0 }, light := { s.light with warmTarget := 0, coolTarget := 0 }, engine := e } := by
      rw [recomputeLight_dark rfl]
      simp only [modifyEngine, removeTurn_none]
      rfl
    rw [enterSettling]
    simp only [hdark, placeSleepScreen]
    have hplaces : (((s.power.sleepFlag || forOff) && isReady s 31 && tableHeld s) = true)
        ↔ (s.power.sleepFlag = true ∨ forOff = true) ∧ (slot s 31).state = .ready ∧ (slot s 29).state = .ready := by
      simp only [Bool.and_eq_true, Bool.or_eq_true, isReady_iff, tableHeld_iff, and_assoc]
    by_cases hs : (s.power.sleepFlag = true ∨ forOff = true) ∧ (slot s 31).state = .ready ∧ (slot s 29).state = .ready
    · rw [if_pos hs]
      exact if_pos (hplaces.mpr hs)
    · rw [if_neg hs]
      exact if_neg (hplaces.not.mpr hs)
  · intro woken
    have hwoken (x : Part) (hx : x.power.offPending = false) :
        wakeRestore (recomputeLight (setPowerState .active (setAsleep false x))) = woken x := by
      rw [recomputeLight_woken hx]
      simp only [wakeRestore, cursorSlot, Bool.not_eq_true', isReady_eq_false, tableHeld_eq_false, woken]
      by_cases hr : x.power.restoreFlag = false
      · simp only [hr, if_true]
        rfl
      · rw [if_neg hr, if_neg hr]
        cases entryAt x.turn 0 <;> rfl
    unfold wake
    by_cases hoff : s.power.offPending = true
    · rw [if_pos hoff, if_pos hoff]
    · rw [if_neg hoff, if_neg hoff]
      have hoff' : s.power.offPending = false := by simpa using hoff
      cases hst : s.power.state
      case settling =>
        rw [if_pos (.inl rfl), leaveHold_of_ne s (by simp [hst])]
        exact hwoken s hoff'
      case hold =>
        rw [if_pos (.inr rfl)]
        exact hwoken _ ((leaveHold_offPending s).trans hoff')
      all_goals rw [if_neg (by simp)]
  · intro q active
    refine ⟨?_, ?_, ?_⟩
    · rw [exec_eq_partAfter, partAfter_of_permits (i := .sleep tx) (p := tx.port) (f := commandSleep) (fun _ => rfl) rfl ht hx rfl hp ho]
      rfl
    · rw [exec_eq_partAfter, partAfter_of_permits (i := .wake tx) (p := tx.port) (f := commandWake) (fun _ => rfl) rfl ht hx rfl hp ho]
      rfl
    · rw [exec_eq_partAfter, partAfter_of_permits (i := .powerOff tx) (p := tx.port) (f := commandPowerOff) (fun _ => rfl) rfl ht hx rfl hp ho]
      rw [commandPowerOff, settleWith_some]
      have hdark (x : Part) : recomputeLight (modifyPower (fun p => { p with offPending := true }) x)
          = { x with power := { x.power with offPending := true }, light := { x.light with warmTarget := 0, coolTarget := 0 } } := by
        rw [recomputeLight_dark (by simp [lit])]
        rfl
      simp only [hdark]
      rfl

/-! ### A battery sample (R98 to R105) -/

/-- The battery after a sample (R98 to R103). -/
def sampledBattery (s : Part) : Battery :=
  let w := joinWindow (sampleNow s).compensated s.battery.window
  { s.battery with window := w, last := some (sampleNow s), state := settledState (decide (s.power.state = .off)) (w.sum / w.length) s.battery.state }

theorem joinWindow_ne_nil (v : Nat) (w : List Nat) : joinWindow v w ≠ [] := by
  intro h
  have hlen := congrArg List.length h
  simp only [joinWindow, List.length_drop, List.length_append, List.length_cons, List.length_nil] at hlen
  omega

theorem mean_of_window {b : Battery} (h : b.window ≠ []) : mean b = some (b.window.sum / b.window.length) :=
  if_neg (by simpa [List.isEmpty_iff] using h)

theorem takeSample_eq (s : Part) :
    takeSample s = stepFresh (takeBatteryState (sampledBattery s).state s.battery.state { s with battery := sampledBattery s }) := by
  have hmean := mean_of_window (b := { s.battery with window := joinWindow (sampleNow s).compensated s.battery.window, last := some (sampleNow s) })
    (joinWindow_ne_nil (sampleNow s).compensated s.battery.window)
  simp only [takeSample, hmean, Option.getD_some]
  rfl

theorem takeSample_battery (s : Part) : (takeSample s).battery = sampledBattery s := by
  rw [takeSample_eq, takeBatteryState_frame]
  rfl

/-- R125: a mean of 3,450 mV or more admits. -/
theorem admits_takeSample (s : Part) : admits (takeSample s).battery = true
    ↔ 3450 ≤ (takeSample s).battery.window.sum / (takeSample s).battery.window.length := by
  have hwindow : (takeSample s).battery.window ≠ [] := by
    rw [takeSample_battery]
    exact joinWindow_ne_nil _ _
  rw [admits, mean_of_window hwindow, decide_eq_true_eq]
  rfl

/-- R104, R105: a change of state handed to the light and, where it is raised, to the ports. -/
theorem takeBatteryState_of_change {new old : BatteryState} (h : new ≠ old) (s : Part) :
    takeBatteryState new old s =
      if raisesBattery s.power then
        raiseBoth .battery (batteryDetail new old ((mean s.battery).getD 0) s.battery.window.length s.pins.charger)
          (modifyLight (takeCeiling (ceilingOf new) (lit s.power)) s)
      else modifyLight (takeCeiling (ceilingOf new) (lit s.power)) s := by
  rw [takeBatteryState, if_neg h]
  rfl

/-! ### Boot triggers (R106, R125) -/

/-- Settles O23: the trigger, and the events that give one. -/
theorem bootTriggers : Obligations.BootTriggers := by
  intro s trigger
  have htrigger (reason : BootReason) (x : Part) : bootTrigger reason x = trigger reason x := by
    simp only [bootTrigger, trigger, admits_takeSample]
    rfl
  refine ⟨fun reason => htrigger reason s.part, fun ha hb => ?_, fun hc => ?_, rfl⟩
  · rw [exec_of_alive (f := powerHeld1) (fun _ => rfl) ha, powerHeld1, if_pos hb, htrigger]
    rfl
  · rw [exec_eq_partAfter]
    change Host.Outcome.next { s with part := chargerRises s.part } = .next { s with part := if alive s.part = true ∧ s.part.power.forcedOff = false then trigger .charger (setCharger true s.part) else setCharger true s.part }
    rw [chargerRises, if_neg (by simp [hc]), ← htrigger, whileRunning, unlessForced]
    have halive : alive (setCharger true s.part) = alive s.part := rfl
    have hforced : (setCharger true s.part).power.forcedOff = s.part.power.forcedOff := rfl
    rw [halive, hforced]
    cases alive s.part <;> cases s.part.power.forcedOff <;> rfl

/-! ### The battery sample as an event (R88, R98 to R105, R123, R125) -/

theorem settledState_eq (off : Bool) (m : Nat) (p : BatteryState) :
    settledState off m p =
      if off = false ∧ p = .cutoff then .cutoff
      else if m ≤ 3299 then .cutoff
      else if m ≤ 3449 then .critical
      else if m ≤ 3549 then (if p = .critical then .critical else .low)
      else if m ≤ 3649 then (if p = .low ∨ p = .critical then .low else .normal)
      else .normal := by
  simp only [settledState, stateOfMean, show m < 3300 ↔ m ≤ 3299 by omega, show m < 3450 ↔ m ≤ 3449 by omega,
    show m < 3550 ↔ m ≤ 3549 by omega, show m < 3650 ↔ m ≤ 3649 by omega]
  cases off <;> simp

/-- Settles O18: the sample's record, window and state; what a change hands on; and what follows by the power state. -/
theorem batterySampleResult : Obligations.BatterySampleResult := by
  refine ⟨settledState_eq, fun s ha => ⟨flashLoad s.part, ?_, fun x hx => ?_, fun hn => ?_, ?_⟩⟩
  · unfold flashLoad
    split
    · exact .inl rfl
    · split
      · exact .inr rfl
      · exact .inl rfl
  · simp only [flashLoad, hx]
    cases x.operation <;> first | rfl | trivial
  · simp only [flashLoad, hn]
  · intro b l volts lightLoad panel value window m new ceiling limited warm on wt ct cut detail sampled
    have hpanel : panelLoad s.part = panel := by
      have hlanes : anyLane s.part.engine = true ↔ ∃ x, x ∈ s.part.engine.lanes.toList ∧ x ≠ none := by
        simp only [anyLane, List.any_eq_true, Option.isSome_iff_ne_none]
      rw [panelLoad]
      by_cases h : anyLane s.part.engine = true
      · rw [if_pos h]
        exact (if_pos (hlanes.mp h)).symm
      · rw [if_neg h]
        exact (if_neg (hlanes.not.mp h)).symm
    have hsample : sampleNow s.part = { code := s.part.pins.batSense, volts := volts, light := lightLoad, panel := panel, flash := flashLoad s.part, compensated := value } := by
      simp only [sampleNow, hpanel]
      rfl
    have hwindow : joinWindow value s.part.battery.window = window := by
      simp only [joinWindow, List.length_append, List.length_cons, List.length_nil]
      rfl
    have hbattery : sampledBattery s.part = { b with window := window, state := new, last := some { code := s.part.pins.batSense, volts := volts, light := lightLoad, panel := panel, flash := flashLoad s.part, compensated := value } } := by
      simp only [sampledBattery, hsample, hwindow]
      rfl
    have hon : lit s.part.power = decide on := by simp [lit, on]
    have hceiling : ceilingOf new = ceiling := by
      have h (n : BatteryState) : ceilingOf n = match n with
          | .normal => 1000
          | .low => 400
          | .critical => 0
          | .cutoff => 0 := by cases n <;> rfl
      exact h new
    have hlight : takeCeiling (ceilingOf new) (lit s.part.power) s.part.light
        = { l with ceiling := ceiling, warmTarget := wt, coolTarget := ct, warm := cut l.warm wt, cool := cut l.cool ct } := by
      have htarget : retarget (decide on) { l with ceiling := ceiling } = { l with ceiling := ceiling, warmTarget := wt, coolTarget := ct } := by
        by_cases h : on
        · simp only [retarget, h, decide_true, if_true, wt, ct]
          rfl
        · simp only [retarget, h, decide_false, Bool.false_eq_true, if_false, wt, ct]
      change takeCeiling (ceilingOf new) (lit s.part.power) l = _
      rw [hceiling, hon, takeCeiling, htarget]
      by_cases hdrop : ceiling < l.ceiling
      · have hmin (a t : Nat) : min a t = cut a t := by
          simp only [cut, hdrop, true_and]
          split <;> omega
        rw [if_pos hdrop]
        simp only [hmin]
      · simp only [cut, hdrop, if_false, false_and]
    have hraises : raisesBattery s.part.power = true ↔ ¬ (s.part.power.state = .off ∨ s.part.power.forcedOff = true) := by
      simp [raisesBattery]
    have hsampled : takeSample s.part = sampled := by
      rw [takeSample_eq, hbattery]
      change stepFresh (takeBatteryState new b.state _) = _
      by_cases hnew : new = b.state
      · have hkept : takeBatteryState new b.state = id := funext fun x => if_pos hnew
        have hports : (if new = b.state ∨ s.part.power.state = .off ∨ s.part.power.forcedOff = true then s.part.ports
            else ⟨raiseIn .battery detail s.part.ports.a, raiseIn .battery detail s.part.ports.b⟩) = s.part.ports := if_pos (.inl hnew)
        simp only [hkept, sampled, hports, if_pos hnew]
        rfl
      · have hmean : mean { b with window := window, state := new, last := some { code := s.part.pins.batSense, volts := volts, light := lightLoad, panel := panel, flash := flashLoad s.part, compensated := value } } = some m :=
          mean_of_window (hwindow ▸ joinWindow_ne_nil _ _)
        rw [takeBatteryState_of_change hnew]
        simp only [sampled, hmean, if_neg hnew]
        by_cases hr : s.part.power.state = .off ∨ s.part.power.forcedOff = true
        · rw [if_neg (hraises.not.mpr (not_not.mpr hr)), if_pos (.inr hr)]
          simp only [modifyLight, hlight]
          rfl
        · rw [if_pos (hraises.mpr hr), if_neg (by simp only [hnew, false_or]; exact hr)]
          simp only [modifyLight, hlight]
          rfl
    rw [exec_of_alive (f := batteryEvent) (fun _ => rfl) ha]
    simp only [batteryEvent, hsampled]
    have hadmits : admits sampled.battery = true ↔ 3450 ≤ m := by
      rw [← hsampled, admits_takeSample, takeSample_battery, hbattery]
    have hstate : sampled.power = s.part.power := rfl
    have hnew : sampled.battery.state = new := rfl
    simp only [Bool.and_eq_true, hadmits, hstate, hnew, Bool.not_eq_true']
    rfl

end Sys2Proof.Machine
end

section
/-! PROOFS. A port select by power state and the status bytes (R116, R190), the POWER key and the cover (R118, R119), and
POWER POLICY, ALARM SET and an alarm's expiry (R120, R129). -/

namespace Sys2Proof.Machine

/-! ### Select (R116, R190) -/

/-- How a select is answered: ignored where the part does not answer, and by its power state elsewhere (R190). -/
theorem lineAtSelect_eq_ignored {s : Part} :
    lineAtSelect s = .ignored ↔ alive s = false ∨ s.power.forcedOff = true ∨ s.power.state = .off := by
  unfold lineAtSelect
  cases alive s with
  | false => simp
  | true =>
    cases s.power.forcedOff with
    | true => simp
    | false => cases s.power.state <;> simp

theorem lineAtSelect_of_answers {s : Part} (h : ¬ (alive s = false ∨ s.power.forcedOff = true ∨ s.power.state = .off)) :
    lineAtSelect s = match s.power.state with
      | .off => .ignored
      | .boot => .boot
      | .hold => .hold
      | .active => .taken
      | .settling => .taken := by
  simp only [not_or, Bool.not_eq_false, Bool.not_eq_true] at h
  obtain ⟨ha, hf, _⟩ := h
  unfold lineAtSelect
  rw [ha, hf]
  rfl

theorem flagBit_eq (i : Nat) (b : Bool) : flagBit i b = 2 ^ i * b.toNat := by cases b <;> simp [flagBit]

/-- A bit of a number that fits a byte. -/
theorem byteOf_bit {n i : Nat} (hn : n < 256) : (byteOf n).getLsbD i = decide (n / 2 ^ i % 2 = 1) := by
  rw [byteOf, BitVec.getLsbD, BitVec.toNat_ofNat, Nat.mod_eq_of_lt hn, Nat.testBit_eq_decide_div_mod_eq]

theorem toNat_byteOf {n : Nat} (hn : n < 256) : (byteOf n).toNat = n := by
  rw [byteOf, BitVec.toNat_ofNat, Nat.mod_eq_of_lt hn]

theorem powerCode_le (x : PowerState) : powerCode x ≤ 4 := by cases x <;> decide

theorem eq_true_iff_toNat (b : Bool) : b = true ↔ b.toNat = 1 := by cases b <;> simp

theorem byteOf_bit_of {n i : Nat} {b : Bool} (hn : n < 256) (h : n / 2 ^ i % 2 = b.toNat) : (byteOf n).getLsbD i = b := by
  rw [byteOf_bit hn, h]
  cases b <;> rfl

/-- The bits of a byte that is made of four flags and a power state as status byte 1 is (R190). -/
theorem status_bits (a b c d : Bool) (x : PowerState) :
    let v := byteOf (flagBit 0 a + flagBit 1 b + flagBit 2 c + 8 * powerCode x + flagBit 6 d)
    v.getLsbD 0 = a ∧ v.getLsbD 1 = b ∧ v.getLsbD 2 = c ∧ v.toNat / 8 % 8 = powerCode x ∧ v.getLsbD 6 = d ∧ v.getLsbD 7 = false := by
  have ha := Bool.toNat_le a
  have hb := Bool.toNat_le b
  have hc := Bool.toNat_le c
  have hd := Bool.toNat_le d
  have hx := powerCode_le x
  obtain ⟨n, hn⟩ : ∃ n, n = flagBit 0 a + flagBit 1 b + flagBit 2 c + 8 * powerCode x + flagBit 6 d := ⟨_, rfl⟩
  rw [← hn]
  simp only [flagBit_eq] at hn
  have hlt : n < 256 := by omega
  refine ⟨byteOf_bit_of hlt ?_, byteOf_bit_of hlt ?_, byteOf_bit_of hlt ?_, ?_, byteOf_bit_of hlt ?_,
    byteOf_bit_of (b := false) hlt ?_⟩
  · omega
  · omega
  · omega
  · rw [toNat_byteOf hlt]
    omega
  · omega
  · simp only [Bool.toNat_false]
    omega

theorem leaveHold_of_hold {s : Part} (h : s.power.state = .hold) :
    leaveHold s = thenArbitrate (fun s => sampleTemperature (restoreRefresh (setPowerState .settling s))) s := if_pos h

/-- Settles O21: the select by the line that it gives, and the status bytes as sums of flags. -/
theorem portSelectByState : Obligations.PortSelectByState := by
  refine ⟨fun p s => ?_, fun p s => ?_, by decide⟩
  · intro u with_ sampled c
    rw [exec_eq_partAfter]
    change Host.Outcome.next { s with part := selectPort p s.part } = _
    congr 2
    by_cases hline : u.line ≠ .deselected
    · rw [if_pos hline]
      exact selectPort_of_selected s.part p hline
    · rw [if_neg hline]
      have hselect : selectPort p s.part = if lineAtSelect s.part = .ignored then modifyPort p (fun u => { u with line := .ignored }) s.part
          else leaveHold (modifyPort p (fun u => { sampleStatus s.part p u with line := lineAtSelect s.part }) s.part) := by
        rw [selectPort, if_neg hline]
      rw [hselect]
      by_cases hignored : alive s.part = false ∨ s.part.power.forcedOff = true ∨ s.part.power.state = .off
      · rw [if_pos hignored, if_pos (lineAtSelect_eq_ignored.mpr hignored)]
        rfl
      · rw [if_neg hignored, if_neg (lineAtSelect_eq_ignored.not.mpr hignored), lineAtSelect_of_answers hignored]
        have hkept (x : Line) (h : s.part.power.state ≠ .hold) :
            leaveHold (modifyPort p (fun u => { sampleStatus s.part p u with line := x }) s.part) = with_ (sampled x) :=
          leaveHold_of_ne _ h
        cases hst : s.part.power.state
        case off => exact absurd (.inr (.inr hst)) hignored
        case hold =>
          exact (leaveHold_of_hold (s := modifyPort p _ s.part) hst).trans rfl
        all_goals exact hkept _ (by simp [hst])
  · intro b
    obtain ⟨h0, h1, h2, h3, h6, h7⟩ := status_bits (attention s p) (request s p).isSome (fetchReadyFlag (port s p))
      (request s (peer p)).isSome s.power.state
    refine ⟨rfl, h0, h1, h2, h3.trans ?_, h6, h7⟩
    cases s.power.state <;> rfl

/-! ### The POWER key and the cover (R118, R119) -/

theorem unlessForced_of_not {f : Part → Part} {s : Part} (h : s.power.forcedOff = false) : unlessForced f s = f s :=
  if_neg (by simp [h])

theorem sleepRequest_eq (s : Part) : sleepRequest s = if s.power.state = .active then enterSettling false s else s := rfl

/-- A debounced change of the cover (R119). -/
theorem coverAction_eq (closed : Bool) (s : Part) :
    coverAction closed s = match s.power.state with
      | .off => s
      | .boot => s
      | .active => if s.power.coverFlag = true ∧ closed = true then enterSettling false (raise .A .cover [byteOf closed.toNat, 1] s)
          else raise .A .cover [byteOf closed.toNat, 0] s
      | .settling => if s.power.coverFlag = true ∧ closed = false ∧ s.power.offPending = false then
            wake (raise .A .cover [byteOf closed.toNat, 2] s)
          else raise .A .cover [byteOf closed.toNat, 0] s
      | .hold => if s.power.coverFlag = true ∧ closed = false then wake (raise .A .cover [byteOf closed.toNat, 2] s)
          else raise .A .cover [byteOf closed.toNat, 0] s := by
  unfold coverAction coverEffect
  cases hst : s.power.state
  case off => rfl
  case boot => rfl
  all_goals
    cases s.power.coverFlag
    · cases closed <;> rfl
    · cases closed <;> cases s.power.offPending <;> simp [sleepRequest_eq, hst] <;> rfl

/-- A press record that reaches 2 s (R118). -/
theorem powerHeld2_of_press {s : Part} {r : PressRecord} (hr : s.power.press = some r) (hh : r.held = 0) :
    powerHeld2 s =
      (let x : Part := { s with power := { s.power with press := some { r with held := 2000, long := true } } }
       if s.power.state = .active ∧ (r.start = .active ∨ r.start = .asleep) then raisePowerKey 1 x else x) := by
  rw [powerHeld2]
  simp only [hr, hh, ne_eq, not_true, if_false]
  rfl

/-- Settles O22: each moment's own operation, by the press record and the power state. -/
theorem powerKeyAndCover : Obligations.PowerKeyAndCover := by
  refine ⟨fun s ha hf => ?_, fun closed s ha hf hc => ?_⟩
  · intro d q opened
    refine ⟨fun hc => ?_, fun hc => ?_, fun r hr => ⟨fun hh => ?_, fun hh => ?_⟩⟩
    · rw [exec_of_alive (f := afterDebounce true Debouncers.power setPowerKey (unlessForced powerPressAction)) (fun _ => rfl) ha,
        afterDebounce_of_candidate hc, unlessForced_of_not (by exact hf)]
      unfold powerPressAction
      cases hst : s.part.power.state
      case off =>
        rw [← hst]
        rfl
      all_goals rfl
    · rw [exec_of_alive (f := afterDebounce false Debouncers.power setPowerKey (unlessForced powerReleaseAction)) (fun _ => rfl) ha,
        afterDebounce_of_candidate hc, unlessForced_of_not (by exact hf)]
      unfold powerReleaseAction
      cases hp : s.part.power.press with
      | none =>
        rfl
      | some r =>
        simp only [Bool.not_eq_true', sleepRequest_eq]
        rfl
    · rw [exec_of_alive (f := unlessForced powerHeld2) (fun _ => rfl) ha, unlessForced_of_not hf, powerHeld2_of_press hr hh]
      by_cases h : s.part.power.state = .active ∧ (r.start = .active ∨ r.start = .asleep)
      · simp only [raisePowerKey, h.1]
        rfl
      · simp only [if_neg h]
    · rw [exec_of_alive (f := unlessForced powerHeld8) (fun _ => rfl) ha, unlessForced_of_not hf, powerHeld8]
      simp only [hr, hh, if_true]
  · intro p q noticed
    rw [exec_of_alive (f := afterDebounce closed Debouncers.cover setCover (unlessForced (coverAction closed))) (fun _ => rfl) ha,
      afterDebounce_of_candidate hc, unlessForced_of_not (by exact hf), coverAction_eq]
    have hbyte : byteOf closed.toNat = if closed then 1 else 0 := by cases closed <;> rfl
    rw [hbyte]
    rfl

/-! ### POWER POLICY, ALARM SET and an expiry (R120, R129) -/

theorem policyValue_eq (c r z : Bool) :
    flagBit 0 c + flagBit 8 r + flagBit 16 z = c.toNat + 256 * r.toNat + 65536 * z.toNat := by
  simp [flagBit_eq]

/-- Settles O24: the commands by their parameters, the expiry by the power state. -/
theorem policyAndAlarms : Obligations.PolicyAndAlarms := by
  refine ⟨fun tx c r z n s ht hx hp => ?_, fun p s ha hf h0 => ?_⟩
  · intro p
    refine ⟨?_, fun ho => ?_⟩
    · rw [exec_eq_partAfter, partAfter_of_pass_always (i := .powerPolicy tx c r z) (p := tx.port) (f := setPolicy c r z) (fun _ => rfl)
        rfl ht hx (verdict_of_permits _ _ _ 3 rfl hp) rfl]
      simp only [setPolicy, flagOf_eq, policyValue_eq]
      by_cases hc : c.toNat ≤ 1
      · by_cases hr : r.toNat ≤ 1
        · by_cases hz : z.toNat ≤ 1
          · simp only [hc, hr, hz, if_true, and_self]
            exact next_settled rfl
          · simp only [hc, hr, hz, if_true, if_false, and_false]
            exact next_settled rfl
        · simp only [hc, hr, if_true, if_false, and_false, false_and]
          exact next_settled rfl
      · simp only [hc, if_false, false_and]
        exact next_settled rfl
    · have halarm : alarmOf n.toNat = if n.toNat = 0 then none else some (if 86400 < n.toNat then 86400 else n.toNat) := by
        rw [alarmOf, clamp_zero]
      have hold : (p.alarms.get tx.port).getD 0 = match p.alarms.get tx.port with
          | some k => k
          | none => 0 := by cases p.alarms.get tx.port <;> rfl
      rw [exec_eq_partAfter, partAfter_of_permits (i := .alarmSet tx n) (p := tx.port) (f := setAlarm tx.port n) (fun _ => rfl)
        rfl ht hx rfl hp ho, setAlarm, halarm,
        show ((inTransaction s.part tx.port).power.alarms.get tx.port).getD 0 = _ from hold]
      exact next_settled rfl
  · intro q
    rw [exec_of_alive (f := expireAlarm p) (fun _ => rfl) ha, expireAlarm, if_pos h0]
    have hq : modifyPower (fun x => { x with alarms := x.alarms.set p none }) s.part = q := rfl
    have hstate : q.power.state = s.part.power.state := rfl
    have hforced : q.power.forcedOff = false := hf
    rw [hq]
    unfold takeExpiry
    rw [hforced, hstate]
    cases s.part.power.state
    case off => cases p <;> rfl
    all_goals rfl

end Sys2Proof.Machine
end

section
/-! PROOFS. The command check (R180 to R182), and the SYSTEM-class commands that queue a system write or replace a rights
record (R68, R130, R186). -/

namespace Sys2Proof.Machine

/-! ### A command with the arbiter after it (R160) -/

/-- The step of a command that is carried out, with the arbiter after it. -/
theorem next_arbitrated {ρ φ : Type} {p : Port} {f : Part → Part × Option Reply} {q t : Part} {r : Reply}
    {u : List Instr} (h : f q = (t, some r)) (hr : carriedOut r = true) :
    (Host.Outcome.next { part := settleWith p (withArbiter f q), pending := u } : Host.Outcome State ρ φ)
      = .next { part := settle p r (ringSpace q (arbitrate t)), pending := u } := by
  rw [withArbiter, h]
  simp only [hr, if_true, settleWith_some]

/-- The step of a command that is refused: the arbiter is not asked. -/
theorem next_refused {ρ φ : Type} {p : Port} {f : Part → Part × Option Reply} {s : State} {r : Reply}
    (h : f (inTransaction s.part p) = (inTransaction s.part p, some r)) (hr : carriedOut r = false) :
    (Host.Outcome.next { s with part := settleWith p (withArbiter f (inTransaction s.part p)) } : Host.Outcome State ρ φ)
      = .next { s with part := { s.part with ports := answered s.part p r } } := by
  rw [withArbiter, h]
  simp only [hr, Bool.false_eq_true, if_false]
  exact next_settled rfl

/-! ### WAVEFORM LOAD and SLEEP SCREEN STORE (R68, R70, R130, R166) -/

theorem seenRun_zero (s : Part) (i n : Nat) : seenRun s i 0 n = (List.range n).map fun k => seen s i k := by
  simp only [seenRun, Nat.zero_add]

/-- R68: the checks of WAVEFORM LOAD, and the load. -/
theorem loadWaveform_eq (i : Byte) (s : Part) {file : List Byte} (hfile : file = seenRun s i.toNat 0 53040) :
    loadWaveform i s =
      if 28 ≤ i.toNat then (s, some { code := .badParam })
      else if s.wave.replacementPending = true ∨ s.wave.reprogram = true then (s, some { code := .busy })
      else if (slot s i.toNat).state ≠ .ready then (s, some { code := .badState })
      else if tableValid file = false then (s, some { code := .badParam })
      else ({ s with store := { s.store with dram := Memory.writeRun s.store.dram (1048576 * 29 + 524288) file }, wave := { s.wave with replacementPending := true, reprogram := true }, flash := { s.flash with system := s.flash.system ++ [{ kind := .waveform, step := 0, image := [] }] } },
        some { code := .ok }) := by
  have hrun : seenRun s i.toNat 0 Config.tableBytes = file := hfile.symm
  simp only [loadWaveform, hrun, Bool.not_eq_true', isReady_eq_false, Config.pageSlots]
  cases tableValid file <;> rfl

/-- R130: the checks of SLEEP SCREEN STORE, and the copy. -/
theorem storeSleepScreen_eq (i : Byte) (s : Part) {image : List Byte} (himage : image = seenRun s i.toNat 0 1038336) :
    storeSleepScreen i s =
      if 28 ≤ i.toNat then (s, some { code := .badParam })
      else if s.power.sleepWrite = true then (s, some { code := .busy })
      else if (slot s i.toNat).state ≠ .ready then (s, some { code := .badState })
      else if (slot s 31).showing ≠ 0 then (s, some { code := .slotBusy })
      else ({ s with store := { s.store with dram := Memory.writeRun s.store.dram (1048576 * 31) image, slots := tableSet s.store.slots 31 imageSlot }, power := { s.power with sleepWrite := true }, flash := { s.flash with system := s.flash.system ++ [{ kind := .sleepScreen, step := 0, image := [] }] } },
        some { code := .ok }) := by
  have hrun : seenRun s i.toNat 0 Config.imageBytes = image := himage.symm
  simp only [storeSleepScreen, hrun, Bool.not_eq_true', isReady_eq_false, Config.pageSlots]
  rfl

/-- Settles O25: each chain of checks, then the copy and the queued rewrite with the arbiter after it. -/
theorem systemImageCommands : Obligations.SystemImageCommands := by
  refine ⟨fun tx i s ht hx hp ho => ?_, fun tx i s ht hx hp ho => ?_⟩
  · intro refused file q
    have hload := loadWaveform_eq i q (file := file) (by rw [seenRun_zero]; rfl)
    clear_value file
    rw [exec_eq_partAfter, partAfter_of_permitsSystem (i := .waveformLoad tx i) (p := tx.port)
      (f := withArbiter (loadWaveform i)) (fun _ => rfl) rfl ht hx rfl hp ho]
    by_cases h1 : 28 ≤ i.toNat
    · rw [if_pos h1] at hload ⊢
      exact next_refused hload rfl
    rw [if_neg h1] at hload ⊢
    by_cases h2 : s.part.wave.replacementPending = true ∨ s.part.wave.reprogram = true
    · rw [if_pos h2]
      exact next_refused (hload.trans (if_pos h2)) rfl
    replace hload := hload.trans (if_neg h2)
    rw [if_neg h2]
    by_cases h3 : (slot s.part i.toNat).state ≠ .ready
    · rw [if_pos h3]
      exact next_refused (hload.trans (if_pos h3)) rfl
    replace hload := hload.trans (if_neg h3)
    rw [if_neg h3]
    by_cases h4 : tableValid file = false
    · rw [if_pos h4]
      exact next_refused (hload.trans (if_pos h4)) rfl
    · rw [if_neg h4]
      exact next_arbitrated (hload.trans (if_neg h4)) rfl
  · intro refused q
    obtain ⟨image, himage⟩ : ∃ image, image = (List.range 1038336).map fun k => seen s.part i.toNat k := ⟨_, rfl⟩
    have hstore := storeSleepScreen_eq i q (image := image) (by rw [seenRun_zero, himage]; rfl)
    rw [exec_eq_partAfter, partAfter_of_permitsSystem (i := .sleepScreenStore tx i) (p := tx.port)
      (f := withArbiter (storeSleepScreen i)) (fun _ => rfl) rfl ht hx rfl hp ho, ← himage]
    by_cases h1 : 28 ≤ i.toNat
    · rw [if_pos h1] at hstore ⊢
      exact next_refused hstore rfl
    rw [if_neg h1] at hstore ⊢
    by_cases h2 : s.part.power.sleepWrite = true
    · rw [if_pos h2]
      exact next_refused (hstore.trans (if_pos h2)) rfl
    replace hstore := hstore.trans (if_neg h2)
    rw [if_neg h2]
    by_cases h3 : (slot s.part i.toNat).state ≠ .ready
    · rw [if_pos h3]
      exact next_refused (hstore.trans (if_pos h3)) rfl
    replace hstore := hstore.trans (if_neg h3)
    rw [if_neg h3]
    by_cases h4 : (slot s.part 31).showing ≠ 0
    · rw [if_pos h4]
      exact next_refused (hstore.trans (if_pos h4)) rfl
    · rw [if_neg h4]
      exact next_arbitrated (hstore.trans (if_neg h4)) rfl

/-! ### RIGHTS SET and RIGHTS STORE (R178, R179, R186) -/

theorem portOf_eq (b : Byte) : portOf b = if b.toNat ≤ 1 then some (if b.toNat = 0 then .A else .B) else none := by
  unfold portOf
  generalize b.toNat = n
  match n with
  | 0 => rfl
  | 1 => rfl
  | n + 2 =>
    rw [if_neg (by omega)]
    rfl

/-- Settles O46: the legal records by the three tests, the store with its queued image. -/
theorem rightsCommands : Obligations.RightsCommands := by
  intro tx target mask caps defer s ht hx hp ho r answer new q body
  constructor
  · rw [exec_eq_partAfter, partAfter_of_permitsSystem (i := .rightsSet tx target mask caps defer) (p := tx.port)
      (f := setRights target mask caps defer) (fun _ => rfl) rfl ht hx rfl hp ho]
    have hlegal : rightsLegal new = true ↔ mask.toNat < 2 ^ 28 ∧ caps &&& defer = 0 := by simp [rightsLegal, new]
    simp only [setRights, portOf_eq]
    by_cases h1 : target.toNat ≤ 1
    · rw [if_pos h1]
      by_cases h2 : mask.toNat < 2 ^ 28 ∧ caps &&& defer = 0
      · have hall : target.toNat ≤ 1 ∧ mask.toNat < 2 ^ 28 ∧ caps &&& defer = 0 := ⟨h1, h2⟩
        simp only [show rightsLegal { mask := mask, caps := caps, defer := defer } = true from hlegal.mpr h2, if_true, if_pos hall]
        by_cases h0 : target.toNat = 0
        · simp only [if_pos h0]
          exact next_settled rfl
        · simp only [if_neg h0]
          exact next_settled rfl
      · have hnot : ¬(target.toNat ≤ 1 ∧ mask.toNat < 2 ^ 28 ∧ caps &&& defer = 0) := fun h => h2 h.2
        simp only [show ¬rightsLegal { mask := mask, caps := caps, defer := defer } = true from hlegal.not.mpr h2, if_neg hnot]
        exact next_settled rfl
    · have hnot : ¬(target.toNat ≤ 1 ∧ mask.toNat < 2 ^ 28 ∧ caps &&& defer = 0) := fun h => h1 h.1
      rw [if_neg h1, if_neg hnot]
      exact next_settled rfl
  · rw [exec_eq_partAfter, partAfter_of_permitsSystem (i := .rightsStore tx) (p := tx.port)
      (f := withArbiter storeRights) (fun _ => rfl) rfl ht hx rfl hp ho]
    by_cases h : r.writeOutstanding = true
    · rw [if_pos h]
      exact next_refused (if_pos h) rfl
    · rw [if_neg h]
      exact next_arbitrated ((if_neg h).trans rfl) rfl

/-! ### The command check (R180 to R182) -/

/-- Every command that needs a capability is a transaction of its own effect. -/
theorem transact_of_need {i : Instr} {code : Nat} (hw : i.wellFormed = true) (hc : commandCode i = some code)
    (hm : isSample i = false) (hn : needOf code ≠ .none) (hs : needOf code ≠ .slots) :
    ∃ f, ∀ s, partAfter i s = transact i f s := by
  cases i
  case unknownCommandCode p c =>
    refine absurd ?_ hn
    have hcode : c.toNat = code := Option.some.inj hc
    simp only [Instr.wellFormed, Bool.and_eq_true, decide_eq_true_eq] at hw
    simp only [needOf, List.mem_cons, List.not_mem_nil, or_false]
    split_ifs <;> first | rfl | omega
  case fetchData rx =>
    have hmoment : rx.moment = .deselect := by
      cases hr : rx.moment <;> simp [isSample, hr] at hm ⊢
    exact ⟨fetchHeld rx.port, fun s => by
      change readTransaction _ rx.moment _ s = _
      rw [hmoment]
      rfl⟩
  case directoryRead rx =>
    have hmoment : rx.moment = .deselect := by
      cases hr : rx.moment <;> simp [isSample, hr] at hm ⊢
    exact ⟨replyWith directoryReply, fun s => by
      change readTransaction _ rx.moment _ s = _
      rw [hmoment]
      rfl⟩
  all_goals cases hc <;> first
    | exact absurd rfl hn
    | exact absurd rfl hs
    | exact ⟨_, fun _ => rfl⟩

/-- R181, R182: what the check decides of a command whose capability does not let it pass. -/
theorem verdict_of_lacking {i : Instr} {p : Port} {s : Part} {b : Nat}
    (hb : (needOf (codeOf i) = .capability b ∧ permits s p b = false)
      ∨ (needOf (codeOf i) = .system ∧ b = 7 ∧ (permits s p 7 = false ∨ isPresent s (peer p) = true))) :
    verdict i p s = if (s.rights.records.get p).defer.getLsbD b = false ∧ permits s p b = false then .refuse .denied
      else referral i p s := by
  have hdefer : (s.rights.records.get p).defer.getLsbD b = hasCapability (s.rights.records.get p).defer b := rfl
  unfold verdict
  rw [hdefer]
  rcases hb with ⟨hn, hc⟩ | ⟨hn, rfl, hc⟩
  · have hcap : hasCapability (s.rights.records.get p).caps b = false := hc
    rw [hn]
    simp only [capabilityVerdict, hcap, hc, and_true, Bool.false_eq_true, if_false]
    cases hasCapability (s.rights.records.get p).defer b <;> rfl
  · have hcap : hasCapability (s.rights.records.get p).caps systemBit = permits s p 7 := rfl
    have hdef : hasCapability (s.rights.records.get p).defer systemBit = hasCapability (s.rights.records.get p).defer 7 := rfl
    rw [hn]
    simp only [systemVerdict, hcap, hdef]
    cases hp : permits s p 7 with
    | true =>
      have hpres : isPresent s (peer p) = true := hc.resolve_left (by simp [hp])
      simp [hpres]
    | false => cases hasCapability (s.rights.records.get p).defer 7 <;> rfl

theorem settle_refer (i : Instr) (p : Port) (s : Part) :
    settle p { code := .referred } (refer i p (inTransaction s p))
      = { s with
          ports := (answered s p { code := .referred }).set (peer p)
            (raiseIn .peerRequest [byteOf (portCode p), byteOf (codeOf i), byteOf (commandParams i).length] (port s (peer p))),
          rights := { s.rights with requests := s.rights.requests.set p (some { code := byteOf (codeOf i), params := commandParams i, age := 0 }) } } := by
  cases p <;> simp [settle, refer, raise, setRequest, modifyRights, modifyPort, inTransaction, Both.modify, Both.set, Both.get,
    answered, answeredUnit, deselected, peer, sentData, port]

/-- Settles O45: the check's verdict, then the transaction that the verdict gives. -/
theorem capabilityCheck : Obligations.CapabilityCheck := by
  intro i code s hw hc hm hx p ht n system here r refused formed referred b hb hlack
  have hcode : codeOf i = code := by rw [codeOf, hc, Option.getD_some]
  have hneed : needOf code = .capability b ∨ (needOf code = .system ∧ b = 7) := by
    revert hb
    simp only [n]
    cases needOf code <;> simp (config := { contextual := true }) [eq_comm]
  obtain ⟨f, hf⟩ := transact_of_need hw hc hm (by rcases hneed with h | h <;> simp [h]) (by rcases hneed with h | h <;> simp [h])
  have hv : verdict i p s.part = if r.defer.getLsbD b = false ∧ r.caps.getLsbD b = false then .refuse .denied else referral i p s.part := by
    refine verdict_of_lacking ?_
    rw [hcode]
    rcases hneed with h | ⟨h, rfl⟩
    · refine .inl ⟨h, hlack.resolve_right fun hs => ?_⟩
      have : needOf code = .system := hs.1
      rw [h] at this
      cases this
    · exact .inr ⟨h, rfl, hlack.imp id fun hs => hs.2⟩
  have hreferral : referral i p s.part = if isReadCode code = true ∨ 32 < (commandParams i).length ∨ dataLength i ≠ 0 then .refuse .denied
      else if s.part.rights.requests.get p ≠ none then .refuse .busy else if here then .refer else .refuse .denied := by
    simp only [referral, hcode, Bool.or_eq_true, decide_eq_true_eq, or_assoc, Option.isSome_iff_ne_none, request, Bool.not_eq_true']
    have hhere : isPresent s.part (peer p) = false ↔ ¬ here := by rw [← Bool.not_eq_true]; rfl
    simp only [hhere]
    split_ifs <;> rfl
  have hrefused {c : ResultCode} (h : verdict i p s.part = .refuse c) : exec i s = .next (refused c) := by
    rw [exec_eq_partAfter, hf, transact_refuse i f s.part c ht hx h, settle_inTransaction]
  have hreferred (h : verdict i p s.part = .refer) : exec i s = .next referred := by
    rw [exec_eq_partAfter, hf, transact_refer i f s.part ht hx h, settle_refer, hcode]
    have hport : byteOf (portCode p) = if p = .A then 0 else 1 := by cases p <;> rfl
    rw [hport]
  rw [hreferral] at hv
  split_ifs at hv ⊢
  · exact hrefused hv
  · exact hrefused hv
  · exact hrefused hv
  · exact hreferred hv
  · exact hrefused hv

end Sys2Proof.Machine
end

section
/-! PROOFS. The ways OFF (R60, R122 to R124), the events while a forced entry waits, and the reset kinds (R128, R158). -/

namespace Sys2Proof.Machine

/-! ### The beginning of a forced OFF entry (R60, R123, R185) -/

theorem getElem_tableMapIdx {α : Type} {n : Nat} (f : Nat → α → α) (t : Vector α n) {i : Nat} (hi : i < n) :
    (tableMapIdx f t)[i] = f i t[i] := by
  have hlist := tableMapIdx_toList f t
  have hget : (tableMapIdx f t).toList[i]'(by simpa using hi) = f i (t.toList[i]'(by simpa using hi)) := by
    simp only [hlist, List.getElem_mapIdx]
  simpa only [Vector.getElem_toList] using hget

theorem getElem_changeTiles (q : Rect) (f : Bool → Nat → Nat) (t : Vector Nat 192) {i : Nat} (hi : i < 192) :
    (changeTiles q f t)[i] = if touches q (i % 12) (i / 12) then f (inside q (i % 12) (i / 12)) t[i] else t[i] :=
  getElem_tableMapIdx _ t hi

/-- The tiles that the aborted lanes touch stand at 15 (R60). -/
theorem getElem_abortedTiles (ls : List (Nat × Lane)) (t : Vector Nat 192) {i : Nat} (hi : i < 192) :
    (ls.foldl (fun t x => changeTiles x.2.update.rect (fun _ _ => 15) t) t)[i]
      = if ls.any (fun x => touches x.2.update.rect (i % 12) (i / 12)) then 15 else t[i] := by
  induction ls generalizing t with
  | nil => rfl
  | cons x ls ih =>
    rw [List.foldl_cons, ih, getElem_changeTiles _ _ _ hi, List.any_cons]
    cases ht : touches x.2.update.rect (i % 12) (i / 12)
    · simp only [Bool.false_or, Bool.false_eq_true, if_false]
    · simp only [Bool.true_or, if_true, ite_self]

/-- A property of some running lane, by the lanes' places. -/
theorem any_runningLanes (e : Engine) (q : Lane → Bool) :
    ((runningLanes e).any fun x => q x.2) = e.lanes.toList.any fun x => x.any q := by
  rw [Bool.eq_iff_iff, List.any_eq_true, List.any_eq_true]
  constructor
  · rintro ⟨⟨i, l⟩, hm, hq⟩
    have hl : (e.lanes.toList[i]?).join = some l := mem_runningLanes.mp hm
    cases hx : e.lanes.toList[i]? with
    | none => simp [hx] at hl
    | some x =>
      rw [hx, Option.join_some] at hl
      subst hl
      exact ⟨some l, List.mem_of_getElem? hx, hq⟩
  · rintro ⟨x, hx, hq⟩
    cases x with
    | none => cases hq
    | some l =>
      obtain ⟨i, hi⟩ := List.mem_iff_getElem?.mp hx
      exact ⟨(i, l), mem_runningLanes.mpr (by rw [laneAt, hi]; rfl), hq⟩

/-- A request dropped: with it goes its PEER_REQUEST on the port that must answer (R123, R185). -/
theorem dropRequest_eq (p : Port) (s : Part) :
    dropRequest p s = { s with rights := { s.rights with requests := s.rights.requests.set p none }, ports := if s.rights.requests.get p = none then s.ports else s.ports.modify (peer p) (clearIn .peerRequest) } := by
  unfold dropRequest request
  cases h : s.rights.requests.get p with
  | none =>
    have hset : s.rights.requests.set p none = s.rights.requests := by rw [← h, Both.set_get]
    simp [hset]
  | some r => rfl

theorem port_dropRequest_same (p : Port) (s : Part) : port (dropRequest p s) p = port s p := by
  rw [dropRequest_eq]
  change (if s.rights.requests.get p = none then s.ports else s.ports.modify (peer p) (clearIn .peerRequest)).get p = _
  split
  · rfl
  · exact Both.get_modify_of_peer _ _ _

theorem port_dropRequest_peer (p : Port) (s : Part) :
    port (dropRequest p s) (peer p) = if s.rights.requests.get p = none then port s (peer p) else clearIn .peerRequest (port s (peer p)) := by
  rw [dropRequest_eq]
  change (if s.rights.requests.get p = none then s.ports else s.ports.modify (peer p) (clearIn .peerRequest)).get (peer p) = _
  split
  · rfl
  · exact Both.get_modify_same _ _ _

/-- A port's unit whose transaction is discarded, and from which a PEER_REQUEST is cleared unless `c`. -/
theorem discarded_unit (u : PortUnit) (c : Prop) [Decidable c] :
    (if c then discardLine u else clearIn .peerRequest (discardLine u))
      = { u with line := if u.line = .deselected then .deselected else .ignored, sample := none, notices := { u.notices with pending := if c then u.notices.pending else tableSet u.notices.pending (kindIndex .peerRequest) none } } := by
  split <;> rfl

theorem slot_tableMap {s t : Part} {f : Slot → Slot} {i : Nat} (h : t.store.slots = tableMap f s.store.slots) (hi : i < 32) :
    slot t i = f (slot s i) := by
  rw [slot, h, tableGet_tableMap f _ i _ hi]
  rfl

/-- Settles O26: the steps of the beginning, one after the other; the tiles by the lanes, the ports by the requests. -/
theorem forcedOffBegins : Obligations.ForcedOffBegins := by
  intro s e f t
  have ht : t = modifyPower (fun p => { p with forcedOff := true, press := none, bootTiming := false })
      (dropRequest .B (dropRequest .A (dropFlashQueue (modifyPorts discardLine (modifyLight darkLight (abortEngine s)))))) := rfl
  have htiles : t.engine.tiles = (runningLanes e).foldl (fun t x => changeTiles x.2.update.rect (fun _ _ => 15) t) e.tiles := by
    rw [ht, dropRequest_eq, dropRequest_eq]
    rfl
  refine ⟨?_, fun c r hc hr => ?_, fun i hi => ?_, fun p => ?_⟩
  · rw [ht, dropRequest_eq, dropRequest_eq]
    rfl
  · have hi : 12 * r + c < 192 := by omega
    have hcol : (12 * r + c) % 12 = c := by omega
    have hrow : (12 * r + c) / 12 = r := by omega
    simp only [htiles]
    rw [getElem_abortedTiles _ _ hi, hcol, hrow, any_runningLanes e fun l => touches l.update.rect c r]
  · refine slot_tableMap (s := s) (f := fun v => { v with showing := 0 }) ?_ hi
    rw [ht, dropRequest_eq, dropRequest_eq]
    rfl
  · intro u
    have hfirst (x : Part) : (dropRequest .A x).rights.requests.get .B = x.rights.requests.get .B := by
      rw [dropRequest_eq]
      rfl
    obtain ⟨x, hx⟩ : ∃ x, x = dropFlashQueue (modifyPorts discardLine (modifyLight darkLight (abortEngine s))) := ⟨_, rfl⟩
    have hrequests : x.rights.requests = s.rights.requests := by rw [hx]; rfl
    have hport (q : Port) : port x q = discardLine (port s q) := by rw [hx]; cases q <;> rfl
    rw [ht, ← hx]
    change port (dropRequest .B (dropRequest .A x)) p = _
    cases p with
    | A =>
      refine (port_dropRequest_peer .B (dropRequest .A x)).trans ?_
      rw [hfirst, hrequests, show port (dropRequest .A x) (peer .B) = discardLine u from
        (port_dropRequest_same .A x).trans (hport .A)]
      exact discarded_unit u _
    | B =>
      refine (port_dropRequest_same .B _).trans ((port_dropRequest_peer .A x).trans ?_)
      rw [hrequests, show port x (peer .A) = discardLine u from hport .B]
      exact discarded_unit u _

/-! ### While a forced OFF entry waits (R123) -/

theorem unlessForced_of_forced {f : Part → Part} {s : Part} (h : s.power.forcedOff = true) : unlessForced f s = s := if_pos h

/-- Settles O27: what is discarded leaves the part as it is. -/
theorem forcedOffWaits : Obligations.ForcedOffWaits := by
  intro s ha hf d settles level power p
  have hdiscarded (get : Debouncers → Debouncer) (set : Debouncer → Debouncers → Debouncers) (v : Bool) (f : Part → Part)
      (hc : (get d).candidate = some v) :
      afterDebounce v get set (unlessForced f) s.part = { s.part with debounce := set (level v) d } := by
    rw [afterDebounce_of_candidate hc]
    exact unlessForced_of_forced hf
  refine ⟨fun k v hc => ?_, fun v hc => ?_, fun v hc => ?_, ?_, ?_, fun hb => ?_, fun hc => ?_, fun h0 => ?_, fun h0 => ?_, ?_, ?_⟩
  · cases v with
    | true =>
      change exec (.keyPress k) s = _
      rw [exec_of_alive (f := afterDebounce true (fun d => keyOf d k) (setKey k) (unlessForced (keyAction k))) (fun _ => rfl) ha,
        hdiscarded _ _ _ _ hc]
      cases k <;> rfl
    | false =>
      change exec (.keyRelease k) s = _
      rw [exec_of_alive (f := afterDebounce false (fun d => keyOf d k) (setKey k) id) (fun _ => rfl) ha, afterDebounce_of_candidate hc]
      cases k <;> rfl
  · cases v with
    | true =>
      change exec .powerPress s = _
      rw [exec_of_alive (f := afterDebounce true Debouncers.power setPowerKey (unlessForced powerPressAction)) (fun _ => rfl) ha,
        hdiscarded _ _ _ _ hc]
      rfl
    | false =>
      change exec .powerRelease s = _
      rw [exec_of_alive (f := afterDebounce false Debouncers.power setPowerKey (unlessForced powerReleaseAction)) (fun _ => rfl) ha,
        hdiscarded _ _ _ _ hc]
      rfl
  · change exec (.coverChange v) s = _
    rw [exec_of_alive (f := afterDebounce v Debouncers.cover setCover (unlessForced (coverAction v))) (fun _ => rfl) ha,
      hdiscarded _ _ _ _ hc]
    rfl
  · rw [exec_of_alive (f := unlessForced powerHeld2) (fun _ => rfl) ha, unlessForced_of_forced hf]
  · rw [exec_of_alive (f := unlessForced powerHeld8) (fun _ => rfl) ha, unlessForced_of_forced hf]
  · rw [exec_of_alive (f := powerHeld1) (fun _ => rfl) ha, powerHeld1, if_neg (by change ¬ p.bootTiming = true; simp [hb])]
  · rw [exec_eq_partAfter]
    change Host.Outcome.next { s with part := chargerRises s.part } = _
    have halive : alive (setCharger true s.part) = true := ha
    rw [chargerRises, if_neg (by simp [hc]), whileRunning, if_pos halive, unlessForced_of_forced (by exact hf)]
    rfl
  · change exec (.alarmExpiry .A) s = _
    rw [exec_of_alive (f := expireAlarm .A) (fun _ => rfl) ha, expireAlarm, if_pos (by exact h0), takeExpiry, if_pos (by exact hf)]
    rfl
  · change exec (.alarmExpiry .B) s = _
    rw [exec_of_alive (f := expireAlarm .B) (fun _ => rfl) ha, expireAlarm, if_pos (by exact h0), takeExpiry, if_pos (by exact hf)]
    rfl
  · rw [exec_of_alive (f := takeStallTick) (fun _ => rfl) ha, takeStallTick, if_neg (by simp [stallsCount, hf])]
  · rw [exec_of_alive (f := takeBoundary) (fun _ => rfl) ha, takeBoundary, if_neg (by simp [boundariesRun, hf])]

/-! ### Entry to OFF (R122 to R124) -/

/-- Settles O28: when OFF is due, condition by condition, and the entry field by field. -/
theorem offEntryLeaves : Obligations.OffEntryLeaves := by
  intro s ha
  have hstep : exec .offEntry s = .next { s with part := takeOffWhenDue s.part } := exec_of_alive (fun _ => rfl) ha
  refine ⟨?_, fun h => ?_, fun h => ?_, ?_⟩
  · simp only [offDue, orderlyOff, Bool.or_eq_true, Bool.and_eq_true, decide_eq_true_eq, engineQuiet_iff, ringQuiet_iff,
      List.isEmpty_iff, Option.isNone_iff_eq_none, engineIdle, and_assoc]
  · rw [hstep, takeOffWhenDue, if_neg (by simp [h])]
  · rw [hstep, takeOffWhenDue, if_pos h]
    rfl
  · intro t
    have hslots (i : Nat) (hi : i < 32) : slot t.part i = emptySlot := by
      change tableGet (Vector.replicate 32 emptySlot) i emptySlot = emptySlot
      rw [tableGet_of_lt _ _ _ hi, Vector.getElem_replicate]
    have hrecords (r : Nat) (hr : r < 32) : record t.part r = freeRecord := by
      change tableGet (Vector.replicate 32 freeRecord) r freeRecord = freeRecord
      rw [tableGet_of_lt _ _ _ hr, Vector.getElem_replicate]
    have hlanes (l : Option Lane) (hl : l ∈ t.part.engine.lanes.toList) : l = none := by
      change l ∈ (Vector.replicate 8 none).toList at hl
      rw [Vector.toList_replicate] at hl
      exact List.eq_of_mem_replicate hl
    have hport (p : Port) : port t.part p = offPort (port s.part p) := by cases p <;> rfl
    refine ⟨rfl, hslots, rfl, rfl, ⟨rfl, rfl, hlanes, rfl, rfl, rfl⟩, rfl, rfl, rfl, rfl, hrecords, rfl, rfl, rfl, rfl,
      fun p => ⟨hport p, fun k => ?_⟩, rfl, rfl, rfl, rfl, rfl, rfl⟩
    rw [hport]
    change tableGet (Vector.replicate 15 none) (kindIndex k) none = none
    rw [tableGet_of_lt _ _ _ (kindIndex_lt k), Vector.getElem_replicate]

/-! ### The reset kinds (R128, R158) -/

/-- R106, R128: the end of a reset that takes the admission sample. -/
theorem admitReset_eq (reason : BootReason) (x : Part) :
    admitReset reason x =
      (let y := takeSample x
       if 3450 ≤ y.battery.window.sum / y.battery.window.length then enterBoot reason y else y) := by
  simp only [admitReset, admits_takeSample]

/-- Settles O29: every kind is `resetPart` with its pins, its supply and what follows it. -/
theorem resetKinds : Obligations.ResetKinds := by
  intro s
  refine ⟨abandonedNand s.part, ?_, ?_⟩
  · unfold abandonedNand
    cases s.part.flash.running with
    | none => rfl
    | some x =>
      cases hop : x.operation with
      | read b p => simp [hop, abandonOperation]
      | program b p d => simp [hop, abandonOperation, Nand.address, Config.blockPages]
      | erase b => simp [hop, abandonOperation]
      | move a d p =>
        simp only [Option.map_some, hop, abandonOperation]
        cases Config.moveInProgram s.part.fresh
        · exact .inl rfl
        · exact .inr rfl
  · intro line cleared admitted low
    have hcleared (cold supply : Bool) (pins : Pins) :
        resetPart cold { s.part with supply := supply, pins := pins } = cleared cold supply pins := rfl
    have hadmitted (reason : BootReason) (x : Part) : admitReset reason x = admitted reason x := admitReset_eq reason x
    refine ⟨?_, ?_, ?_, ?_, fun tx ht hx hp ho hs => ?_⟩
    · rw [exec_eq_partAfter]
      change Host.Outcome.next { s with part := coldStart s.part } = _
      have halive : alive (cleared true true s.part.pins) = !s.part.pins.resetLow := by
        change (true && !s.part.pins.resetLow) = _
        simp
      have hx : resetPart true { s.part with supply := true } = cleared true true s.part.pins := rfl
      simp only [coldStart, hx, halive, Bool.and_eq_true, Bool.not_eq_true']
      rfl
    · rw [exec_eq_partAfter]
      rfl
    · rw [exec_eq_partAfter]
      change Host.Outcome.next { s with part := resetFall s.part } = _
      simp only [resetFall, Bool.and_eq_true, Bool.not_eq_true']
      by_cases h : s.part.supply = true ∧ s.part.pins.resetLow = false
      · rw [if_pos h, if_pos h, ← hcleared, ← h.1]
        rfl
      · rw [if_neg h, if_neg h]
        rfl
    · rw [exec_eq_partAfter]
      change Host.Outcome.next { s with part := resetRise s.part } = _
      simp only [resetRise, Bool.and_eq_true]
      by_cases h : s.part.supply = true ∧ s.part.pins.resetLow = true
      · rw [if_pos h, if_pos h, hadmitted, ← hcleared, ← h.1]
        rfl
      · rw [if_neg h, if_neg h]
        rfl
    · rw [exec_eq_partAfter, partAfter_of_permitsSystem (i := .chipReset tx) (p := tx.port) (f := chipReset) (fun _ => rfl) rfl
        ht hx rfl hp ho]
      change Host.Outcome.next { s with part := modifyPort tx.port deselected (consentReset (inTransaction s.part tx.port)) } = _
      rw [consentReset, hadmitted]
      have hline := unitIn_line .taken s.part tx.port ht
      have hports : (⟨resetPort (inTransaction s.part tx.port).ports.a, resetPort (inTransaction s.part tx.port).ports.b⟩ : Both PortUnit)
          = (Both.mk { defaultPort with line := line .A } { defaultPort with line := line .B }).set tx.port { defaultPort with line := .ignored } := by
        cases hp : tx.port with
        | A =>
          rw [hp] at hline
          simp only [inTransaction, Both.set, resetPort, hline]
          rfl
        | B =>
          rw [hp] at hline
          simp only [inTransaction, Both.set, resetPort, hline]
          rfl
      have hreset : resetPart (inTransaction s.part tx.port).power.coldPending (inTransaction s.part tx.port)
          = { cleared s.part.power.coldPending true s.part.pins with ports := (Both.mk { defaultPort with line := line .A } { defaultPort with line := line .B }).set tx.port { defaultPort with line := .ignored } } := by
        rw [← hports, ← hs]
        rfl
      rw [hreset]
      rfl

end Sys2Proof.Machine
end

section
/-! PROOFS. The BOOT sequence (R126, R127): the system slots it fills, the images it loads, and the entry to ACTIVE. -/

namespace Sys2Proof.Machine

/-! ### The system slots (R5, R15, R19) -/

/-- Bytes of different slots lie apart. -/
theorem dramAddress_range (i j a : Nat) (ha : a < 1048576) :
    dramAddress j 0 ≤ dramAddress i a ∧ dramAddress i a < dramAddress (j + 1) 0 ↔ i = j := by
  simp only [dramAddress, Config.slotBytes]
  omega

theorem cell_bootSlots (s : Part) (i a : Nat) (ha : a < 1048576) : cell (bootSlots s) i a = if i = 28 then 0xFF else cell s i a := by
  change Memory.read (Memory.clear s.store.dram (dramAddress 28 0) (dramAddress 29 0)) (dramAddress i a) = _
  rw [Memory.read_clear]
  simp only [dramAddress_range i 28 a ha]
  rfl

theorem slot_bootSlots (s : Part) (i : Nat) : slot (bootSlots s) i = if i = 28 ∨ i = 30 then imageSlot else slot s i := by
  by_cases h30 : i = 30
  · subst h30
    exact slot_setSlot_same _ 30 imageSlot (by decide)
  · rw [bootSlots, slot_setSlot_other _ 30 i imageSlot (Ne.symm h30)]
    by_cases h28 : i = 28
    · subst h28
      exact slot_setSlot_same _ 28 imageSlot (by decide)
    · rw [slot_setSlot_other _ 28 i imageSlot (Ne.symm h28), if_neg (by simp [h28, h30])]
      rfl

/-! ### The entry to ACTIVE (R127, R129) -/

/-- A port's unit after an alarm held for it, if one was, is raised. -/
def withHeldAlarm (t : Option Word) (u : PortUnit) : PortUnit :=
  match t with
  | none => u
  | some t => raiseIn .alarm (leWord t) u

theorem raiseHeldAlarm_eq (p : Port) (s : Part) : raiseHeldAlarm p s = modifyPort p (withHeldAlarm (s.power.heldAlarms.get p)) s := by
  unfold raiseHeldAlarm
  cases s.power.heldAlarms.get p with
  | none => cases p <;> rfl
  | some t => rfl

/-- The notices of a port after the entry to ACTIVE: BOOTED, and an alarm that expired in BOOT. -/
theorem bootedUnit (t : Option Word) (a b c : Byte) (u : PortUnit) :
    withHeldAlarm t (raiseIn .booted [a, b, c] (clearedNotices u))
      = { u with
          sample := u.sample.map fun x => { x with raises := if x.kind = some .booted ∨ (x.kind = some .alarm ∧ t.isSome = true) then 1 else 0 }
          notices := { enables := 0x7FFF, master := true, pending := match t with
            | none => tableSet (Vector.replicate 15 none) 0 (some { detail := [a, b, c, 0xFF, 0xFF, 0xFF, 0xFF, 0xFF], count := 1 })
            | some t => tableSet (tableSet (Vector.replicate 15 none) 0 (some { detail := [a, b, c, 0xFF, 0xFF, 0xFF, 0xFF, 0xFF], count := 1 })) 13 (some { detail := leWord t ++ [0xFF, 0xFF, 0xFF, 0xFF], count := 1 }) } } := by
  cases t with
  | none =>
    simp only [withHeldAlarm, raiseIn, clearedNotices, Option.map_map]
    congr 1
    cases u.sample with
    | none => rfl
    | some x => by_cases h : x.kind = some .booted <;> simp [countRaise, h]
  | some t =>
    simp only [withHeldAlarm, raiseIn, clearedNotices, Option.map_map]
    congr 1
    cases u.sample with
    | none => rfl
    | some x =>
      by_cases h : x.kind = some .booted
      · simp [countRaise, h]
      · by_cases h' : x.kind = some .alarm <;> simp [countRaise, h, h']

/-- Both units cleared, one notice raised on both, and each port's unit changed. -/
theorem ports_afterBooted (f g : PortUnit → PortUnit) (d : List Byte) (x : Part) :
    modifyPort .B g (modifyPort .A f (raiseBoth .booted d (modifyPorts clearedNotices x)))
      = { x with ports := ⟨f (raiseIn .booted d (clearedNotices x.ports.a)), g (raiseIn .booted d (clearedNotices x.ports.b))⟩ } := rfl

/-- The part as BOOT ends, but for its ports. -/
def litActive (b : Part) : Part :=
  { b with power := activePower b.power, wave := { b.wave with reading := some (clampTemperature b.pins.tempSense), age := 0 }, light := retarget (lit (activePower b.power)) b.light }

/-- What the entry to ACTIVE leaves. -/
theorem enterActive_eq (b : Part) :
    enterActive b = { litActive b with
      power := { activePower b.power with heldAlarms := Both.same none }
      ports := ⟨withHeldAlarm b.power.heldAlarms.a (raiseIn .booted [byteOf (bootReasonCode b.power.bootReason), byteOf (bootedFlags b), byteOf (batteryCode b.battery.state)] (clearedNotices b.ports.a)),
        withHeldAlarm b.power.heldAlarms.b (raiseIn .booted [byteOf (bootReasonCode b.power.bootReason), byteOf (bootedFlags b), byteOf (batteryCode b.battery.state)] (clearedNotices b.ports.b))⟩ } := by
  have hflags : bootedFlags (modifyPorts clearedNotices (litActive b)) = bootedFlags b := rfl
  have henter : enterActive b = modifyPower (fun p => { p with heldAlarms := Both.same none })
      (raiseHeldAlarm .B (raiseHeldAlarm .A (raiseBoth .booted [byteOf (bootReasonCode b.power.bootReason), byteOf (bootedFlags (modifyPorts clearedNotices (litActive b))), byteOf (batteryCode b.battery.state)] (modifyPorts clearedNotices (litActive b))))) := rfl
  rw [henter, hflags, raiseHeldAlarm_eq, raiseHeldAlarm_eq .A]
  generalize [byteOf (bootReasonCode b.power.bootReason), byteOf (bootedFlags b), byteOf (batteryCode b.battery.state)] = d
  rw [ports_afterBooted]
  rfl

/-- Settles O30: the entry to ACTIVE field by field, and what `bootSlots` does. -/
theorem bootEndsInActive : Obligations.BootEndsInActive := by
  refine ⟨fun s => ?_, fun ecc s ha hb hf => ?_⟩
  · intro t full
    have hcell (a : Nat) (ha : a < 1048576) : cell t 28 a = 0xFF := (cell_bootSlots s 28 a ha).trans (if_pos rfl)
    refine ⟨(slot_bootSlots s 28).trans (if_pos (.inl rfl)), (slot_bootSlots s 30).trans (if_pos (.inr rfl)),
      fun i h h' => (slot_bootSlots s i).trans (if_neg (by simp [h, h'])), fun a ha => ⟨hcell a ha, ?_⟩,
      fun i a _ ha h => (cell_bootSlots s i a ha).trans (if_neg h), rfl⟩
    have hslot : slot t 28 = imageSlot := (slot_bootSlots s 28).trans (if_pos (.inl rfl))
    simp only [seen, hslot]
    exact (ite_congr rfl (fun _ => hcell a ha) fun _ => rfl).trans (ite_self _)
  · intro b c limited warm reason flags booted unit
    rw [exec_of_alive (f := bootEnds ecc) (fun _ => rfl) ha, bootEnds, if_pos ⟨hb, by simp [hf]⟩]
    change Host.Outcome.next { s with part := thenArbitrate enterActive b } = _
    clear_value b
    have hnot (k : Nat) (x : Bool) : flagBit k (!x) = if x = true then 0 else 2 ^ k := by cases x <;> rfl
    have hflags : bootedFlags b = flags := by
      have h29 : tableHeld b = true ↔ (slot b 29).state = .ready := tableHeld_iff
      have h31 : isReady b 31 = true ↔ (slot b 31).state = .ready := isReady_iff
      have hfault : flagBit 3 (decide (b.flash.spool = .faulted)) = if b.flash.spool = .faulted then 8 else 0 := by
        simp only [flagBit, decide_eq_true_eq]
        rfl
      rw [bootedFlags, hnot, hnot, hnot, hfault]
      simp only [h29, h31]
      rfl
    have hreason : byteOf (bootReasonCode b.power.bootReason) = reason := by
      have h (x : BootReason) : byteOf (bootReasonCode x) = match x with
          | .cold => 0
          | .resetLine => 1
          | .consentReset => 2
          | .powerKey => 3
          | .charger => 4
          | .alarm => 5 := by cases x <;> rfl
      exact h _
    have hlight : retarget (lit (activePower b.power)) b.light
        = { b.light with
            warmTarget := if b.power.offPending = true then 0 else warm * 4095 / 1000
            coolTarget := if b.power.offPending = true then 0 else (limited - warm) * 4095 / 1000 } := by
      cases ho : b.power.offPending
      · simp only [retarget, lit, activePower, ho]
        rfl
      · simp only [retarget, lit, activePower, ho]
        rfl
    have henter := enterActive_eq b
    rw [hflags, hreason, bootedUnit, bootedUnit, litActive, hlight] at henter
    rw [thenArbitrate, henter]
    rfl

/-! ### A page read (R158, R159) -/

theorem sectorFails_eq_false {x : Sector} : sectorFails x = false ↔ ∃ n, n ≤ 8 ∧ x = .corrected n := by
  cases x <;> simp [sectorFails]

theorem anyFails_eq_false {ecc : List Sector} : anyFails ecc = false ↔ ∀ x, x ∈ ecc.take 8 → ∃ n, n ≤ 8 ∧ x = .corrected n := by
  simp only [anyFails, List.any_eq_false, Bool.not_eq_true, sectorFails_eq_false]

/-- The ninth place of a report, where it has one, is the spare's. -/
theorem readsErased_iff {ecc : List Sector} :
    anyFails ecc = false ∧ spareFails ecc = false ↔ ∀ x, x ∈ ecc.take 9 → ∃ n, n ≤ 8 ∧ x = .corrected n := by
  have hspare : spareFails ecc = false ↔ ∀ x, x ∈ (ecc[8]?).toList → ∃ n, n ≤ 8 ∧ x = .corrected n := by
    rw [spareFails, sectorFails_eq_false, List.getD_eq_getElem?_getD]
    cases ecc[8]? <;> simp
  have hnine : ecc.take 9 = ecc.take 8 ++ (ecc[8]?).toList := List.take_add_one
  rw [anyFails_eq_false, hspare, hnine]
  simp only [List.mem_append]
  constructor
  · rintro ⟨h, h'⟩ x (hx | hx)
    · exact h x hx
    · exact h' x hx
  · exact fun h => ⟨fun x hx => h x (.inl hx), fun x hx => h x (.inr hx)⟩

theorem foldl_max_spec (l : List Nat) (k : Nat) :
    (∀ n, n = k ∨ n ∈ l → n ≤ l.foldl max k) ∧ (l.foldl max k = k ∨ l.foldl max k ∈ l) := by
  induction l generalizing k with
  | nil => simp
  | cons a l ih =>
    obtain ⟨hle, heq⟩ := ih (max k a)
    have hmax := hle (max k a) (.inl rfl)
    refine ⟨fun n hn => ?_, ?_⟩
    · rw [List.mem_cons] at hn
      rcases hn with rfl | rfl | hn
      · exact (Nat.le_max_left _ _).trans hmax
      · exact (Nat.le_max_right _ _).trans hmax
      · exact hle n (.inr hn)
    · rw [List.foldl_cons]
      rcases heq with h | h
      · rcases Nat.le_total k a with hka | hka
        · exact .inr (by rw [h, Nat.max_eq_right hka]; exact List.mem_cons_self)
        · exact .inl (by rw [h, Nat.max_eq_left hka])
      · exact .inr (List.mem_cons_of_mem _ h)

/-- The worst sector of a report is the largest count that it names (R159). -/
theorem worstSector_spec {ecc : List Sector} (h : anyFails ecc = false) :
    (∀ n, .corrected n ∈ ecc.take 8 → n ≤ worstSector ecc) ∧ (worstSector ecc = 0 ∨ .corrected (worstSector ecc) ∈ ecc.take 8) := by
  obtain ⟨hle, heq⟩ := foldl_max_spec ((ecc.take 8).map sectorBits) 0
  refine ⟨fun n hn => hle n (.inr (List.mem_map.mpr ⟨_, hn, rfl⟩)), heq.imp_right fun hm => ?_⟩
  obtain ⟨x, hx, hbits⟩ := List.mem_map.mp hm
  obtain ⟨n, _, rfl⟩ := anyFails_eq_false.mp h x hx
  have hn : n = worstSector ecc := hbits
  rw [← hn]
  exact hx

@[simp] theorem readBytes_length (page : Option Page) (fresh address : Nat) (ecc : List Sector) :
    (readBytes page fresh address ecc).length = 4096 := by
  rw [readBytes, List.length_map, List.length_range]

theorem byteAt_readBytes (data spare : List Byte) (fresh address : Nat) (ecc : List Sector) {i : Nat} (hi : i < 4096)
    (h : byteFails ecc i = false) : byteAt (readBytes (some (.programmed data spare)) fresh address ecc) i = byteAt data i := by
  have hpage : i < Config.pageBytes := hi
  rw [byteAt, readBytes, List.getD_eq_getElem?_getD, List.getElem?_map, List.getElem?_range hpage, Option.map_some, h]
  rfl

/-- Two pages of 4,096 bytes with the same byte at every place are one. -/
theorem page_ext {a b : List Byte} (ha : a.length = 4096) (hb : b.length = 4096) (h : ∀ i, i < 4096 → byteAt a i = byteAt b i) : a = b := by
  refine List.ext_getElem (by rw [ha, hb]) fun i h1 h2 => ?_
  have hi := h i (by omega)
  rwa [byteAt, byteAt, List.getD_eq_getElem _ _ h1, List.getD_eq_getElem _ _ h2] at hi

/-- A byte of a page lies in one of the eight sectors. -/
theorem byteFails_of_anyFails {ecc : List Sector} (h : anyFails ecc = false) {i : Nat} (hi : i < 4096) : byteFails ecc i = false := by
  rw [byteFails, List.getD_eq_getElem?_getD]
  cases hx : ecc[i / 512]? with
  | none => rfl
  | some x =>
    have hmem : x ∈ ecc.take 8 := List.mem_iff_getElem?.mpr ⟨i / 512, by rw [List.getElem?_take, if_pos (by omega), hx]⟩
    exact sectorFails_eq_false.mpr (anyFails_eq_false.mp h x hmem)

/-! ### The images that BOOT loads (R67, R126, R131, R179) -/

/-- A run written from the start of a slot on, in a part whose other places it leaves. -/
theorem cell_writeRun {m : List Host.Cell} (hwf : Memory.wf m = true) (j : Nat) (bs : List Byte) (hlen : bs.length ≤ 1048576) {i a : Nat} (ha : a < 1048576) :
    Memory.read (Memory.writeRun m (dramAddress j 0) bs) (dramAddress i a)
      = if i = j ∧ a < bs.length then byteAt bs a else Memory.read m (dramAddress i a) := by
  rw [Memory.read_writeRun bs m _ _ hwf]
  have hin : dramAddress j 0 ≤ dramAddress i a ∧ dramAddress i a < dramAddress j 0 + bs.length ↔ i = j ∧ a < bs.length := by
    simp only [dramAddress, Config.slotBytes]
    omega
  simp only [hin]
  by_cases h : i = j ∧ a < bs.length
  · rw [if_pos h, if_pos h, h.1]
    simp only [dramAddress, Nat.add_zero, Nat.add_sub_cancel_left]
    rfl
  · rw [if_neg h, if_neg h]

/-- The pages of the sleep screen, all of them or none. -/
theorem readSleepScreen_eq (read : Nat → Ecc × List Byte) (n address : Nat) :
    ((∃ k, k < n ∧ ((read (address + k)).1 = .uncorrectable ∨ (read (address + k)).1 = .erased)) → readSleepScreen read n address = none)
      ∧ ((∀ k, k < n → (read (address + k)).1 ≠ .uncorrectable ∧ (read (address + k)).1 ≠ .erased) →
          readSleepScreen read n address = some ((List.range n).flatMap fun k => (read (address + k)).2)) := by
  induction n generalizing address with
  | zero => simp [readSleepScreen]
  | succ n ih =>
    obtain ⟨hbad, hgood⟩ := ih (address + 1)
    have hshift (k : Nat) : address + 1 + k = address + (k + 1) := by omega
    simp only [hshift] at hbad hgood
    constructor
    · rintro ⟨k, hk, hx⟩
      simp only [readSleepScreen]
      split
      · rfl
      · next h0 =>
        cases k with
        | zero => exact absurd hx h0
        | succ k => rw [hbad ⟨k, by omega, hx⟩, Option.map_none]
    · intro h
      have h0 := h 0 (by omega)
      simp only [readSleepScreen]
      rw [if_neg (by simpa using h0), hgood fun k hk => h (k + 1) (by omega), List.range_succ_eq_map, List.flatMap_cons, List.flatMap_map]
      rfl

/-! ### What makes a waveform file valid (R65, R66) -/

/-- Eight bits of a run of bits that stand where a byte was put. -/
theorem extractLsb'_byte (x : Byte) {n : Nat} (high : BitVec n) (k : Nat) :
    (high ++ x).extractLsb' 0 8 = x ∧ (high ++ x).extractLsb' (k + 8) 8 = high.extractLsb' k 8 := by
  constructor
  · refine BitVec.eq_of_getElem_eq fun i hi => ?_
    rw [BitVec.getElem_extractLsb', BitVec.getLsbD_append, Nat.zero_add, if_pos hi]
    rfl
  · refine BitVec.eq_of_getElem_eq fun i hi => ?_
    rw [BitVec.getElem_extractLsb', BitVec.getElem_extractLsb', BitVec.getLsbD_append, if_neg (by omega),
      show k + 8 + i - 8 = k + i by omega]

/-- A word spelled by its four bytes (R196). -/
theorem leWord_bytes (a b c d : Byte) : leWord (d ++ c ++ b ++ a) = [a, b, c, d] := by
  simp only [leWord, List.cons.injEq, and_true]
  refine ⟨(extractLsb'_byte _ _ 0).1, ?_, ?_, ?_⟩
  · exact ((extractLsb'_byte _ _ 0).2).trans (extractLsb'_byte _ _ 0).1
  · exact ((extractLsb'_byte _ _ 8).2).trans (((extractLsb'_byte _ _ 0).2).trans (extractLsb'_byte _ _ 0).1)
  · refine ((extractLsb'_byte _ _ 16).2).trans (((extractLsb'_byte _ _ 8).2).trans (((extractLsb'_byte _ _ 0).2).trans ?_))
    exact BitVec.eq_of_getElem_eq fun i hi => by rw [BitVec.getElem_extractLsb', Nat.zero_add]; rfl

theorem leWord_wordAt (bs : List Byte) (i : Nat) : leWord (wordAt bs i) = [byteAt bs i, byteAt bs (i + 1), byteAt bs (i + 2), byteAt bs (i + 3)] :=
  leWord_bytes _ _ _ _

/-- The last four bytes of a run, by their places. -/
theorem drop_eq_four {bs : List Byte} {n : Nat} (h : bs.length = n + 4) :
    bs.drop n = [byteAt bs n, byteAt bs (n + 1), byteAt bs (n + 2), byteAt bs (n + 3)] := by
  refine List.ext_getElem (by simp [h]) fun i h1 h2 => ?_
  have hb (k : Nat) (hk : k < bs.length) : byteAt bs k = bs[k] := List.getD_eq_getElem _ _ hk
  simp only [List.length_cons, List.length_nil] at h2
  rw [hb n (by omega), hb (n + 1) (by omega), hb (n + 2) (by omega), hb (n + 3) (by omega)]
  rw [List.getElem_drop]
  interval_cases i <;> rfl

theorem take_eq_four {bs : List Byte} (h : 4 ≤ bs.length) : bs.take 4 = [byteAt bs 0, byteAt bs 1, byteAt bs 2, byteAt bs 3] := by
  have htake : (bs.take 4).drop 0 = _ := drop_eq_four (n := 0) (bs := bs.take 4) (by simp; omega)
  have hb (k : Nat) (hk : k < 4) : byteAt (bs.take 4) k = byteAt bs k := by
    simp only [byteAt, List.getD_eq_getElem?_getD, List.getElem?_take, if_pos hk]
  rw [List.drop_zero] at htake
  rw [htake, hb 0 (by omega), hb 1 (by omega), hb 2 (by omega), hb 3 (by omega)]

theorem halfAt_eq_one {bs : List Byte} {i : Nat} : halfAt bs i = 1 ↔ byteAt bs i = 1 ∧ byteAt bs (i + 1) = 0 := by
  rw [halfAt]
  constructor
  · intro h
    have hlow := (extractLsb'_byte (byteAt bs i) (byteAt bs (i + 1)) 0).1
    have hhigh := (extractLsb'_byte (byteAt bs i) (byteAt bs (i + 1)) 0).2
    rw [h] at hlow hhigh
    refine ⟨hlow.symm, ?_⟩
    rw [← BitVec.extractLsb'_eq_self (x := byteAt bs (i + 1)), ← hhigh]
    rfl
  · rintro ⟨h, h'⟩
    rw [h, h']
    rfl

theorem codesValid_iff {b : Byte} : codesValid b = true ↔ ∀ i, i < 4 → b.toNat / 4 ^ i % 4 ≠ 3 := by
  simp [codesValid, List.all_eq_true]

/-- A band block's tests, place by place (R66). -/
theorem bandValid_iff {bs : List Byte} (hlen : bs.length = 53040) {k : Nat} (hk : k < 12) :
    bandValid bs k = true ↔
      (∀ m, m < 3 → 1 ≤ (byteAt bs (8 + 4419 * k + m)).toNat ∧ (byteAt bs (8 + 4419 * k + m)).toNat ≤ 64)
        ∧ ∀ i f, i < 276 → f < 64 → (byteAt bs (8 + 4419 * k + 3 + 16 * i + f / 4)).toNat / 4 ^ (f % 4) % 4 ≠ 3 := by
  have hcodes : ((bs.drop (bandOffset k + 3)).take 4416).all codesValid = true
      ↔ ∀ j, j < 4416 → ∀ i, i < 4 → (byteAt bs (8 + 4419 * k + 3 + j)).toNat / 4 ^ i % 4 ≠ 3 := by
    have hget (j : Nat) (hj : j < 4416) : ((bs.drop (bandOffset k + 3)).take 4416)[j]? = some (byteAt bs (8 + 4419 * k + 3 + j)) := by
      have hin : 8 + 4419 * k + 3 + j < bs.length := by omega
      rw [List.getElem?_take, if_pos hj, List.getElem?_drop, byteAt, List.getD_eq_getElem _ _ hin, ← List.getElem?_eq_getElem hin]
      rfl
    simp only [List.all_eq_true, codesValid_iff]
    constructor
    · exact fun h j hj => h _ (List.mem_iff_getElem?.mpr ⟨j, hget j hj⟩)
    · intro h x hx
      obtain ⟨j, hj⟩ := List.mem_iff_getElem?.mp hx
      have hj' : j < 4416 := by
        have := (List.getElem?_eq_some_iff.mp hj).1
        rw [List.length_take] at this
        omega
      rw [hget j hj'] at hj
      cases hj
      exact h j hj'
  rw [bandValid, Bool.and_eq_true, hcodes]
  simp only [List.all_eq_true, List.mem_range, Bool.and_eq_true, decide_eq_true_eq]
  refine and_congr Iff.rfl ⟨fun h i f hi hf => ?_, fun h j hj f hf => ?_⟩
  · have := h (16 * i + f / 4) (by omega) (f % 4) (by omega)
    rwa [← Nat.add_assoc] at this
  · have := h (j / 16) (4 * (j % 16) + f) (by omega) (by omega)
    rwa [show 8 + 4419 * k + 3 + 16 * (j / 16) + (4 * (j % 16) + f) / 4 = 8 + 4419 * k + 3 + j by omega,
      show (4 * (j % 16) + f) % 4 = f by omega] at this

/-- The checks of R66. -/
theorem tableValid_iff {file : List Byte} :
    tableValid file = true ↔
      file.length = 53040 ∧ file.drop 53036 = leWord (crc32 (file.take 53036)) ∧ file.take 4 = [1, 0, 12, 64]
        ∧ ∀ k, k < 12 →
          (∀ m, m < 3 → 1 ≤ (byteAt file (8 + 4419 * k + m)).toNat ∧ (byteAt file (8 + 4419 * k + m)).toNat ≤ 64)
            ∧ ∀ i f, i < 276 → f < 64 → (byteAt file (8 + 4419 * k + 3 + 16 * i + f / 4)).toNat / 4 ^ (f % 4) % 4 ≠ 3 := by
  have htests : tableValid file = true ↔ file.length = 53040 ∧ crc32 (file.take 53036) = wordAt file 53036
      ∧ (halfAt file 0 = 1 ∧ byteAt file 2 = 12 ∧ byteAt file 3 = 64) ∧ ∀ k, k < 12 → bandValid file k = true := by
    simp only [tableValid, Bool.and_eq_true, decide_eq_true_eq, List.all_eq_true, List.mem_range, and_assoc, Config.tableBytes]
  rw [htests]
  refine and_congr_right fun hlen => and_congr ?_ (and_congr ?_ ?_)
  · have hdrop : file.drop 53036 = leWord (wordAt file 53036) := by rw [leWord_wordAt, drop_eq_four hlen]
    rw [hdrop]
    constructor
    · exact fun h => by rw [h]
    · intro h
      have h0 (w : Word) : wordAt (leWord w) 0 = w := wordAt_leWord [] w
      rw [← h0 (crc32 (file.take 53036)), ← h, h0]
  · rw [take_eq_four (by omega), halfAt_eq_one]
    simp only [List.cons.injEq, and_true, and_assoc]
  · exact forall_congr' fun k => imp_congr_right fun hk => bandValid_iff hlen hk

/-! ### The loads (R67, R126, R131, R179) -/

theorem imageValid_iff {image : List Byte} :
    imageValid image = true ↔ byteAt image 0 = 1 ∧ crc32 (image.take 13) = wordAt image 13
      ∧ ((rightsAt image 1).mask.toNat < 2 ^ 28 ∧ (rightsAt image 1).caps &&& (rightsAt image 1).defer = 0)
      ∧ (rightsAt image 7).mask.toNat < 2 ^ 28 ∧ (rightsAt image 7).caps &&& (rightsAt image 7).defer = 0 := by
  simp only [imageValid, rightsLegal, Bool.and_eq_true, decide_eq_true_eq, and_assoc]

/-- A system slot filled with an image from its start on. -/
theorem placedImage {s t : Part} (hwf : Memory.wf s.store.dram = true) {j : Nat} (hj : j < 32) {bs : List Byte} (hlen : bs.length ≤ 1048576)
    (ht : t = setSlot j imageSlot (setDram (Memory.writeRun s.store.dram (dramAddress j 0) bs) s)) :
    slot t j = imageSlot ∧ (∀ k, k < bs.length → cell t j k = byteAt bs k) ∧ (∀ a, bs.length ≤ a → a < 1048576 → cell t j a = cell s j a)
      ∧ (∀ i, i ≠ j → slot t i = slot s i ∧ ∀ a, a < 1048576 → cell t i a = cell s i a)
      ∧ t = { s with store := { t.store with retained := s.store.retained } } := by
  have hcell (i a : Nat) (ha : a < 1048576) : cell t i a = if i = j ∧ a < bs.length then byteAt bs a else cell s i a := by
    rw [ht]
    exact cell_writeRun hwf j bs hlen ha
  refine ⟨by rw [ht]; exact slot_setSlot_same _ j _ hj, fun k hk => ?_, fun a ha ha' => ?_, fun i hi => ⟨?_, fun a ha => ?_⟩, by rw [ht]; rfl⟩
  · rw [hcell j k (by omega), if_pos ⟨rfl, hk⟩]
  · rw [hcell j a ha', if_neg (by omega)]
  · rw [ht, slot_setSlot_other _ j i _ (Ne.symm hi)]
    rfl
  · rw [hcell i a ha, if_neg (by simp [hi])]

theorem bootRead_snd (ecc : List (Nat × List Sector)) (s : Part) (a : Nat) :
    (bootRead ecc s a).2 = readBytes (Nand.page s.flash.nand a) s.fresh a (eccOf ecc a) := by
  rw [bootRead]

theorem flatMap_pages_length (n : Nat) (f : Nat → Ecc × List Byte) (h : ∀ k, (f k).2.length = 4096) :
    (((List.range n).map f).flatMap Prod.snd).length = n * 4096 := by
  simp [List.flatMap_map, List.length_flatMap, h]

/-- Settles O31: each load by its test, the outcome and the bytes of a page read, and the file's checks. -/
theorem bootLoads : Obligations.BootLoads := by
  intro ecc s hwf
  refine ⟨?_, ?_, ?_, fun a ha => ?_, fun a ha => ?_, fun a data spare ha hlen => ?_, fun file => tableValid_iff⟩
  · intro x image at_ legal good
    have hgood : (x.1 ≠ .uncorrectable ∧ x.1 ≠ .erased ∧ imageValid x.2 = true) ↔ good := by
      rw [imageValid_iff]
      exact Iff.rfl
    exact ⟨fun h => if_pos (hgood.mpr h), fun h => if_neg (hgood.not.mpr h)⟩
  · intro pages file t
    have hbad : ((List.range 13).map fun i => 64 + i).any (fun a => decide ((bootRead ecc s a).1 = .uncorrectable)) = true
        ↔ ∃ x, x ∈ pages ∧ x.1 = .uncorrectable := by
      simp [pages]
    have hfile : (((List.range 13).map fun i => 64 + i).flatMap fun a => (bootRead ecc s a).2).take Config.tableBytes = file := by
      simp only [file, pages, List.flatMap_map]
    have ht : t = if ((List.range 13).map fun i => 64 + i).any (fun a => decide ((bootRead ecc s a).1 = .uncorrectable)) = true then s
        else if tableValid file = true then setSlot Config.waveformSlot imageSlot (placeTable 0 file s) else s := by
      rw [← hfile]
      rfl
    constructor
    · rintro (h | h)
      · rw [ht, if_pos (hbad.mpr h)]
      · rw [ht, if_neg (c := tableValid file = true) (by simp [h]), ite_self]
    · intro hgood hvalid
      have hlen := (tableValid_iff.mp hvalid).1
      have hgood' : ¬ ∃ x, x ∈ pages ∧ x.1 = .uncorrectable := fun ⟨x, hx, he⟩ => hgood x hx he
      rw [if_neg (hbad.not.mpr hgood'), if_pos hvalid] at ht
      obtain ⟨hslot, hin, hout, hother, hframe⟩ := placedImage hwf (j := 29) (by decide) (by omega) ht
      rw [hlen] at hin hout
      exact ⟨hslot, hin, hout, fun i hi => ⟨(hother i hi).1, fun _ => (hother i hi).2⟩, hframe⟩
  · intro pages image t
    obtain ⟨hnone, hsome⟩ := readSleepScreen_eq (bootRead ecc s) 254 128
    constructor
    · rintro ⟨x, hx, he⟩
      obtain ⟨k, hk, rfl⟩ := List.mem_map.mp hx
      have ht : t = _ := loadSleepScreen.eq_def ecc s
      rw [hnone ⟨k, List.mem_range.mp hk, he⟩] at ht
      exact ht
    · intro hgood
      have hlen : image.length = 1038336 := by
        have hpages : (pages.flatMap Prod.snd).length = 254 * 4096 := flatMap_pages_length 254 _ fun k => by rw [bootRead_snd, readBytes_length]
        rw [List.length_take, hpages]
        omega
      have ht : t = setSlot Config.sleepSlot imageSlot (setDram (Memory.writeRun s.store.dram (dramAddress Config.sleepSlot 0) image) s) := by
        have ht : t = _ := loadSleepScreen.eq_def ecc s
        rw [hsome fun k hk => hgood _ (List.mem_map.mpr ⟨k, List.mem_range.mpr hk, rfl⟩)] at ht
        rw [ht]
        simp only [image, pages, List.flatMap_map]
      obtain ⟨hslot, hin, hout, hother, hframe⟩ := placedImage hwf (j := 31) (by decide) (by omega) ht
      rw [hlen] at hin hout
      exact ⟨hslot, hin, hout, fun i hi => ⟨(hother i hi).1, fun _ => (hother i hi).2⟩, hframe⟩
  · exact if_pos ha
  · rw [← readsErased_iff, ← readOutcome_erased s.fresh a, ← ha]
    have hnot : Nand.page s.flash.nand a ≠ some .torn := by simp [ha]
    exact iff_of_eq (congrArg (· = Ecc.erased) (if_neg hnot))
  · intro x good
    have hsecond : x.2 = readBytes (some (.programmed data spare)) s.fresh a (eccOf ecc a) := by
      rw [← ha, ← bootRead_snd]
    have hfirst : x.1 = if anyFails (eccOf ecc a) = true then .uncorrectable else .corrected (worstSector (eccOf ecc a)) := by
      have hnot : Nand.page s.flash.nand a ≠ some .torn := by simp [ha]
      have hx : x.1 = readOutcome (Nand.page s.flash.nand a) s.fresh a (eccOf ecc a) := if_neg hnot
      rw [hx, ha]
      rfl
    constructor
    · intro h
      have hfails := anyFails_eq_false.mpr h
      refine ⟨?_, worstSector (eccOf ecc a), by rw [hfirst, hfails]; rfl, worstSector_spec hfails⟩
      rw [hsecond]
      exact page_ext (readBytes_length _ _ _ _) hlen fun i hi => byteAt_readBytes _ _ _ _ _ hi (byteFails_of_anyFails hfails hi)
    · rintro ⟨y, hy, hbad⟩
      have hfails : anyFails (eccOf ecc a) = true := by
        rw [← Bool.not_eq_false, anyFails_eq_false]
        exact fun h => hbad (h y hy)
      refine ⟨by rw [hfirst, if_pos hfails], by rw [hsecond, readBytes_length], fun i hi hgood => ?_⟩
      rw [hsecond]
      exact byteAt_readBytes _ _ _ _ _ hi (sectorFails_eq_false.mpr hgood)

end Sys2Proof.Machine
end

section
/-! PROOFS. The reads that change nothing (R16, R37, R62, R81, R95, R108, R153, R175, R183, R187, R190, R195): each answers with
the bytes its block lays out, which are compared with R197's field by field. -/

namespace Sys2Proof.Machine

/-! ### The fields of a read -/

theorem padTo_length (n : Nat) (bs : List Byte) : (padTo n bs).length = n := by
  simp [padTo]

theorem le2_length (n : Nat) : (le2 n).length = 2 := rfl

theorem leWord_length (w : Word) : (leWord w).length = 4 := rfl

theorem flagBit_zero (b : Bool) : flagBit 0 b = b.toNat := by cases b <;> rfl

/-- A flag as a byte of its own. -/
theorem byteOf_flag (b : Bool) : byteOf b.toNat = if b = true then 1 else 0 := by cases b <;> rfl

/-- A read that answers OK with bytes: what its deselect and its sample do, and how many bytes there are. -/
theorem exec_read {i : ReadMoment → Instr} {g : Part → List Byte} {p : Port} {s : State} {bytes : List Byte} {n : Nat}
    (hi : ∀ m s, partAfter (i m) s = readTransaction (i .deselect) m (reply g) s) (hp : commandPort (i .deselect) = p)
    (ht : takes s.part p = true) (hx : strayData (i .deselect) = 0) (hv : verdict (i .deselect) p s.part = .pass)
    (ho : takenWhileOffPending (codeOf (i .deselect)) = true) (hg : g (inTransaction s.part p) = bytes) (hn : bytes.length = n) :
    exec (i .deselect) s = .next { s with part := { s.part with ports := answered s.part p { code := .ok, data := bytes } } }
      ∧ exec (i .sample) s = .next { s with part := sampled .taken s.part p bytes } ∧ bytes.length = n := by
  have hf : reply g (inTransaction s.part p) = (inTransaction s.part p, some { code := .ok, data := bytes }) := by rw [reply, hg]
  obtain ⟨hd, hs⟩ := read_of_pass hp ht hx hv ho hf
  exact ⟨exec_of_part ((hi _ _).trans hd), exec_of_part ((hi _ _).trans hs), hn⟩

/-! ### Transactions that BOOT takes too (R127) -/

/-- The part while a transaction in a line state is in progress. -/
def inLine (x : Line) (s : Part) (p : Port) : Part := { s with ports := s.ports.set p (unitIn x s p) }

section

variable {x : Line} {i : Instr} {p : Port} {f : Part → Part × Option Reply} {s : Part}

theorem transaction_in (hx : x = .taken ∨ x = .boot) (hs : selectsAs x s p = true) (g : Line → Part → Part) :
    transaction p g s = g x (inLine x s p) := by
  rcases hx with rfl | rfl
  · exact transaction_of_takes p g s hs
  · exact transaction_of_boot p g s hs

theorem settle_inLine (x : Line) (p : Port) (r : Reply) (s : Part) :
    settle p r (inLine x s p) = { s with ports := s.ports.set p (answeredUnit x s p r) } := by
  simp [settle, inLine, modifyPort, Both.modify, answeredUnit, deselected]

/-- A command that BOOT takes, that passes and that an orderly OFF does not refuse. -/
theorem transact_in (hx : x = .taken ∨ x = .boot) (hs : selectsAs x s (commandPort i) = true) (hstray : strayData i = 0)
    (hb : takenInBoot (codeOf i) = true) (hv : verdict i (commandPort i) s = .pass) (ho : takenWhileOffPending (codeOf i) = true) :
    transact i f s = settleWith (commandPort i) (f (inLine x s (commandPort i))) := by
  have hv' : verdict i (commandPort i) (inLine x s (commandPort i)) = .pass := hv
  simp [transact, transaction_in hx hs, hstray, hb, checked, hv', owned, ho]

theorem sampleRead_in (hx : x = .taken ∨ x = .boot) (hs : selectsAs x s p = true) {code : Nat} (hb : takenInBoot code = true)
    {g : Part → ReadSample} {bytes : List Byte} (hg : g (inLine x s p) = dataSample bytes) :
    sampleRead code p g s = sampled x s p bytes := by
  rw [sampleRead_of_selects x hx code p g s hs (by rcases hx with rfl | rfl <;> simp [samplesIn, hb])]
  change { s with ports := s.ports.set p (ensureSample (g (inLine x s p)) (unitIn x s p)) } = _
  rw [hg, sampled]
  congr 2
  cases h : (port s p).sample with
  | none => simp [ensureSample, h, sampledUnit]
  | some y => simp [ensureSample, h]

end

/-! ### LIGHT READ, BATTERY READ, RIGHTS READ, PEER READ, IDENTIFY and STATUS -/

theorem halfOrAbsent_length (x : Option Nat) : (halfOrAbsent x).length = 2 := by cases x <;> rfl

theorem requestBytes_eq (issuer : Port) (x : Option PeerRequest) :
    requestBytes issuer x = match x with
      | none => 0 :: List.replicate 36 0xFF
      | some r => [1, BitVec.ofNat 8 (portCode issuer), r.code, BitVec.ofNat 8 r.age, BitVec.ofNat 8 r.params.length]
          ++ (r.params ++ List.replicate 32 0xFF).take 32 := by
  cases x with
  | none => rfl
  | some r =>
    have htail : List.replicate 37 (0xFF : Byte) = List.replicate 32 0xFF ++ List.replicate 5 0xFF := rfl
    simp only [requestBytes, padTo, htail, byteOf, List.cons_append, List.nil_append, List.take_succ_cons]
    rw [← List.append_assoc, List.take_append_of_le_length (by simp)]

theorem requestBytes_length (issuer : Port) (x : Option PeerRequest) : (requestBytes issuer x).length = 37 := by
  cases x <;> exact padTo_length _ _

theorem flatMap_le2_length (l : List Nat) : (l.flatMap le2).length = 2 * l.length := by
  induction l with
  | nil => rfl
  | cons a l ih =>
    rw [List.flatMap_cons, List.length_append, ih, le2_length, List.length_cons]
    omega

/-- The identification bytes (R195). -/
theorem identifyBytes_eq (s : Part) (h : s.flash.identity.factoryBad.length ≤ 20) :
    identifyBytes s = leHalf s.flash.identity.vendor ++ leHalf s.flash.identity.part ++ [s.flash.identity.revision, BitVec.ofNat 8 s.flash.identity.factoryBad.length]
      ++ (s.flash.identity.factoryBad.flatMap fun b => le2 b) ++ List.replicate (40 - 2 * s.flash.identity.factoryBad.length) 0xFF
      ++ le2 1248 ++ le2 1664 ++ [16, 32, 8, 32] ++ le2 1024 ++ [64] := by
  have hpad : padTo 40 (s.flash.identity.factoryBad.flatMap le2)
      = (s.flash.identity.factoryBad.flatMap fun b => le2 b) ++ List.replicate (40 - 2 * s.flash.identity.factoryBad.length) 0xFF := by
    have hlen := flatMap_le2_length s.flash.identity.factoryBad
    rw [padTo, List.take_append, List.take_of_length_le (by omega), List.take_replicate, hlen, Nat.min_eq_left (by omega)]
  simp only [identifyBytes, hpad, List.append_assoc]
  rfl

theorem identifyBytes_length (s : Part) : (identifyBytes s).length = 57 := by
  simp only [identifyBytes, List.length_append, padTo_length]
  rfl

theorem pendingBits_eq (u : NoticeUnit) : pendingBits u = (allKinds.map fun k => if notice u k = none then 0 else 2 ^ kindIndex k).sum := by
  have h (k : NoticeKind) : flagBit (kindIndex k) (isPending u k) = if notice u k = none then 0 else 2 ^ kindIndex k := by
    rw [isPending]
    cases h : notice u k with
    | none => rfl
    | some n => exact (if_neg (by simp)).symm
  simp only [pendingBits, h]

/-- Settles O49: each read through `exec_read`, field by field. -/
theorem readsAndStatus : Obligations.ReadsAndStatus := by
  refine ⟨fun p s ht => ?_, fun x p s hx hs => ?_, fun x p s hx hs => ?_, fun u data => ⟨fun h => by simp [sentData, h], fun v h => by simp [sentData, h]⟩⟩
  · intro x answers l level limited warm moving light b half byte period battery one flag rights record_ requests
    refine ⟨?_, ?_, ?_, ?_⟩
    · refine exec_read (i := fun m => .lightRead ⟨p, m⟩) (g := lightBytes) (fun m _ => by cases m <;> rfl) rfl ht rfl (verdict_of_free _ _ _ (.inl rfl)) rfl ?_ rfl
      have hmoving : ramping l = true ↔ moving := by simp [ramping, moving]
      have hflags : flagBit 0 (ramping l) + flagBit 1 x.power.offPending = (if moving then 1 else 0) + (if x.power.offPending = true then 2 else 0) := by
        simp only [flagBit, hmoving]
        rfl
      change lightBytes x = light
      simp only [lightBytes, light, ← hflags]
      rfl
    · have hhalf (f : Sample → Nat) : halfOrAbsent (b.last.map f) = half f := by
        simp only [half]
        cases b.last <;> rfl
      have hbyte (f : Sample → Nat) : byteOrAbsent (b.last.map f) = byte f := by
        simp only [byte]
        cases b.last <;> rfl
      have hmean : halfOrAbsent (mean b) = if b.window = [] then [0xFF, 0xFF] else le2 (b.window.sum / b.window.length) := by
        simp only [mean, List.isEmpty_iff]
        split <;> rfl
      have hperiod : periodCode x.power.state = period := by
        simp only [period]
        cases x.power.state <;> rfl
      have hbattery : batteryBytes x = battery := by
        change halfOrAbsent (mean b) ++ [byteOf (batteryCode b.state), byteOf b.window.length]
          ++ halfOrAbsent (b.last.map fun x => x.code.toNat) ++ halfOrAbsent (b.last.map fun x => x.volts) ++ halfOrAbsent (b.last.map fun x => x.compensated)
          ++ [byteOrAbsent (b.last.map fun x => x.light + x.panel + x.flash), byteOrAbsent (b.last.map fun x => x.light),
              byteOrAbsent (b.last.map fun x => x.panel), byteOrAbsent (b.last.map fun x => x.flash)]
          ++ le2 b.resistance ++ [byteOf (periodCode x.power.state), byteOf x.pins.charger.toNat] = battery
        simp only [hhalf, hbyte, hmean, hperiod, byteOf_flag]
        rfl
      refine exec_read (i := fun m => .batteryRead ⟨p, m⟩) (g := batteryBytes) (fun m _ => by cases m <;> rfl) rfl ht rfl (verdict_of_free _ _ _ (.inl rfl)) rfl hbattery ?_
      rw [← hbattery]
      simp only [batteryBytes, List.length_append, halfOrAbsent_length, le2_length]
      rfl
    · refine exec_read (i := fun m => .rightsRead ⟨p, m⟩) (g := rightsReadBytes) (fun m _ => by cases m <;> rfl) rfl ht rfl (verdict_of_free _ _ _ (.inl rfl)) rfl ?_ rfl
      change rightsReadBytes x = rights
      simp only [rightsReadBytes, byteOf_flag]
      rfl
    · have hpeer : peerBytes p x = record_ (peer p) (requests.get (peer p)) ++ record_ p (requests.get p) := by
        simp only [peerBytes, requestBytes_eq]
        rfl
      refine exec_read (i := fun m => .peerRead ⟨p, m⟩) (g := peerBytes p) (fun m _ => by cases m <;> rfl) rfl ht rfl (verdict_of_free _ _ _ (.inl rfl)) rfl hpeer ?_
      rw [← hpeer, peerBytes, List.length_append, requestBytes_length, requestBytes_length]
  · intro id hbad bytes
    have hbytes : identifyBytes s.part = bytes := identifyBytes_eq s.part hbad
    have hin : identifyBytes (inLine x s.part p) = bytes := hbytes
    have hpass : verdict (.identify ⟨p, .deselect⟩) p s.part = .pass := verdict_of_free _ _ _ (.inl rfl)
    refine ⟨by rw [← hbytes, identifyBytes_length], ?_, ?_⟩
    · refine exec_of_part ((transact_in (i := .identify ⟨p, .deselect⟩) (f := reply identifyBytes) hx hs rfl rfl hpass rfl).trans ?_)
      change settleWith p (inLine x s.part p, some { code := .ok, data := identifyBytes (inLine x s.part p) }) = _
      rw [hin]
      exact settle_inLine x p { code := .ok, data := bytes } s.part
    · refine exec_of_part (sampleRead_in (code := 1) (g := fun s => dataSample (drivenData (.identify ⟨p, .deselect⟩) p (reply identifyBytes) s)) hx hs rfl ?_)
      have hpass' : verdict (.identify ⟨p, .deselect⟩) p (inLine x s.part p) = .pass := hpass
      simp only [drivenData, hpass', reply, hin]
  · intro u kinds pending bit unread flags bytes
    have hunit : port (inLine x s.part p) p = unitIn x s.part p := port_setPorts _ _ _
    have hrest : (unitIn x s.part p).notices = u.notices ∧ (unitIn x s.part p).lastResult = u.lastResult
        ∧ (unitIn x s.part p).lastValue = u.lastValue ∧ (unitIn x s.part p).fetch = u.fetch := by
      unfold unitIn
      split <;> exact ⟨rfl, rfl, rfl, rfl⟩
    obtain ⟨hnotices, hresult, hvalue, hfetch⟩ := hrest
    have hbytes : statusBytes (inLine x s.part p) p = bytes := by
      have hkept : fetchReadyFlag (unitIn x s.part p) = fetchReadyFlag u := by
        rw [fetchReadyFlag, fetchReadyFlag, hfetch]
      have hunread : fetchReadyFlag (unitIn x s.part p) = unread := hkept.trans rfl
      simp only [statusBytes, hunit, hnotices, hresult, hvalue, hunread, pendingBits_eq, byteOf_flag]
      rfl
    refine ⟨exec_of_part ((transaction_in hx hs (fun _ s => settleStatus p (statusBytes s p) s)).trans ?_), exec_of_part (sampleRead_in (code := 0) (g := fun s => dataSample (statusBytes s p)) hx hs rfl (by rw [hbytes])), rfl⟩
    rw [hbytes]
    simp [settleStatus, inLine, modifyPort, Both.modify, deselected]

/-! ### The tables of the other reads (R197) -/

/-- Records of one size. -/
theorem length_flatMap_of_const {α : Type} {f : α → List Byte} {n : Nat} (h : ∀ a, (f a).length = n) (l : List α) :
    (l.flatMap f).length = l.length * n := by
  simp [List.length_flatMap, h]

theorem slotBytes_length (v : Slot) : (slotBytes v).length = 10 := rfl

theorem laneBytes_length (l : Option Lane) : (laneBytes l).length = 22 := by
  cases l with
  | none => exact padTo_length _ _
  | some l => rfl

theorem directoryRecord_length (i : Nat) (v : Record) : (directoryRecord i v).length = 38 := rfl

theorem wordOrAbsent_length (x : Option Word) : (wordOrAbsent x).length = 4 := by cases x <;> rfl

/-- What the running lanes hold, in the order of the lanes. -/
theorem flatMap_runningLanes {α : Type} (e : Engine) (f : Lane → List α) :
    ((runningLanes e).flatMap fun x => f x.2) = e.lanes.toList.flatMap fun l => match l with
      | none => []
      | some l => f l := by
  rw [runningLanes_eq]
  generalize e.lanes.toList = ls, 0 = k
  induction ls generalizing k with
  | nil => rfl
  | cons l ls ih =>
    cases l with
    | none => simpa [runningFrom] using ih (k + 1)
    | some l => simpa [runningFrom] using ih (k + 1)

theorem sum_followUps (e : Engine) :
    ((runningLanes e).map fun x => x.2.followUps.length).sum = (((runningLanes e).flatMap fun x => x.2.followUps)).length := by
  rw [List.length_flatMap]

theorem cursorSlot_eq (t : Turn) : cursorSlot t = t.cursor.bind fun i => t.list[i]? := by
  unfold cursorSlot entryAt
  cases t.cursor with
  | none => rfl
  | some i => simp

/-- The records in the order of their indexes. -/
theorem records_eq (s : Part) : records s = (List.range 32).map fun i => (i, record s i) := by
  refine List.ext_getElem (by simp [records]) fun i h1 h2 => ?_
  have hi : i < 32 := by simpa using h2
  simp [records, record, tableGet, List.getD, hi]

theorem byteOf_toNat (b : Byte) : byteOf b.toNat = b := by simp [byteOf]

theorem min_eq_ite (a b : Nat) : min a b = if a < b then a else b := by
  split <;> omega

/-- Settles O50: each read through `exec_read`, its records by their fields. -/
theorem readLayouts : Obligations.ReadLayouts := by
  intro p s ht
  intro x answers n1 flag absent1 absent4 filled slots t e mine attached waiting turn origin portOf_ rect lanes place engine w held file band frames id temperature f j target health directory
  have habsent1 (v : Option Nat) : byteOrAbsent v = absent1 v := by
    simp only [absent1]
    cases v <;> rfl
  have habsent4 (v : Option Word) : wordOrAbsent v = absent4 v := by
    simp only [absent4]
    cases v <;> rfl
  have hflag (b : Bool) : n1 (flag b 0) = byteOf b.toNat := by cases b <;> rfl
  refine ⟨?_, ?_, ?_, ?_, ?_, fun hp => ⟨fun hf => ?_, fun hf => ?_⟩⟩
  · have hslots : slotTableBytes x = slots := by
      refine congrArg (fun g => x.store.slots.toList.flatMap g) (funext fun v => ?_)
      have hkey : leWord (v.key.getD 0) = match v.key with
          | none => [0, 0, 0, 0]
          | some k => leWord k := by cases v.key <;> rfl
      have hstate : slotStateCode v.state = match v.state with
          | .empty => 0
          | .filling => 1
          | .ready => 2
          | .lost => 3 := by cases v.state <;> rfl
      rw [slotBytes, hkey, hstate, habsent1]
      rfl
    refine exec_read (i := fun m => .slotTableRead ⟨p, m⟩) (g := slotTableBytes) (fun m _ => by cases m <;> rfl) rfl ht rfl (verdict_of_free _ _ _ (.inl rfl)) rfl hslots ?_
    rw [← hslots, slotTableBytes, length_flatMap_of_const slotBytes_length, Vector.length_toList]
  · have hwaiting : waitingTurn e = waiting := by
      simp only [waitingTurn, flatMap_runningLanes]
      rfl
    have hturn : turnBytes x = turn := by
      have hbytes : turnBytes x = [byteOf t.list.length] ++ padTo 28 (t.list.map byteOf)
        ++ [byteOrAbsent t.cursor, byteOrAbsent (cursorSlot t), signedByte t.backlog, byteOf t.lookahead, byteOf (modeCode t.mode),
          byteOf (waitingTurn e).1, byteOrAbsent (waitingTurn e).2] := rfl
      rw [hbytes, hwaiting, cursorSlot_eq, habsent1, habsent1, habsent1]
      rfl
    refine exec_read (i := fun m => .turnStateRead ⟨p, m⟩) (g := turnBytes) (fun m _ => by cases m <;> rfl) rfl ht rfl (verdict_of_free _ _ _ (.inl rfl)) rfl hturn ?_
    rw [← hturn]
    simp only [turnBytes, List.length_append, padTo_length]
    rfl
  · have horigin (o : FirstOrigin) : originCode o = origin o := by
      cases o with
      | port q => cases q <;> rfl
      | turn => rfl
      | power => rfl
    have hport (u : Update) : updatePort u = portOf_ u.origin := by
      simp only [updatePort, portOf_]
      cases u.origin <;> rfl
    have hlane : laneBytes = fun l => match l with
        | none => (0 : Byte) :: List.replicate 21 0xFF
        | some l => [1, n1 (origin l.update.origin + if l.followUp = true then 4 else 0), portOf_ l.update.origin, n1 l.update.source]
            ++ rect l.update.rect
            ++ [n1 l.exclusions.length, n1 (modeCode l.applied), n1 (flag l.promoted 0 + flag l.demoted 1), n1 l.band,
                n1 (match l.clamp with
                  | .none => 0
                  | .cold => 1
                  | .hot => 2),
                n1 l.frames, n1 l.index, l.update.tag, n1 (flag l.update.notify 0), n1 l.followUps.length] := by
      funext l
      cases l with
      | none => rfl
      | some l =>
        have hclamp : clampCode l.clamp = match l.clamp with
            | .none => 0
            | .cold => 1
            | .hot => 2 := by cases l.clamp <;> rfl
        simp only [laneBytes, horigin, hport, hclamp, hflag]
        rfl
    have hplace (u : Update) : releaseBytes u = place u := by
      simp only [releaseBytes, place, horigin, hport]
      rfl
    have hqueue (u : Update) : queueBytes u = place u ++ [n1 (flag u.notify 0), if u.origin = .power then 1 else 0] := by
      have hpower : byteOf (decide (u.origin = .power)).toNat = if u.origin = .power then 1 else 0 := by
        rw [byteOf_flag]
        simp only [decide_eq_true_eq]
      have hbytes : queueBytes u = releaseBytes u ++ [byteOf u.notify.toNat, byteOf (decide (u.origin = .power)).toNat] := by
        simp [queueBytes, releaseBytes]
      rw [hbytes, hpower, hplace, ← hflag]
    have hpool : e.pool = e.release.length + attached.length := by
      rw [Engine.pool, sum_followUps, flatMap_runningLanes] <;> rfl
    have houtcome : outcomeCode e.outcome = match e.outcome with
        | .empty => 0
        | .blockedFollowUps => 1
        | .blockedPool => 2
        | .blockedNoLane => 3
        | .waveformPending => 4 := by cases e.outcome <;> rfl
    have hengine : engineBytes x = engine := by
      have hbytes : engineBytes x = e.lanes.toList.flatMap laneBytes
        ++ [byteOf e.queue.length] ++ padTo 255 (e.queue.flatMap queueBytes)
        ++ [byteOf e.release.length] ++ padTo 416 (e.release.flatMap releaseBytes)
        ++ [byteOf e.pool, byteOf (outcomeCode e.outcome), byteOf x.wave.replacementPending.toNat] := rfl
      rw [hbytes, hlane, funext hqueue, funext hplace, hpool, houtcome, ← hflag]
      rfl
    refine exec_read (i := fun m => .engineRead ⟨p, m⟩) (g := engineBytes) (fun m _ => by cases m <;> rfl) rfl ht rfl (verdict_of_free _ _ _ (.inl rfl)) rfl hengine ?_
    rw [← hengine]
    simp only [engineBytes, List.length_append, padTo_length, length_flatMap_of_const laneBytes_length, Vector.length_toList]
    rfl
  · have hframes (m : Mode) : byteOrAbsent (match w.reading.map bandOf with
        | some k => if tableHeld x then some (frameCountIn (activeByte x) k m) else none
        | none => none) = frames (modeCode m) := by
      simp only [frames, band]
      cases w.reading with
      | none => rfl
      | some c =>
        change byteOrAbsent (if held = true then some (frameCountIn (activeByte x) (bandOf c) m) else none) = if held = true then file (8 + 4419 * bandOf c + modeCode m) else 0xFF
        by_cases hh : held = true
        · rw [if_pos hh, if_pos hh]
          exact byteOf_toNat _
        · rw [if_neg hh, if_neg hh]
          rfl
    have hid (b : Bool) (g : Nat → Byte) (a : Nat) (hg : ∀ k, g k = file (a + k)) :
        wordOrAbsent (if b = true then some (tableId g) else none) = if b = true then id a else [0xFF, 0xFF, 0xFF, 0xFF] := by
      cases b with
      | false => rfl
      | true =>
        change leWord (g 7 ++ g 6 ++ g 5 ++ g 4) = _
        rw [leWord_bytes, hg, hg, hg, hg]
        rfl
    have hclamp : byteOrAbsent (w.reading.map fun c => clampCode (clampOf c)) = absent1 (w.reading.map fun c => if c < 0 then 1 else if 192 ≤ c then 2 else 0) := by
      rw [habsent1]
      congr 2
      funext c
      unfold clampOf
      split_ifs <;> rfl
    have htemperature : temperatureBytes x = temperature := by
      have hbytes : temperatureBytes x = [byteOf (flagBit 0 w.reading.isSome + flagBit 1 (tableHeld x) + flagBit 2 w.replacementPending + flagBit 3 w.reprogram)]
        ++ leHalf (BitVec.ofInt 16 (w.reading.getD 0))
        ++ wordOrAbsent (w.reading.map fun _ => BitVec.ofNat 32 w.age)
        ++ [byteOrAbsent (w.reading.map bandOf), byteOrAbsent (w.reading.map fun c => clampCode (clampOf c))]
        ++ wordOrAbsent (if tableHeld x = true then some (tableId (activeByte x)) else none)
        ++ [byteOrAbsent (match w.reading.map bandOf with
              | some k => if tableHeld x then some (frameCountIn (activeByte x) k .full) else none
              | none => none),
            byteOrAbsent (match w.reading.map bandOf with
              | some k => if tableHeld x then some (frameCountIn (activeByte x) k .gray) else none
              | none => none),
            byteOrAbsent (match w.reading.map bandOf with
              | some k => if tableHeld x then some (frameCountIn (activeByte x) k .quick) else none
              | none => none)]
        ++ wordOrAbsent (if w.replacementPending = true then some (tableId (incomingByte x)) else none)
        ++ [byteOf e.ghostLimit] ++ e.tiles.toList.map byteOf := by
        simp only [temperatureBytes, w, e]
        generalize x.wave.reading = r
        cases r <;> rfl
      have hreading : w.reading.getD 0 = match w.reading with
          | none => 0
          | some c => c := by cases w.reading <;> rfl
      rw [hbytes, hframes, hframes, hframes, hid _ (activeByte x) 0 (fun k => by rw [Nat.zero_add]; rfl), hid _ (incomingByte x) 524288 (fun k => rfl), hclamp, habsent1, habsent4, hreading]
      rfl
    refine exec_read (i := fun m => .temperatureRead ⟨p, m⟩) (g := temperatureBytes) (fun m _ => by cases m <;> rfl) rfl ht rfl (verdict_of_free _ _ _ (.inl rfl)) rfl htemperature ?_
    rw [← htemperature]
    simp only [temperatureBytes, List.length_append, wordOrAbsent_length, List.length_map, Vector.length_toList]
    rfl
  · have hspool : spoolCode f.spool = match f.spool with
        | .ready => 0
        | .worn => 1
        | .faulted => 2 := by cases f.spool <;> rfl
    have hoperation : byteOf ((f.running.map fun x => operationCode x.operation).getD 0) = match f.running with
        | none => 0
        | some r => match r.operation with
          | .read _ _ => 1
          | .program _ _ _ => 2
          | .erase _ => 3
          | .move _ _ _ => 4 := by
      cases f.running with
      | none => rfl
      | some r =>
        simp only [Option.map_some, Option.getD_some]
        cases r.operation <;> rfl
    have htarget : halfOrAbsent ((relocationTarget f).map Prod.fst) ++ [byteOrAbsent ((relocationTarget f).map Prod.snd)] = target := by
      simp only [relocationTarget, target]
      cases f.recovery.bind Recovery.target with
      | some y => rfl
      | none => cases f.scrub <;> rfl
    have hhealth : healthBytes x = health := by
      have hbytes : healthBytes x = le2 f.free.length ++ le2 f.erasePending.length ++ le2 (f.erasePending.filter fun e => decide (e.hold ≠ .free)).length
        ++ [byteOf f.retired.length, byteOf f.factoryBad.length, byteOf (spoolCode f.spool), byteOrAbsent j.active]
        ++ leWord j.generation ++ [byteOf j.nextPage] ++ le2 (min 65535 j.batch.length)
        ++ [byteOf f.scrubList.length] ++ padTo 16 (f.scrubList.flatMap le2)
        ++ halfOrAbsent ((relocationTarget f).map Prod.fst) ++ [byteOrAbsent ((relocationTarget f).map Prod.snd)]
        ++ [byteOf ((f.running.map fun x => operationCode x.operation).getD 0)] := rfl
      rw [hbytes, List.append_assoc _ (halfOrAbsent _), htarget, hoperation, hspool, min_eq_ite, ← List.countP_eq_length_filter, habsent1]
      rfl
    refine exec_read (i := fun m => .flashHealthRead ⟨p, m⟩) (g := healthBytes) (fun m _ => by cases m <;> rfl) rfl ht rfl (verdict_of_free _ _ _ (.inl rfl)) rfl hhealth ?_
    rw [← hhealth]
    simp only [healthBytes, List.length_append, padTo_length, halfOrAbsent_length, le2_length, leWord_length]
    rfl
  · have hverdict : verdict (.directoryRead ⟨p, .deselect⟩) p s.part = .pass := verdict_of_permits _ p s.part 5 rfl hp
    have hreply : replyWith directoryReply (inTransaction s.part p) = (inTransaction s.part p, some { code := .badState }) := by
      have hfault : (inTransaction s.part p).flash.spool = .faulted := hf
      rw [replyWith, directoryReply, if_pos hfault]
    obtain ⟨hd, hs⟩ := read_of_pass (i := .directoryRead ⟨p, .deselect⟩) (f := replyWith directoryReply) rfl ht rfl hverdict rfl hreply
    exact ⟨exec_of_part hd, exec_of_part hs⟩
  · have hverdict : verdict (.directoryRead ⟨p, .deselect⟩) p s.part = .pass := verdict_of_permits _ p s.part 5 rfl hp
    have hspool : spoolCode f.spool = match f.spool with
        | .ready => 0
        | .worn => 1
        | .faulted => 2 := by cases f.spool <;> rfl
    have hrecord (i : Nat) (v : Record) : directoryRecord i v = [n1 i,
          n1 (match v.state with
            | .free => 0
            | .opened => 1
            | .stalled => 2
            | .sealing => 3
            | .sealed => 4
            | .corrupt => 5
            | .fault => 6
            | .claimed => 7),
          if decide (v.state = .free) = true then 0xFF else n1 (portCode v.writer), n1 (flag v.ending 0 + flag v.running.isNone 1)]
          ++ (if decide (v.state = .free) = true then [0, 0, 0, 0] else leWord v.title) ++ le4 v.declared ++ le4 v.received ++ le4 v.programmed
          ++ le4 v.durable ++ leWord (v.running.getD Config.absentCrc) ++ leWord v.checkpoint ++ le2 v.extent.length ++ le2 v.reservation
          ++ [n1 v.stall, n1 v.damaged] := by
      have hstate : recordStateCode v.state = match v.state with
          | .free => 0
          | .opened => 1
          | .stalled => 2
          | .sealing => 3
          | .sealed => 4
          | .corrupt => 5
          | .fault => 6
          | .claimed => 7 := by cases v.state <;> rfl
      have hwriter (b : Bool) : byteOrAbsent (if b = true then none else some (portCode v.writer)) = if b = true then 0xFF else n1 (portCode v.writer) := by
        cases b <;> rfl
      have htitle (b : Bool) : leWord (if b = true then 0 else v.title) = if b = true then [0, 0, 0, 0] else leWord v.title := by
        split <;> rfl
      rw [directoryRecord, hstate, hwriter, htitle]
      rfl
    have hdirectory : directoryBytes x = directory := by
      rw [directoryBytes, records_eq, List.flatMap_map, hspool]
      simp only [hrecord]
      rfl
    have hreply : replyWith directoryReply (inTransaction s.part p) = (inTransaction s.part p, some { code := .ok, data := directory }) := by
      have hheld : (inTransaction s.part p).flash.spool ≠ .faulted := hf
      rw [replyWith, directoryReply, if_neg hheld]
      have hdata : directoryBytes (inTransaction s.part p) = directory := hdirectory
      rw [hdata]
    obtain ⟨hd, hs⟩ := read_of_pass (i := .directoryRead ⟨p, .deselect⟩) (f := replyWith directoryReply) rfl ht rfl hverdict rfl hreply
    refine ⟨exec_of_part hd, exec_of_part hs, ?_⟩
    rw [← hdirectory, directoryBytes, records_eq, List.flatMap_map, List.length_append, List.length_append,
      length_flatMap_of_const fun i => directoryRecord_length i _, List.length_range]
    rfl

end Sys2Proof.Machine
end

section
/-! PROOFS. The framing of transactions (R188 to R190): what a frame spells, what a command's transaction is by its code, and
the answers that do not depend on the command; and how a peer request ends (R183 to R185). -/

namespace Sys2Proof.Machine

/-! ### What a command's transaction is -/

/-- The moment of a read that is no sample. -/
theorem moment_eq_deselect {m : ReadMoment} (h : decide (m = .sample) = false) : m = .deselect := by
  cases m
  · cases h
  · rfl

/-- A read at its deselect is its whole transaction. -/
theorem transact_of_read {i : Instr} {m : ReadMoment} {f : Part → Part × Option Reply}
    (hi : ∀ s, partAfter i s = readTransaction i m f s) (hm : decide (m = .sample) = false) : ∃ f, ∀ s, partAfter i s = transact i f s := by
  obtain rfl := moment_eq_deselect hm
  exact ⟨f, hi⟩

/-- Every command but STATUS and NOTICE READ, whole, answers through the rights unit's check. -/
theorem transact_of_code {i : Instr} {code : Nat} (hc : commandCode i = some code) (h0 : code ≠ 0) (h2 : code ≠ 2)
    (hu : ∀ p c, i ≠ .unknownCommandCode p c) (hs : isSample i = false) : ∃ f, ∀ s, partAfter i s = transact i f s := by
  cases i
  case status => exact absurd (Option.some.inj hc).symm h0
  case noticeRead => exact absurd (Option.some.inj hc).symm h2
  case unknownCommandCode p c => exact absurd rfl (hu p c)
  case identify => exact transact_of_read (fun _ => rfl) hs
  case slotRead => exact transact_of_read (fun _ => rfl) hs
  case shownRead => exact transact_of_read (fun _ => rfl) hs
  case slotTableRead => exact transact_of_read (fun _ => rfl) hs
  case turnStateRead => exact transact_of_read (fun _ => rfl) hs
  case engineRead => exact transact_of_read (fun _ => rfl) hs
  case temperatureRead => exact transact_of_read (fun _ => rfl) hs
  case lightRead => exact transact_of_read (fun _ => rfl) hs
  case batteryRead => exact transact_of_read (fun _ => rfl) hs
  case fetchData => exact transact_of_read (fun _ => rfl) hs
  case directoryRead => exact transact_of_read (fun _ => rfl) hs
  case flashHealthRead => exact transact_of_read (fun _ => rfl) hs
  case rightsRead => exact transact_of_read (fun _ => rfl) hs
  case peerRead => exact transact_of_read (fun _ => rfl) hs
  all_goals first | exact ⟨_, fun _ => rfl⟩ | cases hc

/-- A command that data bytes can stray to. -/
theorem transact_of_stray {i : Instr} (h : strayData i ≠ 0) : ∃ f, ∀ s, partAfter i s = transact i f s := by
  cases i
  all_goals first | exact absurd rfl h | exact ⟨_, fun _ => rfl⟩

/-- Every transaction that is no sample runs from its select to its deselect. -/
theorem transaction_of_isTransaction {i : Instr} (hi : isTransaction i = true) (hs : isSample i = false) :
    ∃ g, ∀ s, partAfter i s = transaction (commandPort i) g s := by
  have hcommand {code : Nat} (hc : commandCode i = some code) (h0 : code ≠ 0) (h2 : code ≠ 2) (hu : ∀ p c, i ≠ .unknownCommandCode p c) :
      ∃ g, ∀ s, partAfter i s = transaction (commandPort i) g s := by
    obtain ⟨f, hf⟩ := transact_of_code hc h0 h2 hu hs
    obtain ⟨g, hg⟩ : ∃ g, ∀ s, transact i f s = transaction (commandPort i) g s :=
      ⟨fun line s => if strayData i ≠ 0 then settle (commandPort i) { code := .badParam } s
        else if line = .boot ∧ !takenInBoot (codeOf i) then settle (commandPort i) { code := .starting } s
        else checked i (commandPort i) f s, fun _ => rfl⟩
    exact ⟨g, fun s => (hf s).trans (hg s)⟩
  cases i
  case status rx =>
    obtain ⟨p, m⟩ := rx
    obtain rfl := moment_eq_deselect hs
    exact ⟨fun _ s => settleStatus p (statusBytes s p) s, fun _ => rfl⟩
  case noticeRead p m =>
    obtain rfl := moment_eq_deselect hs
    exact ⟨fun _ s => modifyPort p finishNotice s, fun _ => rfl⟩
  case unknownCommandCode p c => exact ⟨fun _ s => settle p { code := .badParam } s, fun _ => rfl⟩
  case aborted p cause => exact ⟨fun _ s => if cause = .shortRead 0 then settleStatus p [] s else settle p { code := .aborted } s, fun _ => rfl⟩
  all_goals first | exact hcommand rfl (by decide) (by decide) (fun _ _ h => nomatch h) | cases hi

/-- A well-formed command of a code that R197 gives. -/
theorem unnamed_of_wellFormed {i : Instr} {code : Nat} (hwf : i.wellFormed = true) (hc : commandCode i = some code) (hle : code ≤ 0x32) :
    ∀ p c, i ≠ .unknownCommandCode p c := by
  rintro p c rfl
  have hcode : c.toNat = code := Option.some.inj hc
  simp only [Instr.wellFormed, Bool.and_eq_true, decide_eq_true_eq] at hwf
  omega

/-- The sample of a read, and the reads that BOOT takes. -/
theorem sampleRead_of_isSample {i : Instr} (h : isSample i = true) : ∃ code f, (∀ s, partAfter i s = sampleRead code (commandPort i) f s)
    ∧ (takenInBoot code = true → (∃ p m, i = .status ⟨p, m⟩) ∨ (∃ p m, i = .identify ⟨p, m⟩) ∨ ∃ p m, i = .noticeRead p m) := by
  have hread {rx : Rx} {f : Part → Part × Option Reply} (hr : ∀ s, partAfter i s = readTransaction i rx.moment f s) (hm : decide (rx.moment = .sample) = true) :
      ∀ s, partAfter i s = sampleRead (codeOf i) (commandPort i) (fun s => dataSample (drivenData i (commandPort i) f s)) s := fun s => by
    rw [hr, of_decide_eq_true hm]
    rfl
  cases i
  case status rx =>
    obtain ⟨p, m⟩ := rx
    obtain rfl : m = .sample := of_decide_eq_true h
    exact ⟨0, fun s => dataSample (statusBytes s p), fun _ => rfl, fun _ => .inl ⟨p, _, rfl⟩⟩
  case noticeRead p m =>
    obtain rfl : m = .sample := of_decide_eq_true h
    exact ⟨2, fun s => noticeSample (port s p).notices, fun _ => rfl, fun _ => .inr (.inr ⟨p, _, rfl⟩)⟩
  case identify rx => exact ⟨_, _, hread (fun _ => rfl) h, fun _ => .inr (.inl ⟨rx.port, rx.moment, rfl⟩)⟩
  all_goals first | exact ⟨_, _, hread (fun _ => rfl) h, fun hb => nomatch hb⟩ | cases h

/-! ### Frames (R188, R189, R197) -/

theorem paramCount_of_unnamed : ∀ code < 64, 0x33 ≤ code → paramCount code = none := by decide

/-! ### The answers of a transaction by its line (R116, R127, R189, R190) -/

section

variable {p : Port} {s : Part}

/-- A sample on a line that takes none changes nothing but the select. -/
theorem sampleRead_of_line {code : Nat} {f : Part → ReadSample} (h : samplesIn code (port (selectPort p s) p).line = false) :
    sampleRead code p f s = selectPort p s := by
  simp [sampleRead, h]

theorem selectPort_of_ignores (h : selectsAs .ignored s p = true) :
    selectPort p s = { s with ports := s.ports.set p { port s p with line := .ignored } } := by
  by_cases hl : (port s p).line = .deselected
  · simp only [selectsAs, Bool.or_eq_true, Bool.and_eq_true, decide_eq_true_eq] at h
    have hs : lineAtSelect s = .ignored := by
      rcases h with h | ⟨_, h⟩
      · exact absurd (h.symm.trans hl) (by simp)
      · exact h
    rw [selectPort_of_ignored s p hl hs, modifyPort_eq]
  · have hline := unitIn_line .ignored s p h
    rw [unitIn, if_neg hl] at hline
    rw [selectPort_of_selected s p hl, ← hline]
    cases p <;> rfl

/-- What leaves HOLD works on the spool and the flash engine only. -/
theorem sameLines_leaveHold (s : Part) : SameLines s (leaveHold s) := by
  rcases leaveHold_cases s with h | ⟨_, h⟩
  · rw [h]
    exact .refl s
  · exact SameLines.trans (fun _ => rfl) h.2.2.2

/-- A select that wakes the part (R116). -/
theorem selectPort_of_hold (hl : (port s p).line = .deselected) (hh : lineAtSelect s = .hold) :
    s.power.state = .hold ∧ selectPort p s = leaveHold { s with ports := s.ports.set p (unitIn .hold s p) } := by
  constructor
  · have hanswers : ¬ (alive s = false ∨ s.power.forcedOff = true ∨ s.power.state = .off) := by
      rw [← lineAtSelect_eq_ignored, hh]
      exact nofun
    have h := lineAtSelect_of_answers hanswers
    rw [hh] at h
    cases hst : s.power.state <;> simp [hst] at h ⊢
  · simp only [selectPort]
    rw [if_neg (by simp [hl]), hh, if_neg (by simp), modifyPort_eq, unitIn, if_pos hl]
    rfl

theorem transaction_of_hold_line {g : Line → Part → Part} (h : (port (selectPort p s) p).line = .hold) :
    transaction p g s = settle p { code := .woken } (selectPort p s) := by
  simp only [transaction, h]

end

/-- Settles O48: what a frame spells, and the answers by the line of the transaction. -/
theorem framing : Obligations.Framing := by
  refine ⟨fun p f => ?_, fun p s => ?_⟩
  · intro code
    have hcode : code < 64 := Nat.mod_lt _ (by decide)
    have hwidth : f.command.toNat / 64 = 3 ↔ 192 ≤ f.command.toNat := by
      have := f.command.isLt
      omega
    refine ⟨fun h => if_pos h, fun h h' => ?_, fun h h' => ⟨fun hu => ?_, fun n hn => ⟨fun hfew => ?_, fun hall => ⟨fun hr hcut => ?_, fun hr hcut => ?_⟩⟩⟩⟩
    · rw [commandOf, if_neg (by omega), if_pos (hwidth.mpr h')]
    all_goals simp only [commandOf]; rw [if_neg (by omega), if_neg (hwidth.not.mpr (by omega))]
    · rw [show paramCount (f.command.toNat % 64) = none from paramCount_of_unnamed code hcode hu]
      rfl
    all_goals rw [show paramCount (f.command.toNat % 64) = some n from hn]
    · exact if_pos hfew
    · have hshort : (isReadCode (f.command.toNat % 64) && (f.cutByte || !f.readAll)) = true := by
        have hr' : isReadCode (f.command.toNat % 64) = true := hr
        rw [hr', Bool.true_and, Bool.or_eq_true, Bool.not_eq_true']
        exact hcut
      exact (if_neg (by omega)).trans (if_pos hshort)
    · have hshort : (isReadCode (f.command.toNat % 64) && (f.cutByte || !f.readAll)) = false := by
        have hr' : isReadCode (f.command.toNat % 64) = false := hr
        rw [hr', Bool.false_and]
      exact (if_neg (by omega)).trans ((if_neg (by simp [hshort])).trans (if_pos hcut))
  · intro unit
    refine ⟨fun i hi hp hs => ⟨fun hl => ?_, fun hl => ?_, fun hl hh => ?_⟩, fun i hs hp => ⟨fun hl => ?_, fun hl => ?_, fun hl h0 h1 h2 => ?_⟩,
      fun x hx hsel => ⟨fun code => ?_, fun cause hcause => ?_, ?_, fun i hp hstray => ?_⟩, fun i code hwf hs hp hc hle hstray => ⟨fun hlt hb => ?_, fun ht hv ho => ?_⟩⟩
    · obtain ⟨g, hg⟩ := transaction_of_isTransaction hi hs
      rw [hp] at hg
      exact exec_of_part ((hg _).trans (transaction_of_ignored p g _ hl))
    · obtain ⟨g, hg⟩ := transaction_of_isTransaction hi hs
      rw [hp] at hg
      refine exec_of_part ((hg _).trans ((transaction_of_hold p g _ hl).trans ?_))
      have hunit : unitIn .hold s.part p = port s.part p := if_neg (by simp [hl])
      rw [answeredUnit, hunit]
      rfl
    · intro q c left
      obtain ⟨g, hg⟩ := transaction_of_isTransaction hi hs
      rw [hp] at hg
      obtain ⟨hst, hselect⟩ := selectPort_of_hold hl hh
      have hleft : selectPort p s.part = left := by
        rw [hselect]
        exact (leaveHold_of_hold (s := q) hst).trans rfl
      have hline : (port (selectPort p s.part) p).line = .hold := by
        rw [hselect, sameLines_leaveHold, port_setPorts, unitIn, if_pos hl]
      exact exec_of_part ((hg _).trans ((transaction_of_hold_line hline).trans (by rw [hleft])))
    · obtain ⟨code, f, hf, _⟩ := sampleRead_of_isSample hs
      rw [hp] at hf
      have hselect := selectPort_of_ignores hl
      refine exec_of_part ((hf _).trans ((sampleRead_of_line ?_).trans hselect))
      rw [hselect, port_setPorts]
      rfl
    · obtain ⟨code, f, hf, _⟩ := sampleRead_of_isSample hs
      rw [hp] at hf
      have hselect := selectPort_of_selected s.part p (by simp [hl])
      refine exec_of_part ((hf _).trans ((sampleRead_of_line ?_).trans hselect))
      rw [hselect, hl]
      rfl
    · obtain ⟨code, f, hf, hboot⟩ := sampleRead_of_isSample hs
      rw [hp] at hf
      have hselect := selectPort_of_selects .boot (.inr rfl) s.part p hl
      refine exec_of_part ((hf _).trans ((sampleRead_of_line ?_).trans hselect))
      rw [hselect, port_setPorts, unitIn_line .boot s.part p hl]
      rw [← Bool.not_eq_true]
      intro htaken
      rcases hboot htaken with ⟨_, m, rfl⟩ | ⟨_, m, rfl⟩ | ⟨_, m, rfl⟩ <;> subst hp
      · exact h0 m rfl
      · exact h1 m rfl
      · exact h2 m rfl
    · exact exec_of_part ((transaction_in hx hsel fun _ s => settle p { code := .badParam } s).trans (settle_inLine x p { code := .badParam } s.part))
    · refine exec_of_part ((transaction_in hx hsel (fun _ s => if cause = .shortRead 0 then settleStatus p [] s else settle p { code := .aborted } s)).trans ?_)
      rw [if_neg hcause]
      exact settle_inLine x p _ _
    · refine exec_of_part ((transaction_in hx hsel (fun _ s => if AbortCause.shortRead 0 = .shortRead 0 then settleStatus p [] s else settle p { code := .aborted } s)).trans ?_)
      rw [if_pos rfl]
      simp [settleStatus, inLine, modifyPort, Both.modify, deselected]
    · obtain ⟨f, hf⟩ := transact_of_stray hstray
      subst hp
      refine exec_of_part ((hf _).trans ?_)
      rw [transact, transaction_in hx hsel, if_pos hstray]
      exact settle_inLine x _ _ _
    · obtain ⟨f, hf⟩ := transact_of_code hc (by omega) (by omega) (unnamed_of_wellFormed hwf hc hle) hs
      have hcodeOf : codeOf i = code := by rw [codeOf, hc, Option.getD_some]
      have hlate : takenInBoot (codeOf i) = false := by
        rw [hcodeOf]
        simp only [takenInBoot, List.mem_cons, List.not_mem_nil, or_false, decide_eq_false_iff_not]
        omega
      subst hp
      exact exec_of_part ((hf _).trans ((transact_boot i f s.part hb hstray hlate).trans (settle_inLine .boot _ _ _)))
    · have hcodeOf : codeOf i = code := by rw [codeOf, hc, Option.getD_some]
      have hkept : takenWhileOffPending code = false := by
        rw [offRefuses, hcodeOf, Bool.and_eq_true, Bool.not_eq_true'] at ho
        exact ho.2
      obtain ⟨f, hf⟩ := transact_of_code hc (by rintro rfl; cases hkept) (by rintro rfl; cases hkept) (unnamed_of_wellFormed hwf hc hle) hs
      subst hp
      exact exec_of_part ((hf _).trans ((transact_offRefuses i f s.part ht hstray hv ho).trans (settle_inTransaction _ _ _)))

/-! ### How a peer request ends (R183 to R185) -/

/-- A command that can be a peer request is carried out by its owning block. -/
theorem transact_ownerEffect {i : Instr} {code : Nat} (hc : commandCode i = some code) (hr : isReadCode code = false)
    (hn : needOf code = .system ∨ ∃ n, needOf code = .capability n) (hu : ∀ p c, i ≠ .unknownCommandCode p c) :
    ∀ s, partAfter i s = transact i (ownerEffect i) s := by
  have hneed (h : needOf code = .none ∨ needOf code = .slots) : False := by
    rcases h with h | h <;> rw [h] at hn <;> rcases hn with hn | ⟨_, hn⟩ <;> cases hn
  cases i
  case unknownCommandCode p c => exact absurd rfl (hu p c)
  all_goals
    first
    | exact fun _ => rfl
    | (cases hc; done)
    | (obtain rfl := Option.some.inj hc; first | exact absurd (.inl rfl) hneed | exact absurd (.inr rfl) hneed | cases hr)

/-- An outcome that carries no value has 0 in its place (log entry 53). -/
theorem raiseOutcome_of_code (p : Port) (code : Byte) (c : ResultCode) (s : Part) :
    raiseOutcome p code { code := c } s = raise p .peerOutcome [code, byteOf (resultValue c), 0, 0, 0, 0] s := by
  have hzero : leWord 0 = [0, 0, 0, 0] := by decide
  rw [raiseOutcome, hzero]
  rfl

/-- A port's own request ends in its transaction: its peer's notice is cleared. -/
theorem settle_endRequest (p : Port) (r : Reply) (s : Part) :
    settle p r (endRequest p (inTransaction s p))
      = { s with rights := { s.rights with requests := s.rights.requests.set p none }, ports := (answered s p r).set (peer p) (clearIn .peerRequest (port s (peer p))) } := by
  have hports (u : PortUnit) (f g : PortUnit → PortUnit) (x : Both PortUnit) :
      ((x.set p u).modify (peer p) g).modify p f = (x.set p (f u)).set (peer p) (g (x.get (peer p))) := by
    cases p <;> rfl
  have hended : (endRequest p (inTransaction s p)).ports = (s.ports.set p (unitIn .taken s p)).modify (peer p) (clearIn .peerRequest) := rfl
  have hbase : endRequest p (inTransaction s p) = { s with rights := { s.rights with requests := s.rights.requests.set p none }, ports := (endRequest p (inTransaction s p)).ports } := rfl
  rw [settle, modifyPort, hended, hports, hbase]
  simp only [sentData_unitIn]
  rfl

/-- Settles O47: each ending by the request there is. -/
theorem peerRequestEndings : Obligations.PeerRequestEndings := by
  refine ⟨fun tx s ht hx => ?_, fun p high s ha => ?_, fun i code s hc hr hn hstray => ?_⟩
  · intro p own waiting ports ended none_ q
    have hown : request q p = own := rfl
    have hwaiting : request q (peer p) = waiting := rfl
    have hended (x : Part) : endRequest (peer p) x = clearNotice p .peerRequest (ended (peer p) x) := by
      rw [endRequest, peer_peer]
      rfl
    refine ⟨?_, ?_, ?_⟩
    · rw [exec_eq_partAfter, partAfter_of_pass_always (i := .peerWithdraw tx) (p := p) (f := withdrawPeer p) (fun _ => rfl) rfl ht hx
        (verdict_of_free _ _ _ (.inl rfl)) rfl]
      change Host.Outcome.next { s with part := settleWith p (withdrawPeer p q) } = _
      have hwithdraw : withdrawPeer p q = if own = none then (q, some none_) else (endRequest p q, some { code := .ok }) := by
        rw [withdrawPeer, hown]
        cases own <;> rfl
      rw [hwithdraw]
      by_cases h : own = none
      · rw [if_pos h, if_pos h]
        exact next_settled rfl
      · rw [if_neg h, if_neg h, settleWith_some, settle_endRequest]
    · rw [exec_eq_partAfter, partAfter_of_pass_always (i := .peerDeny tx) (p := p) (f := denyPeer p) (fun _ => rfl) rfl ht hx
        (verdict_of_free _ _ _ (.inl rfl)) rfl]
      change Host.Outcome.next { s with part := settleWith p (denyPeer p q) } = _
      clear_value waiting
      cases waiting with
      | none =>
        rw [denyPeer, hwaiting]
        exact next_settled rfl
      | some r =>
        have hend : endWith (peer p) .denied q = raise (peer p) .peerOutcome [r.code, 7, 0, 0, 0, 0] (clearNotice p .peerRequest (ended (peer p) q)) := by
          rw [endWith, hwaiting, ← hended]
          exact raiseOutcome_of_code (peer p) r.code .denied (endRequest (peer p) q)
        rw [denyPeer, hwaiting]
        simp only [hend]
        rfl
    · rw [exec_eq_partAfter, partAfter_of_pass_always (i := .peerGrant tx) (p := p) (f := grantPeer p) (fun _ => rfl) rfl ht hx
        (verdict_of_free _ _ _ (.inl rfl)) rfl]
      change Host.Outcome.next { s with part := settleWith p (grantPeer p q) } = _
      clear_value waiting
      cases waiting with
      | none =>
        rw [grantPeer, hwaiting]
        exact next_settled rfl
      | some r =>
        simp only [grantPeer, hwaiting, hended]
        have hrefused : ((clearNotice p .peerRequest (ended (peer p) q)).power.offPending && !takenWhileOffPending r.code.toNat) = true
            ↔ s.part.power.offPending = true ∧ takenWhileOffPending r.code.toNat = false := by
          rw [Bool.and_eq_true, Bool.not_eq_true']
          rfl
        simp only [owned, hrefused]
        by_cases h : s.part.power.offPending = true ∧ takenWhileOffPending r.code.toNat = false
        · rw [if_pos h, if_pos h]
          rfl
        · rw [if_neg h, if_neg h]
          rcases ownerEffect (buildCommand (peer p) r.code.toNat r.params []) (clearNotice p .peerRequest (ended (peer p) q)) with ⟨y, _ | z⟩ <;> rfl
  · intro lapsed
    have hlapsed (issuer : Port) (c : ResultCode) (x : Part) : endWith issuer c x = lapsed issuer (byteOf (resultValue c)) x := by
      simp only [endWith, lapsed, request, raiseOutcome_of_code]
      cases x.rights.requests.get issuer <;> rfl
    refine ⟨?_, fun hc => ?_, fun hc => ?_⟩
    · rw [exec_of_alive (f := expireRequest p) (fun _ => rfl) ha]
      simp only [expireRequest, hlapsed]
      rfl
    · intro x
      rw [exec_of_alive (fun _ => rfl) ha, afterDebounce_of_candidate hc]
      simp only [presenceChanged, hlapsed]
      rfl
    · rw [exec_of_alive (fun _ => rfl) ha, afterDebounce_of_other hc]
  · intro p ht hv ho
    by_cases hu : ∃ p c, i = .unknownCommandCode p c
    · obtain ⟨q, c, rfl⟩ := hu
      exact exec_of_part (transaction_of_takes p (fun _ s => settle p { code := .badParam } s) s.part ht)
    rw [exec_eq_partAfter, transact_ownerEffect hc hr hn fun q c h => hu ⟨q, c, h⟩, transact_pass i (ownerEffect i) s.part ht hstray hv ho]
    rcases ownerEffect i (inTransaction s.part (commandPort i)) with ⟨y, _ | r⟩ <;> rfl

end Sys2Proof.Machine
end

section
/-! PROOFS. The commands of the download spool (R137 to R139, R146 to R149, R151): each as its chain of checks, with the arbiter
after the one that is taken. -/

namespace Sys2Proof.Machine

/-! ### A chain of checks with the arbiter after it (R160) -/

/-- The state after a command whose owning block made `x` of the part in its transaction: the arbiter follows where it was carried
out. -/
def outcome (s : State) (p : Port) (x : Part × Option Reply) : State :=
  { s with part := settleWith p (withArbiter (fun _ => x) (inTransaction s.part p)) }

section

variable {s : State} {p : Port}

theorem exec_of_outcome {i : Instr} {f : Part → Part × Option Reply} {t : State}
    (hi : partAfter i s.part = settleWith p (withArbiter f (inTransaction s.part p))) (h : outcome s p (f (inTransaction s.part p)) = t) :
    exec i s = .next t := by
  rw [← h, exec_eq_partAfter, hi]
  rfl

/-- One check of a chain. -/
theorem outcome_ite {c : Prop} [Decidable c] {x y : Part × Option Reply} {a b : State} (ha : outcome s p x = a) (hb : ¬ c → outcome s p y = b) :
    outcome s p (if c then x else y) = if c then a else b := by
  by_cases hc : c
  · rw [if_pos hc, if_pos hc, ha]
  · rw [if_neg hc, if_neg hc, hb hc]

theorem outcome_refused {r : Reply} (hr : carriedOut r = false) :
    outcome s p (inTransaction s.part p, some r) = { s with part := { s.part with ports := answered s.part p r } } := by
  have h : settleWith p (inTransaction s.part p, some r) = { s.part with ports := answered s.part p r } := by
    rw [settleWith_some, settle_of_ports rfl]
    rfl
  simp only [outcome, withArbiter, hr, Bool.false_eq_true, if_false, h]

theorem outcome_taken {t : Part} {r : Reply} (hr : carriedOut r = true) :
    outcome s p (t, some r) = { s with part := settle p r (ringSpace (inTransaction s.part p) (arbitrate t)) } := by
  simp only [outcome, withArbiter, hr, if_true, settleWith_some]

end

/-! ### DOWNLOAD OPEN (R137, R138) -/

theorem lowestFree_eq (s : Part) : lowestFree s = (List.range 32).find? fun r => decide ((record s r).state = .free) := by
  rw [lowestFree, records_eq, List.find?_map, Option.map_map]
  exact Option.map_id' ..

/-- Settles O33: the checks in their order, and the record set up. -/
theorem downloadOpenResult : Obligations.DownloadOpenResult := by
  intro tx title declared s ht hx hp ho refused q n reserved seq
  refine exec_of_outcome (p := tx.port) (f := openDownload tx.port title declared) (partAfter_of_permits (i := .downloadOpen tx title declared) (fun _ => rfl) rfl ht hx rfl hp ho) ?_
  refine outcome_ite (outcome_refused rfl) fun _ => outcome_ite (outcome_refused rfl) fun _ => outcome_ite (outcome_refused rfl) fun _ =>
    outcome_ite (outcome_refused rfl) fun _ => ?_
  have hfree : lowestFree (inTransaction s.part tx.port) = (List.range 32).find? fun r => decide ((record s.part r).state = .free) := lowestFree_eq _
  rw [hfree]
  cases (List.range 32).find? fun r => decide ((record s.part r).state = .free) with
  | none => exact outcome_refused rfl
  | some r => exact outcome_ite (outcome_refused rfl) fun _ => outcome_taken rfl

/-! ### DOWNLOAD SEAL and DOWNLOAD ABANDON (R146 to R148) -/

theorem lt_iff_bound {a : Nat} : 31 < a ↔ 32 ≤ a := Iff.rfl

theorem takesChunks_eq_false {v : Record} : (!takesChunks v) = true ↔ (v.state ≠ .opened ∧ v.state ≠ .stalled) ∨ v.ending = true := by
  simp only [takesChunks, Bool.not_and, Bool.not_or, Bool.or_eq_true, Bool.and_eq_true, Bool.not_not, Bool.not_eq_true', decide_eq_false_iff_not, ne_eq]

theorem abandonable_eq_false {v : Record} :
    (!(takesChunks v || (decide (v.state = .fault) && !v.ending))) = true
      ↔ (v.state ≠ .opened ∧ v.state ≠ .stalled ∧ v.state ≠ .fault) ∨ v.ending = true := by
  simp only [takesChunks]
  cases v.ending <;> simp [and_assoc]

theorem hasStaged_iff {r : Nat} {s : Part} : hasStaged r s = true ↔ ∃ e, e ∈ s.spool.ring ∧ e.record = r := by
  simp only [hasStaged, List.any_eq_true, decide_eq_true_eq]

theorem programming_iff {r : Nat} {s : Part} : programming r s = true ↔ ∃ e, e ∈ s.spool.ring ∧ e.record = r ∧ e.state = .programming := by
  simp only [programming, List.any_eq_true, Bool.and_eq_true, decide_eq_true_eq]

/-- An abandon of a record none of whose entries is PROGRAMMING. -/
theorem abandonRecord_of_none {r : Nat} {s : Part} (h : programming r (dropStaged r s) = false) :
    abandonRecord r s = freeDownload r (dropStaged r s) := by
  simp [abandonRecord, h]

theorem abandonRecord_of_programming {r : Nat} {s : Part} (h : programming r (dropStaged r s) = true) :
    abandonRecord r s = if s.flash.running.isSome then modifyRecord r (fun v => { v with ending := true }) (dropStaged r s)
      else finishAbandon (modifyRecord r (fun v => { v with ending := true }) (dropStaged r s)) := by
  simp only [abandonRecord, h]
  rfl

theorem mem_sealEntry_record (r q : Nat) (crc : Word) (ring : List Staged) :
    (∃ e, e ∈ ring.map (sealEntry r crc) ∧ e.record = q) ↔ ∃ e, e ∈ ring ∧ e.record = q := by
  have hrecord (e : Staged) : (sealEntry r crc e).record = e.record := by
    unfold sealEntry
    split <;> rfl
  simp only [List.mem_map, exists_exists_and_eq_and, hrecord]

/-- Settles O35: both chains of checks, and what each of the two commands sets up or completes. -/
theorem sealAndAbandonResult : Obligations.SealAndAbandonResult := by
  refine ⟨fun tx r expected s ht hx hp ho => ?_, fun tx r s ht hx hp ho => ?_⟩
  · intro v refused q crc sealing pages k last j
    refine exec_of_outcome (p := tx.port) (f := sealDownload tx.port r expected) (partAfter_of_permits (i := .downloadSeal tx r expected) (fun _ => rfl) rfl ht hx rfl hp ho) ?_
    have hcrc : v.running.getD 0 = crc := by
      simp only [crc]
      cases v.running <;> rfl
    have hseal : sealDownload tx.port r expected q = if 32 ≤ r.toNat then (q, some { code := .badParam })
        else if s.part.flash.spool = .faulted ∨ v.state = .free then (q, some { code := .badState })
        else if v.writer ≠ tx.port then (q, some { code := .notWriter })
        else if (v.state ≠ .opened ∧ v.state ≠ .stalled) ∨ v.ending = true then (q, some { code := .badState })
        else if v.received < v.declared then (q, some { code := .short })
        else (if hasStaged r.toNat sealing = true then sealing else compareSeal r.toNat sealing, some { code := .ok }) := by
      have hring : modifyRing (List.map (sealEntry r.toNat (v.running.getD 0))) (setRecord r.toNat { v with state := .sealing, expected := expected } q) = sealing := by
        rw [hcrc]
        rfl
      rw [← hring]
      simp only [sealDownload, takesChunks_eq_false]
      rfl
    rw [hseal]
    by_cases hr : 32 ≤ r.toNat
    · rw [if_pos hr, if_pos hr]
      exact outcome_refused rfl
    rw [if_neg hr, if_neg hr]
    refine outcome_ite (outcome_refused rfl) fun _ => outcome_ite (outcome_refused rfl) fun _ =>
      outcome_ite (outcome_refused rfl) fun _ => outcome_ite (outcome_refused rfl) fun _ => (outcome_taken rfl).trans ?_
    have hstaged : hasStaged r.toNat sealing = true ↔ ∃ e, e ∈ q.spool.ring ∧ e.record = r.toNat :=
      hasStaged_iff.trans (mem_sealEntry_record r.toNat r.toNat crc q.spool.ring)
    have hrecord : record sealing r.toNat = { v with state := .sealing, expected := expected } :=
      record_setRecord_same q r.toNat _ (by omega)
    have hcompare : compareSeal r.toNat sealing = { sealing with flash := { q.flash with journal := { j with
          batch := j.batch ++ [{ serial := j.nextSerial, entry := .sealed (BitVec.ofNat 8 r.toNat) (decide (crc ≠ expected)) crc last, live := true }]
          nextSerial := j.nextSerial + 1 } } } := by
      simp only [compareSeal, hrecord, hcrc]
      rfl
    simp only [hstaged, hcompare]
    rfl
  · intro v refused q x programming' taken ended
    have hexec {t : State} (h : outcome s tx.port (abandonDownload tx.port r q) = t) : exec (.downloadAbandon tx r) s = .next t :=
      exec_of_outcome (partAfter_of_permits (i := .downloadAbandon tx r) (fun _ => rfl) rfl ht hx rfl hp ho) h
    have hchain : abandonDownload tx.port r q = if 32 ≤ r.toNat then (q, some { code := .badParam })
        else if s.part.flash.spool = .faulted ∨ v.state = .free then (q, some { code := .badState })
        else if v.writer ≠ tx.port then (q, some { code := .notWriter })
        else if (v.state ≠ .opened ∧ v.state ≠ .stalled ∧ v.state ≠ .fault) ∨ v.ending = true then (q, some { code := .badState })
        else (abandonRecord r.toNat q, some { code := .ok }) := by
      simp only [abandonDownload, abandonable_eq_false]
      rfl
    rw [hchain] at hexec
    split_ifs with h1 h2 h3 h4
    · exact hexec (by rw [if_pos h1]; exact outcome_refused rfl)
    · exact hexec (by rw [if_neg h1, if_pos h2]; exact outcome_refused rfl)
    · exact hexec (by rw [if_neg h1, if_neg h2, if_pos h3]; exact outcome_refused rfl)
    · exact hexec (by rw [if_neg h1, if_neg h2, if_neg h3, if_pos h4]; exact outcome_refused rfl)
    · rw [if_neg h1, if_neg h2, if_neg h3, if_neg h4] at hexec
      have hprogramming : programming r.toNat (dropStaged r.toNat q) = true ↔ programming' := by
        rw [programming_iff]
        refine exists_congr fun e => ?_
        have hmem : e ∈ (dropStaged r.toNat q).spool.ring ↔ e ∈ q.spool.ring ∧ (decide (e.record ≠ r.toNat) || decide (e.state = .programming)) = true := List.mem_filter
        rw [hmem]
        constructor
        · rintro ⟨⟨hm, _⟩, hr, hs⟩
          exact ⟨hm, hr, hs⟩
        · rintro ⟨hm, hr, hs⟩
          exact ⟨⟨hm, by simp [hs]⟩, hr, hs⟩
      have hended : modifyRecord r.toNat (fun v => { v with ending := true }) (dropStaged r.toNat q) = ended := rfl
      refine ⟨fun hn => ?_, fun hy hrun => ?_, fun hy hrun y hrec hyr => ?_⟩
      · rw [abandonRecord_of_none (by rw [← Bool.not_eq_true, hprogramming]; exact hn)] at hexec
        exact hexec (outcome_taken rfl)
      · have hbusy : q.flash.running.isSome = true := Option.isSome_iff_ne_none.mpr hrun
        rw [abandonRecord_of_programming (hprogramming.mpr hy), if_pos hbusy] at hexec
        exact hexec (outcome_taken rfl)
      · have hidle : ¬ q.flash.running.isSome = true := by simp [show q.flash.running = none from hrun]
        have hrecord : record ended y.record = { v with ending := true } := by
          rw [hyr]
          exact record_setRecord_same x r.toNat _ (by omega)
        have hfinish : finishAbandon ended = endRecovery y ended := by
          have hheld : ended.flash.recovery = some y := hrec
          simp only [finishAbandon, hheld, hrecord, if_true]
        rw [abandonRecord_of_programming (hprogramming.mpr hy), if_neg hidle, hended, hfinish] at hexec
        exact hexec (outcome_taken rfl)

/-! ### DOWNLOAD CLAIM and DOWNLOAD RELEASE (R149) -/

/-! ### FETCH and FETCH DATA (R151, R152) -/

theorem fetchable_eq_false {v : Record} : (!fetchable v) = true
    ↔ ¬ (v.state = .opened ∨ v.state = .stalled ∨ v.state = .sealing ∨ v.state = .sealed ∨ v.state = .corrupt ∨ v.state = .claimed) := by
  simp only [fetchable, Bool.not_eq_true', ← Bool.not_eq_true, Bool.or_eq_true, decide_eq_true_eq, or_assoc]

/-- A result settled after a change of the port's own unit. -/
theorem settle_modifyPort (p : Port) (r : Reply) (g : PortUnit → PortUnit) (s : Part) :
    settle p r (modifyPort p g (inTransaction s p))
      = { s with ports := s.ports.set p { deselected (g (unitIn .taken s p)) with lastResult := r.code, lastValue := r.value, data := sentData (g (unitIn .taken s p)) r.data } } := by
  simp [settle, modifyPort, Both.modify, inTransaction]

theorem sampleRead_of_takes {code : Nat} {p : Port} {g : Part → ReadSample} {bytes : List Byte} {s : Part} (ht : takes s p = true)
    (hg : g (inTransaction s p) = dataSample bytes) : sampleRead code p g s = sampled .taken s p bytes := by
  rw [sampleRead_of_selects .taken (.inl rfl) code p g s ht rfl]
  change { s with ports := s.ports.set p (ensureSample (g (inTransaction s p)) (unitIn .taken s p)) } = _
  rw [hg, sampled]
  congr 2
  cases h : (port s p).sample with
  | none => simp [ensureSample, h, sampledUnit]
  | some y => simp [ensureSample, h]

/-- Settles O37: FETCH's chain of checks, and FETCH DATA by the buffer. -/
theorem fetchResults : Obligations.FetchResults := by
  intro tx r offset length s ht hx hp
  intro v o n refused q n' readable
  have hverdict (i : Instr) (hi : needOf (codeOf i) = .capability 5) : verdict i tx.port s.part = .pass := verdict_of_permits i _ _ 5 hi hp
  have hunit : port q tx.port = unitIn .taken s.part tx.port := port_inTransaction _ _
  have hbuffer : (port q tx.port).fetch = (port s.part tx.port).fetch := by
    rw [hunit, unitIn]
    split <;> rfl
  refine ⟨?_, ?_, ?_⟩
  · refine exec_of_outcome (p := tx.port) (f := startFetch tx.port r offset length)
      (partAfter_of_pass_always (i := .fetch tx r offset length) (fun _ => rfl) rfl ht hx (hverdict _ rfl) rfl) ?_
    have hfetch : startFetch tx.port r offset length q = if 32 ≤ r.toNat ∨ n = 0 ∨ 4096 < n ∨ o / 4096 ≠ (o + n - 1) / 4096 then (q, some { code := .badParam })
        else if s.part.flash.spool = .faulted ∨ ¬ readable then (q, some { code := .badState })
        else if v.programmed ≤ o then (q, some { code := .atEnd })
        else (modifyPort tx.port (fun u => { u with fetch := .waiting r.toNat o (min n (v.programmed - o)) true }) (discardRead tx.port q),
          some (if min n (v.programmed - o) < n then { code := .clipped, value := BitVec.ofNat 32 (min n (v.programmed - o)) } else { code := .ok })) := by
      simp only [startFetch, fetchable_eq_false]
      rfl
    rw [hfetch]
    refine outcome_ite (outcome_refused rfl) fun _ => outcome_ite (outcome_refused rfl) fun _ => outcome_ite (outcome_refused rfl) fun hend => ?_
    have hmin : min n (v.programmed - o) = n' := by
      simp only [n']
      split <;> omega
    rw [hmin]
    refine (outcome_taken (by split <;> rfl)).trans ?_
    have hdiscard : discardRead tx.port q = { q with flash := { q.flash with running := match q.flash.running with
          | some x => some (if x.job = .fetch tx.port then { x with live := false } else x)
          | none => none } } := by
      rw [discardRead, modifyFlash]
      cases q.flash.running <;> rfl
    rw [hdiscard]
    rfl
  · have hdriven : drivenData (.fetchData ⟨tx.port, .deselect⟩) tx.port (fetchHeld tx.port) q = match (port s.part tx.port).fetch with
        | .ready _ _ _ _ data _ => if s.part.flash.spool = .faulted then [] else data
        | _ => [] := by
      have hpass : verdict (.fetchData ⟨tx.port, .deselect⟩) tx.port q = .pass := hverdict (.fetchData ⟨tx.port, .deselect⟩) rfl
      rw [drivenData, hpass]
      cases hf : (port s.part tx.port).fetch with
      | ready i a k e data unread =>
        have hfault : q.flash.spool = s.part.flash.spool := rfl
        simp only [fetchHeld, hbuffer, hf, hfault]
        by_cases h : s.part.flash.spool = .faulted
        · simp only [if_pos h]
        · simp only [if_neg h]
      | empty => simp only [fetchHeld, hbuffer, hf]
      | waiting => simp only [fetchHeld, hbuffer, hf]
    refine Eq.trans ?_ (congrArg (fun d => Host.Outcome.next { s with part := sampled .taken s.part tx.port d }) hdriven)
    exact exec_of_part (sampleRead_of_takes (code := 0x27) (g := fun s => dataSample (drivenData (.fetchData ⟨tx.port, .deselect⟩) tx.port (fetchHeld tx.port) s)) ht rfl)
  · have hread : partAfter (.fetchData ⟨tx.port, .deselect⟩) s.part = settleWith tx.port (fetchHeld tx.port q) :=
      partAfter_of_pass_always (i := .fetchData ⟨tx.port, .deselect⟩) (fun _ => rfl) rfl ht rfl (hverdict _ rfl) rfl
    rw [exec_eq_partAfter, hread]
    simp only [fetchHeld, hbuffer]
    cases (port s.part tx.port).fetch with
    | ready i a k e data unread =>
      by_cases hf : s.part.flash.spool = .faulted
      · have hf' : q.flash.spool = .faulted := hf
        simp only [if_pos hf']
        exact (next_settled rfl).trans (congrArg _ (if_pos hf).symm)
      · have hf' : ¬ q.flash.spool = .faulted := hf
        simp only [if_neg hf', if_neg hf, settleWith_some]
        refine congrArg (fun t => Host.Outcome.next { s with part := t }) ((settle_modifyPort tx.port _ _ s.part).trans ?_)
        have hsent : sentData { unitIn .taken s.part tx.port with fetch := .ready i a k e data false } data = sentData (port s.part tx.port) data :=
          sentData_unitIn .taken s.part tx.port data
        rw [hsent]
        rfl
    | empty => exact next_settled rfl
    | waiting => exact next_settled rfl

end Sys2Proof.Machine
end

section
/-! PROOFS. DOWNLOAD CLAIM and RELEASE, a record that becomes FREE (R148, R149, R152, R165), and CHUNK WRITE with the staging ring
(R139 to R141). -/

namespace Sys2Proof.Machine

/-! ### Fetches that end (R152) -/

/-- Whether a port's fetch waits on a record that becomes FREE. -/
def fetchEnds (freed : Nat → Bool) (u : PortUnit) : Bool :=
  match u.fetch with
  | .waiting r _ _ _ => freed r
  | _ => false

/-- A port's unit after a record becomes FREE: a fetch waiting on it ends with GONE. -/
def endedUnit (freed : Nat → Bool) (u : PortUnit) : PortUnit :=
  match u.fetch with
  | .waiting r o _ _ => if freed r then { raiseIn .fetchReady ([byteOf r] ++ le4 o ++ [0, 0, 0xFD]) u with fetch := .empty } else u
  | _ => u

/-- The operation in progress, its job dropped where it is one of those named. -/
def dropJobs (drops : Job → Bool) (x : Option Running) : Option Running := x.map fun o => if drops o.job then { o with live := false } else o

theorem dropJobs_dropJobs (f g : Job → Bool) (x : Option Running) : dropJobs g (dropJobs f x) = dropJobs (fun j => g j || f j) x := by
  cases x with
  | none => rfl
  | some o => cases hf : f o.job <;> cases hg : g o.job <;> simp [dropJobs, hf, hg]

theorem fetchEnds_iff {freed : Nat → Bool} {u : PortUnit} :
    fetchEnds freed u = true ↔ ∃ r o n b, u.fetch = .waiting r o n b ∧ freed r = true := by
  unfold fetchEnds
  cases u.fetch <;> simp

theorem endedUnit_of_waiting {freed : Nat → Bool} {u : PortUnit} {r o n : Nat} {b : Bool} (h : u.fetch = .waiting r o n b) (hr : freed r = true) :
    endedUnit freed u = { raiseIn .fetchReady ([byteOf r] ++ le4 o ++ [0, 0, 0xFD]) u with fetch := .empty } := by
  rw [endedUnit, h]
  exact if_pos hr

theorem endedUnit_of_not {freed : Nat → Bool} {u : PortUnit} (h : fetchEnds freed u = false) : endedUnit freed u = u := by
  unfold fetchEnds at h
  unfold endedUnit
  split
  · next r o n b hf =>
    rw [hf] at h
    exact if_neg (by simp [h])
  · rfl

theorem endFetch_eq (freed : Nat → Bool) (p : Port) (s : Part) :
    endFetch freed p s = { s with ports := s.ports.set p (endedUnit freed (port s p)), flash := { s.flash with running := dropJobs (fun j => fetchEnds freed (port s p) && decide (j = .fetch p)) s.flash.running } } := by
  cases h : fetchEnds freed (port s p) with
  | false =>
    have hkept : dropJobs (fun j => false && decide (j = .fetch p)) s.flash.running = s.flash.running := by cases s.flash.running <;> rfl
    have hset : s.ports.set p (port s p) = s.ports := Both.set_get _ _
    rw [endedUnit_of_not h, hkept, hset]
    unfold fetchEnds at h
    unfold endFetch
    split
    · next hf =>
      rw [hf] at h
      exact if_neg (by simp [h])
    · rfl
  | true =>
    obtain ⟨r, o, n, b, hf, hr⟩ := fetchEnds_iff.mp h
    have hjobs : dropJobs (fun j => true && decide (j = .fetch p)) s.flash.running = s.flash.running.map fun x => if x.job = .fetch p then { x with live := false } else x := by
      simp only [dropJobs, Bool.true_and, decide_eq_true_eq]
    have hend : endFetch freed p s = raise p .fetchReady ([byteOf r] ++ le4 o ++ [0, 0, 0xFD]) (modifyPort p (fun u => { u with fetch := .empty }) (discardRead p s)) := by
      rw [endFetch, hf]
      exact if_pos hr
    rw [hend, endedUnit_of_waiting hf hr, hjobs]
    cases p <;> rfl

/-- Both ports' fetches that wait on the records that become FREE end. -/
theorem endFetches_eq (freed : Nat → Bool) (s : Part) :
    endFetches freed s = { s with ports := ⟨endedUnit freed s.ports.a, endedUnit freed s.ports.b⟩, flash := { s.flash with running := dropJobs (fun j => (fetchEnds freed s.ports.b && decide (j = .fetch .B)) || (fetchEnds freed s.ports.a && decide (j = .fetch .A))) s.flash.running } } := by
  rw [endFetches, endFetch_eq _ .A, endFetch_eq, dropJobs_dropJobs]
  rfl

/-! ### A relocation that ends (R165) -/

/-- The relocation in hand, where it is for a record. -/
def scrubOf (r : Nat) (f : Flash) : Option Scrub :=
  match f.scrub with
  | some x => if x.record = r then some x else none
  | none => none

theorem endScrubOf_of_none {r : Nat} {s : Part} (h : scrubOf r s.flash = none) : endScrubOf r s = s := by
  unfold scrubOf at h
  unfold endScrubOf
  split
  · rfl
  · next x hx =>
    rw [hx] at h
    have hother : (if x.record = r then some x else none) = none := h
    refine if_neg fun hr => ?_
    rw [if_pos hr] at hother
    cases hother

theorem endScrubOf_of_some {r : Nat} {s : Part} {x : Scrub} (h : scrubOf r s.flash = some x) :
    endScrubOf r s = { s with flash := { s.flash with erasePending := s.flash.erasePending ++ [{ block := x.target, hold := .free }], scrub := none, scrubList := s.flash.scrubList.filter fun b => decide (b ≠ x.old), running := dropJobs (fun j => decide (j = .scrub)) s.flash.running } } := by
  unfold scrubOf at h
  unfold endScrubOf
  split at h
  · next y hy =>
    split at h
    · next hr =>
      cases h
      rw [hy]
      simp only [hr, if_true, dropJobs, decide_eq_true_eq]
      rfl
    · cases h
  · cases h

theorem endScrubOf_frame (r : Nat) (s : Part) : endScrubOf r s = { s with flash := (endScrubOf r s).flash } := by
  cases h : scrubOf r s.flash with
  | none => rw [endScrubOf_of_none h]
  | some x => rw [endScrubOf_of_some h]

/-! ### A record becomes FREE (R148, R149, R152, R165) -/

/-- The part after a record became FREE, its relocation aside. -/
def freedPart (r : Nat) (s : Part) : Part :=
  { s with
    ports := ⟨endedUnit (fun x => decide (x = r)) s.ports.a, endedUnit (fun x => decide (x = r)) s.ports.b⟩
    spool := { s.spool with records := tableSet s.spool.records r freeRecord }
    flash := { s.flash with
      journal := { s.flash.journal with
        batch := (s.flash.journal.batch.map fun i => if entryRecord i.entry = some (byteOf r) then { i with live := false } else i)
          ++ [{ serial := s.flash.journal.nextSerial, entry := .freed (byteOf r), live := true }]
        nextSerial := s.flash.journal.nextSerial + 1 }
      erasePending := s.flash.erasePending ++ (record s r).extent.map fun b => { block := b, hold := .entry s.flash.journal.nextSerial }
      running := dropJobs (fun j => (fetchEnds (fun x => decide (x = r)) s.ports.b && decide (j = .fetch .B)) || (fetchEnds (fun x => decide (x = r)) s.ports.a && decide (j = .fetch .A))) s.flash.running } }

theorem freeDownload_eq (r : Nat) (s : Part) : freeDownload r s = endScrubOf r (freedPart r s) := by
  have hfreed : freeDownload r s = endScrubOf r (endFetches (fun x => decide (x = r)) { s with
      spool := { s.spool with records := tableSet s.spool.records r freeRecord }
      flash := { s.flash with
        journal := { s.flash.journal with
          batch := (s.flash.journal.batch.map fun i => if entryRecord i.entry = some (byteOf r) then { i with live := false } else i)
            ++ [{ serial := s.flash.journal.nextSerial, entry := .freed (byteOf r), live := true }]
          nextSerial := s.flash.journal.nextSerial + 1 }
        erasePending := s.flash.erasePending ++ (record s r).extent.map fun b => { block := b, hold := .entry s.flash.journal.nextSerial } } }) := rfl
  rw [hfreed, endFetches_eq]
  rfl

/-- A check between two that refuse alike. -/
theorem ite_ite_same {α : Type} {a b : Prop} [Decidable a] [Decidable b] (x y : α) :
    (if a then y else if b then x else y) = if ¬ a ∧ b then x else y := by
  by_cases ha : a
  · rw [if_pos ha, if_neg fun h => h.1 ha]
  · rw [if_neg ha]
    exact if_congr (by simp [ha]) rfl rfl

/-- Settles O36: the two chains of checks, and what a record that becomes FREE leaves. -/
theorem claimReleaseFree : Obligations.ClaimReleaseFree := by
  refine ⟨fun tx r s ht hx hp ho => ?_, fun r s hr => ?_⟩
  · intro v refused q taken closed j
    constructor
    · refine exec_of_outcome (p := tx.port) (f := claimDownload r) (partAfter_of_permits (i := .downloadClaim tx r) (fun _ => rfl) rfl ht hx rfl hp ho) ?_
      have hclaim : claimDownload r q = if 32 ≤ r.toNat then (q, some { code := .badParam })
          else if s.part.flash.spool ≠ .faulted ∧ closed then (queueEntry (.claimed (byteOf r.toNat)) (setRecord r.toNat { v with state := .claimed } q), some { code := .ok })
          else (q, some { code := .badState }) := by
        rw [← ite_ite_same]
        rfl
      rw [hclaim]
      exact outcome_ite (outcome_refused rfl) fun _ => outcome_ite (outcome_taken rfl) fun _ => outcome_refused rfl
    · refine exec_of_outcome (p := tx.port) (f := releaseDownload r) (partAfter_of_permits (i := .downloadRelease tx r) (fun _ => rfl) rfl ht hx rfl hp ho) ?_
      have hrelease : releaseDownload r q = if 32 ≤ r.toNat then (q, some { code := .badParam })
          else if s.part.flash.spool ≠ .faulted ∧ (v.state = .sealed ∨ v.state = .corrupt ∨ v.state = .claimed ∨ v.state = .fault) then (freeDownload r.toNat q, some { code := .ok })
          else (q, some { code := .badState }) := by
        rw [← ite_ite_same]
        rfl
      rw [hrelease]
      simp only [closed, or_assoc]
      exact outcome_ite (outcome_refused rfl) fun _ => outcome_ite (outcome_taken rfl) fun _ => outcome_refused rfl
  · intro v j t waits scrub
    let freed : Nat → Bool := fun x => decide (x = r)
    have hwaits (p : Port) : fetchEnds freed (port s p) = true ↔ waits p := by
      rw [fetchEnds_iff]
      constructor
      · rintro ⟨_, o, n, b, hf, hr⟩
        exact ⟨o, n, b, of_decide_eq_true hr ▸ hf⟩
      · rintro ⟨o, n, b, hf⟩
        exact ⟨r, o, n, b, hf, decide_eq_true rfl⟩
    have hfree : t = endScrubOf r (freedPart r s) := freeDownload_eq r s
    have hframe := hfree.trans (endScrubOf_frame r _)
    have hports (p : Port) : port t p = endedUnit freed (port s p) := by
      rw [hframe]
      cases p <;> rfl
    have hrecords : t.spool = { s.spool with records := tableSet s.spool.records r freeRecord } := by
      rw [hframe]
      rfl
    have hrunning : t.flash.running = dropJobs (fun j => (scrub.isSome && decide (j = .scrub)) || ((fetchEnds freed s.ports.b && decide (j = .fetch .B)) || (fetchEnds freed s.ports.a && decide (j = .fetch .A)))) s.flash.running := by
      cases hs : scrub with
      | none =>
        rw [hfree, endScrubOf_of_none (s := freedPart r s) hs]
        rfl
      | some x =>
        rw [hfree, endScrubOf_of_some (s := freedPart r s) hs]
        exact dropJobs_dropJobs (fun j => (fetchEnds freed s.ports.b && decide (j = .fetch .B)) || (fetchEnds freed s.ports.a && decide (j = .fetch .A)))
          (fun j => decide (j = .scrub)) s.flash.running
    have hends (o : Running) : ((scrub.isSome && decide (o.job = .scrub)) || ((fetchEnds freed s.ports.b && decide (o.job = .fetch .B)) || (fetchEnds freed s.ports.a && decide (o.job = .fetch .A)))) = true
        ↔ (∃ p, o.job = .fetch p ∧ waits p) ∨ (o.job = .scrub ∧ scrub ≠ none) := by
      have ha := hwaits .A
      have hb := hwaits .B
      rw [Bool.or_eq_true, Bool.or_eq_true, Bool.and_eq_true, Bool.and_eq_true, Bool.and_eq_true, decide_eq_true_eq, decide_eq_true_eq, decide_eq_true_eq, Option.isSome_iff_ne_none]
      constructor
      · rintro (⟨hs, hj⟩ | ⟨hf, hj⟩ | ⟨hf, hj⟩)
        · exact .inr ⟨hj, hs⟩
        · exact .inl ⟨.B, hj, hb.mp hf⟩
        · exact .inl ⟨.A, hj, ha.mp hf⟩
      · rintro (⟨p, hj, hw⟩ | ⟨hj, hs⟩)
        · cases p with
          | A => exact .inr (.inr ⟨ha.mpr hw, hj⟩)
          | B => exact .inr (.inl ⟨hb.mpr hw, hj⟩)
        · exact .inl ⟨hs, hj⟩
    refine ⟨?_, ?_, ?_, fun h => ?_, fun o h => ⟨fun he => ?_, fun he => ?_⟩, fun p => ⟨fun o n b hf => ?_, fun hw => ?_⟩⟩
    · cases hs : scrub with
      | none =>
        rw [hfree, endScrubOf_of_none (s := freedPart r s) hs]
        simp only [List.append_nil]
        rfl
      | some x =>
        rw [hfree, endScrubOf_of_some (s := freedPart r s) hs]
        rfl
    · rw [record, hrecords]
      exact tableGet_tableSet_same _ _ _ _ hr
    · intro i hi
      rw [record, hrecords]
      exact tableGet_tableSet_other _ _ _ _ _ (Ne.symm hi)
    · rw [hrunning, h]
      rfl
    · rw [hrunning, h]
      exact congrArg some (if_pos ((hends o).mpr he))
    · rw [hrunning, h]
      exact congrArg some (if_neg ((hends o).not.mpr he))
    · rw [hports]
      exact endedUnit_of_waiting hf (decide_eq_true rfl)
    · rw [hports]
      exact endedUnit_of_not (by rw [← Bool.not_eq_true, hwaits]; exact hw)

end Sys2Proof.Machine
end

section
/-! PROOFS. CHUNK WRITE, the staging ring and RING_SPACE (R139 to R141), the CRC-32 (R66), and SPOOL FORMAT (R174). -/

namespace Sys2Proof.Machine

/-! ### The staging ring (R139, R140) -/

/-- Whether an entry is a record's FILLING one. -/
def fillsFor (r : Nat) (e : Staged) : Prop := e.record = r ∧ e.state = .filling

theorem fillingEntry_of_none {r : Nat} {ring : List Staged} (h : ∀ e, e ∈ ring → ¬ fillsFor r e) : fillingEntry r ring = none := by
  rw [fillingEntry, List.find?_eq_none]
  intro e he
  simp only [Bool.and_eq_true, decide_eq_true_eq]
  exact h e he

theorem fillingEntry_of_split {r : Nat} {before after : List Staged} {e : Staged} (he : fillsFor r e) (h : ∀ x, x ∈ before → ¬ fillsFor r x) :
    fillingEntry r (before ++ e :: after) = some e := by
  have hnone := fillingEntry_of_none h
  rw [fillingEntry] at hnone ⊢
  rw [List.find?_append, hnone, Option.none_or]
  exact List.find?_cons_of_pos (by simpa [fillsFor] using he)

/-- The entries of a ring with the record's FILLING one changed. -/
theorem map_filling_of_none {r : Nat} {ring : List Staged} (f : Staged → Staged) (h : ∀ e, e ∈ ring → ¬ fillsFor r e) :
    (ring.map fun e => if e.record = r ∧ e.state = .filling then f e else e) = ring := by
  calc _ = ring.map id := List.map_congr_left fun e he => if_neg (h e he)
    _ = ring := List.map_id ring

theorem map_filling_of_split {r : Nat} {before after : List Staged} {e : Staged} (f : Staged → Staged) (he : fillsFor r e)
    (hb : ∀ x, x ∈ before → ¬ fillsFor r x) (ha : ∀ x, x ∈ after → ¬ fillsFor r x) :
    ((before ++ e :: after).map fun e => if e.record = r ∧ e.state = .filling then f e else e) = before ++ f e :: after := by
  rw [List.map_append, List.map_cons, map_filling_of_none f hb, map_filling_of_none f ha]
  exact congrArg (fun x => before ++ x :: after) (if_pos he)

/-- A chunk of a record without a FILLING entry begins a new one. -/
theorem stageChunk_of_none {r received : Nat} {crc : Word} {data : List Byte} {ring : List Staged} (h : ∀ e, e ∈ ring → ¬ fillsFor r e)
    (hd : data ≠ []) : stageChunk r received crc data ring = ring ++ [stagedOf r (received / 4096) data (crc32From crc data)] := by
  have hroom : fillingRoom r ring = 0 := by rw [fillingRoom, fillingEntry_of_none h]
  have hne : data.isEmpty = false := by simpa using hd
  simp only [stageChunk, hroom, List.take_zero, List.drop_zero, List.length_nil, Nat.add_zero, hne, map_filling_of_none _ h]
  rfl

/-- A chunk that the FILLING entry has room for. -/
theorem stageChunk_of_room {r received : Nat} {crc : Word} {data : List Byte} {before after : List Staged} {e : Staged} (he : fillsFor r e)
    (hb : ∀ x, x ∈ before → ¬ fillsFor r x) (ha : ∀ x, x ∈ after → ¬ fillsFor r x) (hroom : data.length ≤ 4096 - e.fill) :
    stageChunk r received crc data (before ++ e :: after) = before ++ stagedOf r e.page (e.data ++ data) (crc32From crc data) :: after := by
  have hfill : fillingRoom r (before ++ e :: after) = 4096 - e.fill := by rw [fillingRoom, fillingEntry_of_split he hb]
  simp only [stageChunk, hfill, List.take_of_length_le hroom, List.drop_of_length_le hroom, List.isEmpty_nil, if_true]
  exact map_filling_of_split _ he hb ha

/-- A chunk of which the FILLING entry takes a part. -/
theorem stageChunk_of_split {r received : Nat} {crc : Word} {data : List Byte} {before after : List Staged} {e : Staged} (he : fillsFor r e)
    (hb : ∀ x, x ∈ before → ¬ fillsFor r x) (ha : ∀ x, x ∈ after → ¬ fillsFor r x) (hroom : 4096 - e.fill < data.length) :
    stageChunk r received crc data (before ++ e :: after)
      = before ++ stagedOf r e.page (e.data ++ data.take (4096 - e.fill)) (crc32From crc (data.take (4096 - e.fill))) :: after
        ++ [stagedOf r ((received + (4096 - e.fill)) / 4096) (data.drop (4096 - e.fill)) (crc32From crc data)] := by
  have hfill : fillingRoom r (before ++ e :: after) = 4096 - e.fill := by rw [fillingRoom, fillingEntry_of_split he hb]
  have hne : (data.drop (4096 - e.fill)).isEmpty = false := by
    rw [← Bool.not_eq_true, List.isEmpty_iff, List.drop_eq_nil_iff]
    omega
  have hlen : (data.take (4096 - e.fill)).length = 4096 - e.fill := List.length_take_of_le (by omega)
  simp only [stageChunk, hfill, hne, hlen]
  rw [map_filling_of_split _ he hb ha]
  rfl

/-! ### RING_SPACE (R141) -/

theorem ringSpace_of_falls {before s : Part} (h : s.spool.arm = true ∧ 32 ≤ before.spool.ring.length ∧ s.spool.ring.length ≤ 31) :
    ringSpace before s = { s with ports := ⟨s.ports.a, raiseIn .ringSpace [BitVec.ofNat 8 s.spool.ring.length] s.ports.b⟩, spool := { s.spool with arm := false } } := by
  have htest : (s.spool.arm && decide (32 ≤ occupancy before) && decide (occupancy s ≤ 31)) = true := by
    simp only [Bool.and_eq_true, decide_eq_true_eq, and_assoc]
    exact h
  rw [ringSpace, if_pos htest]
  rfl

theorem ringSpace_of_not {before s : Part} (h : ¬ (s.spool.arm = true ∧ 32 ≤ before.spool.ring.length ∧ s.spool.ring.length ≤ 31)) :
    ringSpace before s = s := by
  have htest : ¬ (s.spool.arm && decide (32 ≤ occupancy before) && decide (occupancy s ≤ 31)) = true := by
    simp only [Bool.and_eq_true, decide_eq_true_eq, and_assoc]
    exact h
  rw [ringSpace, if_neg htest]

/-! ### CHUNK WRITE (R139) -/

theorem outcome_refused_of_ports {s : State} {p : Port} {t : Part} {r : Reply} (ht : t.ports = (inTransaction s.part p).ports) (hr : carriedOut r = false) :
    outcome s p (t, some r) = { s with part := { t with ports := answered s.part p r } } := by
  simp only [outcome, withArbiter, hr, Bool.false_eq_true, if_false, settleWith_some, settle_of_ports ht]

theorem crc32From_append (xs ys : List Byte) : crc32From (crc32 xs) ys = crc32 (xs ++ ys) := by
  rw [crc32, crc32, crc32From, crc32From, crc32From, BitVec.not_not, List.foldl_append]

/-- The checks of CHUNK WRITE in their order. -/
theorem writeChunk_eq (p : Port) (r : Byte) (offset : Word) (data : List Byte) (s : Part) :
    writeChunk p r offset data s =
      if 32 ≤ r.toNat ∨ data = [] ∨ 4096 < data.length then (s, some { code := .badParam })
      else if s.flash.spool = .faulted ∨ (record s r.toNat).state = .free then (s, some { code := .badState })
      else if (record s r.toNat).writer ≠ p then (s, some { code := .notWriter })
      else if ((record s r.toNat).state ≠ .opened ∧ (record s r.toNat).state ≠ .stalled) ∨ (record s r.toNat).ending = true then (s, some { code := .badState })
      else if offset.toNat ≠ (record s r.toNat).received then (s, some { code := .outOfOrder, value := BitVec.ofNat 32 (record s r.toNat).received })
      else if (record s r.toNat).declared < (record s r.toNat).received + data.length then (s, some { code := .overrun })
      else if fillingRoom r.toNat s.spool.ring < data.length ∧ 64 ≤ s.spool.ring.length then (modifySpool (fun x => { x with arm := true }) s, some { code := .ringFull })
      else (setRecord r.toNat (takeChunk data (record s r.toNat)) (modifyRing (stageChunk r.toNat (record s r.toNat).received ((record s r.toNat).running.getD 0) data) s), some { code := .ok }) := by
  simp only [writeChunk, takesChunks_eq_false, List.isEmpty_iff]
  rfl

/-- Settles O34: the chain of checks, the ring after an accepted chunk, RING_SPACE, and the CRC. -/
theorem chunkWriteResult : Obligations.ChunkWriteResult := by
  refine ⟨fun p r offset data s ht hp ho => ?_, fun p r offset data s ht hp ho hr hd hlen hs => ?_, ⟨Sys2Proof.Tests.test_crc32, rfl, crc32From_append⟩,
    fun before s => ⟨ringSpace_of_falls, ringSpace_of_not⟩⟩
  · intro v answer room
    have hexec {t : Part × Option Reply} {u : State} (h : writeChunk p r offset data (inTransaction s.part p) = t) (hu : outcome s p t = u) :
        exec (.chunkWrite p r offset data) s = .next u :=
      exec_of_outcome (p := p) (f := writeChunk p r offset data) (partAfter_of_permits (i := .chunkWrite p r offset data) (fun _ => rfl) rfl ht rfl rfl hp ho) (by rw [h, hu])
    have hchain := writeChunk_eq p r offset data (inTransaction s.part p)
    split_ifs with h1 h2 h3 h4 h5 h6 h7
    · exact hexec (hchain.trans (if_pos h1)) (outcome_refused rfl)
    all_goals replace hchain := hchain.trans (if_neg h1)
    · exact hexec (hchain.trans (if_pos h2)) (outcome_refused rfl)
    all_goals replace hchain := hchain.trans (if_neg h2)
    · exact hexec (hchain.trans (if_pos h3)) (outcome_refused rfl)
    all_goals replace hchain := hchain.trans (if_neg h3)
    · exact hexec (hchain.trans (if_pos h4)) (outcome_refused rfl)
    all_goals replace hchain := hchain.trans (if_neg h4)
    · exact hexec (hchain.trans (if_pos h5)) (outcome_refused rfl)
    all_goals replace hchain := hchain.trans (if_neg h5)
    · exact hexec (hchain.trans (if_pos h6)) (outcome_refused rfl)
    all_goals replace hchain := hchain.trans (if_neg h6)
    · refine hexec (hchain.trans (if_pos h7)) ?_
      exact outcome_refused_of_ports rfl rfl
  · intro v hw hst hend hoff hfit crc hcrc q ring mine entry accepted
    have hexec {after : List Staged} (hafter : stageChunk r.toNat v.received crc data ring = after)
        (hroom : ¬ (fillingRoom r.toNat ring < data.length ∧ 64 ≤ ring.length)) : accepted after := by
      have hchunk : writeChunk p r offset data q
          = (setRecord r.toNat (takeChunk data v) (modifyRing (stageChunk r.toNat v.received (v.running.getD 0) data) q), some { code := .ok }) := by
        have h1 : ¬ (32 ≤ r.toNat ∨ data = [] ∨ 4096 < data.length) := by
          rintro (h | h | h)
          · omega
          · exact hd h
          · omega
        have h2 : ¬ (q.flash.spool = .faulted ∨ (record q r.toNat).state = .free) := by
          rintro (h | h)
          · exact hs h
          · have h' : v.state = .free := h
            rcases hst with hst | hst <;> rw [hst] at h' <;> cases h'
        have h4 : ¬ (((record q r.toNat).state ≠ .opened ∧ (record q r.toNat).state ≠ .stalled) ∨ (record q r.toNat).ending = true) := by
          rintro (⟨ha, hb⟩ | h)
          · exact hst.elim ha hb
          · have h' : v.ending = true := h
            rw [hend] at h'
            cases h'
        have h6 : ¬ (record q r.toNat).declared < (record q r.toNat).received + data.length := Nat.not_lt.mpr hfit
        have h3 : ¬ (record q r.toNat).writer ≠ p := not_not.mpr hw
        have h5 : ¬ offset.toNat ≠ (record q r.toNat).received := not_not.mpr hoff
        have h7 : ¬ (fillingRoom r.toNat q.spool.ring < data.length ∧ 64 ≤ q.spool.ring.length) := hroom
        rw [writeChunk_eq, if_neg h1, if_neg h2, if_neg h3, if_neg h4, if_neg h5, if_neg h6, if_neg h7]
        rfl
      refine exec_of_outcome (p := p) (f := writeChunk p r offset data) (partAfter_of_permits (i := .chunkWrite p r offset data) (fun _ => rfl) rfl ht rfl rfl hp ho)
        ((congrArg (outcome s p) hchunk).trans ((outcome_taken rfl).trans ?_))
      rw [← hafter, takeChunk, hcrc, Option.getD_some]
      rfl
    refine ⟨fun hnone hlen => hexec (stageChunk_of_none hnone hd) (by omega), fun before e after hring he hfill hroom hb ha => ?_⟩
    intro room
    have hfits : fillingRoom r.toNat ring = room := by rw [hring, fillingRoom, fillingEntry_of_split he hb]
    refine ⟨fun hle => hexec ?_ (by omega), fun hlt hlen => hexec ?_ (by omega)⟩
    · rw [hring]
      exact stageChunk_of_room he hb ha hle
    · rw [hring]
      exact stageChunk_of_split he hb ha hlt

/-! ### SPOOL FORMAT (R174) -/

/-- Port B's unit after the ring was emptied (R141). -/
def ringEmptiedUnit (s : Part) : PortUnit := if s.spool.arm = true ∧ 32 ≤ s.spool.ring.length then raiseIn .ringSpace [0] s.ports.b else s.ports.b

/-- Whether a record is one that an emptying of the spool frees. -/
def inUse (s : Part) (r : Nat) : Bool := decide ((record s r).state ≠ .free)

/-- Whether a job is a fetch's that ends with its record. -/
def endsWithRecord (s : Part) (j : Job) : Bool :=
  (fetchEnds (inUse s) s.ports.b && decide (j = .fetch .B)) || (fetchEnds (inUse s) s.ports.a && decide (j = .fetch .A))

theorem fetchEnds_ringEmptiedUnit (freed : Nat → Bool) (s : Part) : fetchEnds freed (ringEmptiedUnit s) = fetchEnds freed s.ports.b := by
  unfold ringEmptiedUnit
  split <;> rfl

/-- What emptying the spool does (R141, R171, R174). -/
theorem emptySpool_eq (s : Part) :
    emptySpool s = { s with ports := ⟨endedUnit (inUse s) s.ports.a, endedUnit (inUse s) (ringEmptiedUnit s)⟩, spool := { s.spool with records := Vector.replicate 32 freeRecord, ring := [], arm := false }, flash := { s.flash with running := dropJobs (endsWithRecord s) s.flash.running } } := by
  have hring : ringSpace s (modifySpool (fun x => { x with records := Vector.replicate 32 freeRecord, ring := [] }) s)
      = { s with ports := ⟨s.ports.a, ringEmptiedUnit s⟩, spool := { s.spool with records := Vector.replicate 32 freeRecord, ring := [], arm := if s.spool.arm = true ∧ 32 ≤ s.spool.ring.length then false else s.spool.arm } } := by
    obtain ⟨e, he⟩ : ∃ e, e = modifySpool (fun x => { x with records := Vector.replicate 32 freeRecord, ring := [] }) s := ⟨_, rfl⟩
    have harm : e.spool.arm = s.spool.arm := by rw [he]; rfl
    have hlen : e.spool.ring.length = 0 := by rw [he]; rfl
    rw [← he]
    by_cases h : s.spool.arm = true ∧ 32 ≤ s.spool.ring.length
    · rw [ringSpace_of_falls ⟨harm.trans h.1, h.2, by omega⟩, hlen, ringEmptiedUnit, if_pos h, if_pos h, he]
      rfl
    · rw [ringSpace_of_not fun hf => h ⟨harm.symm.trans hf.1, hf.2.1⟩, ringEmptiedUnit, if_neg h, if_neg h, he]
      rfl
  rw [emptySpool, hring, endFetches_eq]
  simp only [fetchEnds_ringEmptiedUnit]
  rfl

theorem snapshotPages_flatten (es : List JEntry) : (snapshotPages es).flatten = es := by
  have hcut : ∀ n : Nat, ((List.range n).map fun c => (es.drop (128 * c)).take 128).flatten = es.take (128 * n) := by
    intro n
    induction n with
    | zero => simp
    | succ n ih => rw [List.range_succ, List.map_append, List.flatten_append, ih, Nat.mul_succ, List.take_add]; simp
  rw [snapshotPages, hcut, List.take_of_length_le]
  omega

theorem snapshotPages_of_short {es : List JEntry} (hne : es ≠ []) (h : es.length ≤ 128) : snapshotPages es = [es] := by
  have hpos := List.length_pos_iff.mpr hne
  have hone : (es.length + 127) / 128 = 1 := by omega
  simp [snapshotPages, hone, List.take_of_length_le h]

theorem unusedBlocks_eq (bad used : List Nat) :
    unusedBlocks bad used = ((List.range 1024).filter fun b => decide (8 ≤ b)).filter fun b => decide (b ∉ bad) && decide (b ∉ used) := by
  have hrange : (List.range 1024).filter (fun b => decide (8 ≤ b)) = (List.range 1016).map (· + 8) := by
    have hlow : (List.range 8).filter (fun b => decide (8 ≤ b)) = [] := by
      rw [List.filter_eq_nil_iff]
      intro b hb
      simpa using hb
    have hhigh : ((List.range 1016).map (8 + ·)).filter (fun b => decide (8 ≤ b)) = (List.range 1016).map (8 + ·) := by
      rw [List.filter_eq_self]
      intro b hb
      obtain ⟨c, -, rfl⟩ := List.mem_map.mp hb
      simp
    rw [show 1024 = 8 + 1016 from rfl, List.range_add, List.filter_append, hlow, hhigh, List.nil_append]
    exact List.map_congr_left fun b _ => Nat.add_comm 8 b
  rw [hrange, unusedBlocks]
  simp only [decide_not]
  rfl

/-- The operation in progress once a format was carried out. -/
def formatRunning (s : Part) (x : Option Running) : Option Running :=
  (dropJobs (endsWithRecord s) x).map fun x => if droppedByFormat x.job then { x with live := false } else x

/-- Whether a format leaves a job in hand. -/
def outlastsFormat (s : Part) (j : Job) : Bool := !endsWithRecord s j && !droppedByFormat j

theorem formatRunning_some (s : Part) (o : Running) :
    formatRunning s (some o) = if outlastsFormat s o.job = true then some o else some { o with live := false } := by
  cases hd : droppedByFormat o.job <;> cases he : endsWithRecord s o.job <;> simp [formatRunning, outlastsFormat, dropJobs, hd, he]

theorem outlastsFormat_iff {s : Part} {j : Job} :
    outlastsFormat s j = true ↔ j = .system ∨ ∃ p, j = .fetch p ∧ fetchEnds (inUse s) (port s p) = false := by
  cases j with
  | system => simp [outlastsFormat, droppedByFormat, endsWithRecord]
  | fetch p =>
    cases p with
    | A => simp [outlastsFormat, droppedByFormat, endsWithRecord, port, Both.get]
    | B => simp [outlastsFormat, droppedByFormat, endsWithRecord, port, Both.get]
  | _ => simp [outlastsFormat, droppedByFormat]

theorem snapshotEntries_of_empty (g : Word) (retired : List Nat) (worn : Bool) :
    snapshotEntries g { emptyReplay with retired := retired, worn := worn }
      = .snapBegin g :: retireSnapshot retired worn ++ [.snapEnd g (BitVec.ofNat 16 ((retireSnapshot retired worn).length + 2))] := by
  have hrecords : (emptyReplay.records.toList.zipIdx.flatMap fun x => recordSnapshot x.2 x.1) = [] := by decide
  rw [snapshotEntries, hrecords]
  rfl

/-- The part once a format was carried out, before the arbiter is asked. -/
def formatted (s : Part) : Part :=
  { s with ports := ⟨endedUnit (inUse s) s.ports.a, endedUnit (inUse s) (ringEmptiedUnit s)⟩, spool := { s.spool with records := Vector.replicate 32 freeRecord, ring := [], pointer := 8, arm := false }, flash := { formatFlash s.flash with running := formatRunning s s.flash.running } }

theorem formatFlash_running (f : Flash) (x : Option Running) :
    formatFlash { f with running := x } = { formatFlash f with running := x.map fun o => if droppedByFormat o.job then { o with live := false } else o } := by
  simp only [formatFlash, formatCompaction]

theorem formatSpool_eq (s : Part) : formatSpool s = (ringSpace s (arbitrate (formatted s)), some { code := .ok }) := by
  rw [formatSpool, thenArbitrate, emptySpool_eq, modifyFlash, modifySpool]
  dsimp only
  rw [formatFlash_running]
  rfl

theorem fetch_inTransaction (s : Part) (p q : Port) : (port (inTransaction s p) q).fetch = (port s q).fetch := by
  have hunit : (unitIn .taken s p).fetch = (port s p).fetch := by
    rw [unitIn]
    split <;> rfl
  cases p <;> cases q
  exacts [hunit, rfl, rfl, hunit]

theorem settle_formatted_flash (f : Flash) {pages : List (List JEntry)} (h : (formatCompaction f).pages = pages) (x : Option Running) :
    { formatFlash f with running := x } = { f with
            spool := if f.spool = .worn then .worn else .ready
            free := []
            erasePending := (((List.range 1024).filter fun b => decide (8 ≤ b)).filter fun b =>
              decide (b ∉ f.factoryBad) && decide (b ∉ f.retired)).map fun b => { block := b, hold := .format }
            scrubList := [], scrub := none, recovery := none, running := x
            journal := { f.journal with
              batch := []
              compaction := some { dest := if f.journal.active = some 6 then 7 else 6, generation := f.journal.generation + 1, isErased := false,
                                   pages := pages, page := 0, format := true } } } := by
  simp only [← h, formatFlash, formatCompaction, unusedBlocks_eq, otherBlock]

/-- Settles O38: the records and the ring emptied, the fetches ended, the blocks pended, and the compaction set up. -/
theorem spoolFormatResult : Obligations.SpoolFormatResult := by
  intro tx s ht hx hp ho
  have hpart : partAfter (.spoolFormat tx) s.part = settleWith tx.port (formatSpool (inTransaction s.part tx.port)) :=
    partAfter_of_permitsSystem (i := .spoolFormat tx) (p := tx.port) (f := formatSpool) (fun _ => rfl) rfl ht hx rfl hp ho
  obtain ⟨w, hw⟩ : ∃ w, w = inTransaction s.part tx.port := ⟨_, rfl⟩
  refine ⟨_, formatted w, exec_eq_partAfter _ _, ?_, ?_, ?_, ?_, ?_⟩
  · rw [← hw]
    exact hpart.trans (by rw [← hw, formatSpool_eq, settleWith_some])
  · rw [hw]; rfl
  · rw [hw]; rfl
  · intro f g body entries
    have hflash : w.flash = f := by rw [hw]; rfl
    have hpages : (formatCompaction f).pages = snapshotPages entries := by
      have hworn : retireSnapshot f.retired (decide (f.spool = .worn)) = body := by
        simp only [retireSnapshot, decide_eq_true_eq]
        rfl
      rw [formatCompaction, snapshotEntries_of_empty, hworn]
    refine ⟨snapshotPages entries, snapshotPages_flatten entries, snapshotPages_of_short (List.cons_ne_nil _ _), ?_⟩
    exact (congrArg (fun x => { formatFlash x with running := (formatted w).flash.running }) hflash).trans (settle_formatted_flash f hpages _)
  · have hrec : inUse w = inUse s.part := by rw [hw]; rfl
    have hfetch (p : Port) : (port w p).fetch = (port s.part p).fetch := by
      rw [hw]
      exact fetch_inTransaction s.part tx.port p
    have hflash : w.flash = s.part.flash := by rw [hw]; rfl
    have hwaits (p : Port) : fetchEnds (inUse w) (port w p) = true ↔ ∃ r o n b, (port s.part p).fetch = .waiting r o n b ∧ (record s.part r).state ≠ .free := by
      rw [fetchEnds_iff, hrec, hfetch]
      simp only [inUse, decide_eq_true_eq]
    intro waits
    refine ⟨fun hnone => ?_, fun o ho' => ?_, fun p => ?_⟩
    · rw [← hflash] at hnone
      exact congrArg (formatRunning w) hnone
    · intro stands
      have hstands : outlastsFormat w o.job = true ↔ stands := by
        rw [outlastsFormat_iff]
        simp only [← Bool.not_eq_true, hwaits]
        rfl
      rw [← hflash] at ho'
      have hrun := (congrArg (formatRunning w) ho').trans (formatRunning_some w o)
      exact ⟨fun h => hrun.trans (if_pos (hstands.mpr h)), fun h => hrun.trans (if_neg fun ht => h (hstands.mp ht))⟩
    · intro v u
      have hspool : w.spool = s.part.spool := by rw [hw]; rfl
      have hv : v = port w p := by rw [hw]
      have hu : u.fetch = (port s.part p).fetch := by
        rw [← hfetch, ← hv]
        change (if _ then _ else _ : PortUnit).fetch = _
        split <;> rfl
      have hport : port (formatted w) p = endedUnit (inUse w) u := by
        cases p with
        | A =>
          have hsame : u = v := if_neg fun h => nomatch h.1
          rw [hsame, hv]
          rfl
        | B =>
          have hraised : u = ringEmptiedUnit w := by
            change (if Port.B = .B ∧ s.part.spool.arm = true ∧ 32 ≤ s.part.spool.ring.length then raiseIn .ringSpace [0] v else v) = _
            rw [ringEmptiedUnit, hspool, hv]
            simp only [true_and]
            rfl
          rw [hraised]
          rfl
      rw [hport]
      refine ⟨fun r o n b hf hfree => endedUnit_of_waiting hf ?_, fun hnot => endedUnit_of_not ?_⟩
      · rw [hrec]
        exact decide_eq_true hfree
      · rw [← Bool.not_eq_true]
        intro h
        refine hnot ((hwaits p).mp ?_)
        obtain ⟨r, o, n, b, hf, hr⟩ := fetchEnds_iff.mp h
        exact fetchEnds_iff.mpr ⟨r, o, n, b, (hfetch p).trans (hu.symm.trans hf), hr⟩

end Sys2Proof.Machine
end

section
/-! PROOFS. Rectangles (R52, R56), the completion of a lane (R58, R74, R76, R77), and the record and the drive of a lane (R51, R57,
R72, R73, R75, R79). -/

namespace Sys2Proof.Machine

/-! ### Rectangles (R52, R56) -/

/-- Whether a rectangle holds a pixel. -/
def Rect.has (q : Rect) (x y : Nat) : Prop := q.xs ≤ x ∧ x < q.xe ∧ q.ys ≤ y ∧ y < q.ye

theorem Rect.not_has_of_void {q : Rect} (h : q.void = true) (x y : Nat) : ¬ q.has x y := by
  simp only [Rect.void, Bool.or_eq_true, decide_eq_true_eq] at h
  rintro ⟨h1, h2, h3, h4⟩
  omega

theorem Rect.mem_pixels {q : Rect} {x y : Nat} : (x, y) ∈ q.pixels ↔ q.has x y := by
  simp only [Rect.pixels, List.mem_flatMap, List.mem_map, List.mem_range, Prod.mk.injEq, Rect.has]
  constructor
  · rintro ⟨dy, hy, dx, hx, rfl, rfl⟩
    omega
  · rintro ⟨h1, h2, h3, h4⟩
    exact ⟨y - q.ys, by omega, x - q.xs, by omega, by omega, by omega⟩

theorem Rect.has_of_meet {a b i : Rect} (h : a.meet b = some i) (x y : Nat) : i.has x y ↔ a.has x y ∧ b.has x y := by
  simp only [Rect.meet] at h
  split at h
  · cases h
  · cases h
    simp only [Rect.has]
    omega

theorem Rect.apart_of_meet {a b : Rect} (h : a.meet b = none) {x y : Nat} (ha : a.has x y) : ¬ b.has x y := by
  simp only [Rect.meet] at h
  split at h
  · next hv =>
    intro hb
    refine Rect.not_has_of_void hv x y ?_
    simp only [Rect.has] at ha hb ⊢
    omega
  · cases h

/-- Whether some rectangle of a list holds a pixel. -/
def anyHas (qs : List Rect) (x y : Nat) : Prop := ∃ q, q ∈ qs ∧ q.has x y

theorem anyHas_minus (a b : Rect) (x y : Nat) : anyHas (a.minus b) x y ↔ a.has x y ∧ ¬ b.has x y := by
  unfold Rect.minus
  cases h : a.meet b with
  | none =>
    simp only [anyHas, List.mem_singleton, exists_eq_left]
    exact ⟨fun ha => ⟨ha, Rect.apart_of_meet h ha⟩, fun ha => ha.1⟩
  | some i =>
    have hfilter (qs : List Rect) : anyHas (qs.filter fun q => !q.void) x y ↔ anyHas qs x y := by
      simp only [anyHas, List.mem_filter, Bool.not_eq_true', ← Bool.not_eq_true]
      exact ⟨fun ⟨q, hq, hx⟩ => ⟨q, hq.1, hx⟩, fun ⟨q, hq, hx⟩ => ⟨q, ⟨hq, fun hv => Rect.not_has_of_void hv x y hx⟩, hx⟩⟩
    have hb : ¬ (a.has x y ∧ b.has x y) ↔ ¬ i.has x y := not_congr (Rect.has_of_meet h x y).symm
    have hab : a.has x y ∧ ¬ b.has x y ↔ a.has x y ∧ ¬ i.has x y := by
      rw [Rect.has_of_meet h x y]
      exact ⟨fun ⟨ha, hn⟩ => ⟨ha, fun hi => hn hi.2⟩, fun ⟨ha, hn⟩ => ⟨ha, fun hi => hn ⟨ha, hi⟩⟩⟩
    have hin : a.xs ≤ i.xs ∧ i.xe ≤ a.xe ∧ a.ys ≤ i.ys ∧ i.ye ≤ a.ye ∧ i.xs < i.xe ∧ i.ys < i.ye := by
      simp only [Rect.meet] at h
      split at h
      · cases h
      · next hv =>
        cases h
        simp only [Rect.void, Bool.or_eq_true, decide_eq_true_eq, not_or] at hv
        dsimp only at hv ⊢
        omega
    rw [hfilter, hab]
    simp only [anyHas, List.mem_cons, List.not_mem_nil, or_false, exists_eq_or_imp, exists_eq_left, Rect.has]
    omega

theorem anyHas_minusAll (a : Rect) (bs : List Rect) (x y : Nat) :
    anyHas (a.minusAll bs) x y ↔ a.has x y ∧ ∀ b, b ∈ bs → ¬ b.has x y := by
  have hstep : ∀ left : List Rect, anyHas (bs.foldl (fun left b => left.flatMap fun q => q.minus b) left) x y
      ↔ anyHas left x y ∧ ∀ b, b ∈ bs → ¬ b.has x y := by
    induction bs with
    | nil => simp
    | cons b bs ih =>
      intro left
      have hone : anyHas (left.flatMap fun q => q.minus b) x y ↔ anyHas left x y ∧ ¬ b.has x y := by
        have hany : anyHas (left.flatMap fun q => q.minus b) x y ↔ ∃ q, q ∈ left ∧ anyHas (q.minus b) x y := by
          simp only [anyHas, List.mem_flatMap]
          exact ⟨fun ⟨r, ⟨q, hq, hr⟩, hx⟩ => ⟨q, hq, r, hr, hx⟩, fun ⟨q, hq, r, hr, hx⟩ => ⟨r, ⟨q, hq, hr⟩, hx⟩⟩
        rw [hany]
        simp only [anyHas_minus]
        exact ⟨fun ⟨q, hq, ha, hb⟩ => ⟨⟨q, hq, ha⟩, hb⟩, fun ⟨⟨q, hq, ha⟩, hb⟩ => ⟨q, hq, ha, hb⟩⟩
      rw [List.foldl_cons, ih, hone]
      simp only [List.mem_cons, forall_eq_or_imp, and_assoc]
  rw [Rect.minusAll, hstep]
  simp only [anyHas, List.mem_singleton, exists_eq_left]

/-- R52 and R56: the pixels that a lane drives. -/
theorem mem_drivenPixels (l : Lane) (x y : Nat) :
    (x, y) ∈ drivenPixels l ↔ l.update.rect.has x y ∧ ∀ q, q ∈ l.exclusions → ¬ q.has x y := by
  rw [← anyHas_minusAll, drivenPixels, List.mem_flatMap]
  simp only [Rect.mem_pixels, anyHas]

/-! ### The shown image (R58, R74) -/

theorem pixelLevel_le (b : Byte) (x : Nat) : pixelLevel b x ≤ 15 := by
  have := b.isLt
  unfold pixelLevel
  split <;> omega

theorem targetLevel_le (m : Mode) {o n : Nat} (ho : o ≤ 15) (hn : n ≤ 15) : targetLevel m o n ≤ 15 := by
  have hthreshold : threshold n ≤ 15 := by
    unfold threshold
    split <;> omega
  cases m with
  | full => exact hn
  | gray => exact hn
  | quick =>
    simp only [targetLevel]
    split
    · exact ho
    · exact hthreshold

/-- A pixel written into an image byte leaves the byte's other pixel. -/
theorem pixelLevel_withLevel (b : Byte) {x x' n : Nat} (hn : n ≤ 15) (h : x' / 2 = x / 2) :
    pixelLevel (withLevel b x n) x' = if x' = x then n else pixelLevel b x' := by
  have := b.isLt
  unfold pixelLevel withLevel byteOf
  split_ifs <;> simp only [BitVec.toNat_ofNat] <;> omega

theorem pixelOffset_inj {x y x' y' : Nat} (hx : x < 1248) (hx' : x' < 1248) :
    dramAddress 28 (pixelOffset x' y') = dramAddress 28 (pixelOffset x y) ↔ x' / 2 = x / 2 ∧ y' = y := by
  simp only [dramAddress, pixelOffset, Config.slotBytes, Config.rowBytes]
  omega

/-- A lane's target level for a pixel, from the levels before its completion (R74). -/
def targetOf (s : Part) (l : Lane) (x y : Nat) : Nat := targetLevel l.applied (shownLevel s x y) (level s l.update.source x y)

theorem targetOf_le (s : Part) (l : Lane) (x y : Nat) : targetOf s l x y ≤ 15 := targetLevel_le _ (pixelLevel_le _ _) (pixelLevel_le _ _)

theorem showPixel_eq (s : Part) (l : Lane) (m : List Host.Cell) (x y : Nat) :
    showPixel s l m (x, y) = Memory.write m (dramAddress 28 (pixelOffset x y)) (withLevel (Memory.read m (dramAddress 28 (pixelOffset x y))) x (targetOf s l x y)) := rfl

/-- The shown image after some of a lane's pixels were set. -/
theorem level_of_showPixels (s : Part) (l : Lane) {x y : Nat} (hx : x < 1248) (ps : List (Nat × Nat)) (hps : ∀ q, q ∈ ps → q.1 < 1248) :
    ∀ m, Memory.wf m = true → pixelLevel (Memory.read (ps.foldl (showPixel s l) m) (dramAddress 28 (pixelOffset x y))) x
      = if (x, y) ∈ ps then targetOf s l x y else pixelLevel (Memory.read m (dramAddress 28 (pixelOffset x y))) x := by
  induction ps with
  | nil => simp
  | cons p ps ih =>
    intro m hm
    obtain ⟨x', y'⟩ := p
    have hx' : x' < 1248 := hps (x', y') List.mem_cons_self
    rw [List.foldl_cons, showPixel_eq, ih (fun q hq => hps q (List.mem_cons_of_mem _ hq)) _ (Memory.wf_write _ _ _ hm), Memory.read_write _ _ _ _ hm]
    simp only [pixelOffset_inj hx' hx]
    by_cases hmem : (x, y) ∈ ps
    · rw [if_pos hmem, if_pos (List.mem_cons_of_mem _ hmem)]
    rw [if_neg hmem]
    by_cases hsame : x / 2 = x' / 2 ∧ y = y'
    · obtain ⟨hhalf, rfl⟩ := hsame
      rw [if_pos ⟨hhalf, rfl⟩, pixelLevel_withLevel _ (targetOf_le _ _ _ _) hhalf, show dramAddress 28 (pixelOffset x' y) = dramAddress 28 (pixelOffset x y) from (pixelOffset_inj hx hx').mpr ⟨hhalf.symm, rfl⟩]
      by_cases heq : x = x'
      · subst heq
        rw [if_pos rfl, if_pos List.mem_cons_self]
      · rw [if_neg heq, if_neg]
        simp [heq, hmem]
    · rw [if_neg hsame, if_neg]
      simp only [List.mem_cons, Prod.mk.injEq, hmem, or_false]
      rintro ⟨rfl, rfl⟩
      exact hsame ⟨rfl, rfl⟩

/-- The pixels set leave every byte outside the shown image. -/
theorem cell_of_showPixels (s : Part) (l : Lane) {a : Nat} (ps : List (Nat × Nat)) (hps : ∀ q, q ∈ ps → dramAddress 28 (pixelOffset q.1 q.2) ≠ a) :
    ∀ m, Memory.wf m = true → Memory.read (ps.foldl (showPixel s l) m) a = Memory.read m a := by
  induction ps with
  | nil => exact fun _ _ => rfl
  | cons p ps ih =>
    intro m hm
    rw [List.foldl_cons, ih (fun q hq => hps q (List.mem_cons_of_mem _ hq)) (showPixel s l m p) (Memory.wf_write _ _ _ hm)]
    refine (Memory.read_write _ _ _ _ hm).trans (if_neg ?_)
    exact (hps p List.mem_cons_self).symm

theorem drivenPixels_on_panel {l : Lane} (hx : l.update.rect.xe ≤ 1248) (hy : l.update.rect.ye ≤ 1664) {q : Nat × Nat} (h : q ∈ drivenPixels l) :
    q.1 < 1248 ∧ q.2 < 1664 := by
  obtain ⟨⟨-, h1, -, h2⟩, -⟩ := (mem_drivenPixels l q.1 q.2).mp h
  omega

/-! ### The completion of a lane (R58, R59, R77) -/

theorem targetLevel_quick (o n : Nat) :
    targetLevel .quick o n = if decide (8 ≤ o) = decide (8 ≤ n) then o else if 8 ≤ n then 15 else 0 := by
  by_cases ho : 8 ≤ o <;> by_cases hn : 8 ≤ n <;> simp [targetLevel, threshold, ho, hn]

theorem byteOf_doneFlags (l : Lane) (bit : Bool → Nat → Byte) (hbit : bit = fun b k => if b = true then BitVec.ofNat 8 k else 0) :
    byteOf (doneFlags l) = bit l.followUp 1 + bit l.promoted 2 + bit l.demoted 4 + bit (decide (l.clamp = .cold)) 8 + bit (decide (l.clamp = .hot)) 16 := by
  subst hbit
  unfold doneFlags
  generalize l.followUp = a, l.promoted = b, l.demoted = c, decide (l.clamp = .cold) = d, decide (l.clamp = .hot) = e
  revert a b c d e
  decide

/-- The ports after a completion. -/
theorem completeLane_eq (i : Nat) (l : Lane) (s : Part) :
    completeLane i l s = { s with
      ports := (raiseDone l.update 0 (doneFlags l) (some (modeCode l.applied)) (some l.frames) s).ports
      engine := setLane i none (handOver l s.engine)
      store := (modifySlot l.update.source (fun v => { v with showing := v.showing - 1 }) (showLane l s)).store } := by
  unfold completeLane raiseDone
  split
  · split <;> rfl
  · rfl

/-- Settles O15: the pixels by induction over the driven ones, the rest from the completion's whole effect. -/
theorem laneCompletes : Obligations.LaneCompletes := by
  refine ⟨fun i l s hi hwf hsrc hxe hye => ?_, fun m q t c r hc hr => ?_⟩
  · intro t
    have ht : t = _ := completeLane_eq i l s
    have hdram : t.store.dram = (drivenPixels l).foldl (showPixel s l) s.store.dram := by rw [ht]; rfl
    refine ⟨fun x y hx hy => ?_, ?_, ?_, ?_, ?_, ?_, ?_⟩
    · have hlevel := level_of_showPixels s l (y := y) hx (drivenPixels l) (fun q hq => (drivenPixels_on_panel hxe hye hq).1) _ hwf
      rw [← hdram] at hlevel
      refine Eq.trans hlevel (if_congr Iff.rfl ?_ rfl)
      unfold targetOf
      cases l.applied with
      | full => rfl
      | gray => rfl
      | quick => exact targetLevel_quick _ _
    · rw [ht]
      exact slot_setSlot_same (showLane l s) _ _ hsrc
    · intro j hj
      rw [ht]
      exact slot_setSlot_other (showLane l s) _ j _ hj.symm
    · rw [ht]
      rfl
    · intro bit flags detail
      have hdetail : detail = [l.update.tag, byteOf 0, byteOf (doneFlags l), byteOf l.update.source, byteOrAbsent (some (modeCode l.applied)), byteOrAbsent (some l.frames)] := by
        rw [byteOf_doneFlags l bit rfl]
        rfl
      rw [ht, hdetail]
      change (raiseDone l.update 0 (doneFlags l) (some (modeCode l.applied)) (some l.frames) s).ports = _
      unfold raiseDone
      cases l.update.origin with
      | port p =>
        cases l.update.notify
        · rfl
        · rfl
      | turn => rfl
      | power => rfl
    · rw [ht]
      rfl
    · intro j a hj hj28 ha
      have hout := cell_of_showPixels s l (a := dramAddress j a) (drivenPixels l) (fun q hq => ?_) _ hwf
      · rw [← hdram] at hout
        exact hout
      · obtain ⟨h1, h2⟩ := drivenPixels_on_panel hxe hye hq
        simp only [dramAddress, pixelOffset, Config.slotBytes, Config.rowBytes]
        omega
  · have hplace : (12 * r + c) % 12 = c ∧ (12 * r + c) / 12 = r := by omega
    rw [completeTiles, getElem_changeTiles _ _ _ (by omega), hplace.1, hplace.2]
    simp only [touches, inside, Bool.and_eq_true, decide_eq_true_eq, and_assoc]

end Sys2Proof.Machine
end

section
/-! PROOFS. The record of a lane that starts and its drive codes (R51, R57, R72, R73, R75, R79). -/

namespace Sys2Proof.Machine

/-! ### Promotion (R79) -/

theorem le_largestCount {q : Rect} {t : Vector Nat 192} (hxe : q.xe ≤ 1248) (hye : q.ye ≤ 1664) (hx : q.xs < q.xe) (hy : q.ys < q.ye) (k : Nat) :
    k ≤ largestCount q t ↔ ∃ (x y : Nat) (hx : x < 12) (hy : y < 16), touches q x y = true ∧ k ≤ t[12 * y + x] := by
  have hmem (v : Nat) : (v ∈ t.toList.zipIdx.map fun (n, i) => if touches q (i % 12) (i / 12) then n else 0)
      ↔ ∃ (i : Nat) (hi : i < 192), (if touches q (i % 12) (i / 12) then t[i] else 0) = v := by
    simp only [List.mem_map, Prod.exists, List.mem_zipIdx_iff_getElem?, List.getElem?_eq_some_iff, Vector.getElem_toList, Vector.length_toList]
    exact ⟨fun ⟨n, i, ⟨hi, hn⟩, hv⟩ => ⟨i, hi, by rw [hn]; exact hv⟩, fun ⟨i, hi, hv⟩ => ⟨t[i], i, ⟨hi, rfl⟩, hv⟩⟩
  have hspec : (∀ v, (v = 0 ∨ v ∈ t.toList.zipIdx.map fun (n, i) => if touches q (i % 12) (i / 12) then n else 0) → v ≤ largestCount q t)
      ∧ (largestCount q t = 0 ∨ largestCount q t ∈ t.toList.zipIdx.map fun (n, i) => if touches q (i % 12) (i / 12) then n else 0) :=
    foldl_max_spec _ 0
  obtain ⟨hle, heq⟩ := hspec
  constructor
  · intro hk
    by_cases hzero : k = 0
    · refine ⟨q.xs / 104, q.ys / 104, by omega, by omega, ?_, by omega⟩
      simp only [touches, Bool.and_eq_true, decide_eq_true_eq]
      omega
    · obtain ⟨i, hi, hv⟩ := (hmem _).mp (heq.resolve_left (by omega))
      split at hv
      · next ht =>
        refine ⟨i % 12, i / 12, by omega, by omega, ht, ?_⟩
        simp only [Nat.div_add_mod, hv]
        exact hk
      · omega
  · rintro ⟨x, y, hx, hy, ht, hk⟩
    refine hk.trans (hle _ (.inr ((hmem _).mpr ⟨12 * y + x, by omega, ?_⟩)))
    have hplace : (12 * y + x) % 12 = x ∧ (12 * y + x) / 12 = y := by omega
    rw [hplace.1, hplace.2]
    exact if_pos ht

/-! ### The drive (R57, R73) -/

theorem some_mem_lanes {e : Engine} {l : Lane} : some l ∈ e.lanes.toList ↔ ∃ i, (i, l) ∈ runningLanes e := by
  simp only [mem_runningLanes, laneAt]
  rw [List.mem_iff_getElem?]
  refine exists_congr fun i => ?_
  cases e.lanes.toList[i]? with
  | none => simp
  | some o => simp

theorem driveOf_eq (n : Nat) : driveOf n = if n = 1 then .darken else if n = 2 then .lighten else .none := by
  match n with
  | 0 => rfl
  | 1 => rfl
  | 2 => rfl
  | n + 3 => rfl

theorem threshold_div (n : Nat) : threshold n / 15 = if 8 ≤ n then 1 else 0 := by
  unfold threshold
  split <;> rfl

theorem threshold_eq_iff (o n : Nat) : threshold o = threshold n ↔ decide (8 ≤ o) = decide (8 ≤ n) := by
  by_cases ho : 8 ≤ o <;> by_cases hn : 8 ≤ n <;> simp [threshold, ho, hn]

/-- Settles O16: promotion by the largest touched count, the driven pixels, and the codes of a frame. -/
theorem laneStartAndDrive : Obligations.LaneStartAndDrive := by
  refine ⟨fun released u ms s c hc hxe hye hx hy => ?_, fun l x y => mem_drivenPixels l x y, fun s n c => ?_⟩
  · intro ghosted l
    have hreading : startReading s = c := by
      rcases hc with h | ⟨h, rfl⟩
      · rw [startReading, h]
        rfl
      · rw [startReading, h]
        rfl
    have hghosted : s.engine.ghostLimit ≤ largestCount u.rect s.engine.tiles ↔ ghosted := by
      rw [le_largestCount hxe hye hx hy]
      simp only [touches, Bool.and_eq_true, decide_eq_true_eq, and_assoc]
      rfl
    have hpromoted : l.promoted = true ↔ u.mode ≠ .full ∧ ghosted := by
      change promotes s u.rect u.mode = true ↔ _
      simp only [promotes, Bool.and_eq_true, decide_eq_true_eq, hghosted]
    refine ⟨hpromoted, ?_, rfl, ?_, ?_, rfl, rfl, rfl, rfl, rfl, rfl⟩
    · change demotes s u.rect u.mode = true ↔ _
      have hp : promotes s u.rect u.mode = true ↔ u.mode ≠ .full ∧ ghosted := hpromoted
      simp only [demotes, Bool.and_eq_true, Bool.or_eq_true, decide_eq_true_eq, hp]
      refine and_congr_left fun _ => ?_
      by_cases hm : u.mode = .full <;> simp [hm]
    · rw [← hreading]
      rfl
    · rw [← hreading]
      rfl
  · intro code
    have hcode (l : Lane) (x y : Nat) : driveCode (activeByte s) l.applied l.band l.index (shownLevel s x y) (level s l.update.source x y) = code l x y := by
      change _ = (if _ then _ else _)
      unfold driveCode
      cases l.applied with
      | full => exact (if_pos rfl).trans (driveOf_eq _)
      | gray =>
        by_cases h : shownLevel s x y = level s l.update.source x y
        · exact (if_neg (by simp [driven, h])).trans (if_pos (decide_eq_true h)).symm
        · exact (if_pos (decide_eq_true h)).trans ((driveOf_eq _).trans (if_neg (by simpa using h)).symm)
      | quick =>
        by_cases h : decide (8 ≤ shownLevel s x y) = decide (8 ≤ level s l.update.source x y)
        · exact (if_neg (by simp [driven, threshold_eq_iff, h])).trans (if_pos (decide_eq_true h)).symm
        · have hdriven : driven .quick (shownLevel s x y) (level s l.update.source x y) = true := by simp [driven, threshold_eq_iff, h]
          refine (if_pos hdriven).trans ((driveOf_eq _).trans (Eq.trans ?_ (if_neg (by simpa using h)).symm))
          simp only [sequenceOffset, threshold_div]
          rfl
    refine ⟨?_, ?_⟩
    · have hpanel : (drive s).engine.panel = (runningLanes s.engine).flatMap fun x => laneCodes s x.2 := rfl
      rw [hpanel]
      simp only [List.mem_flatMap, laneCodes, List.mem_filterMap, some_mem_lanes, Prod.exists, hcode]
      constructor
      · rintro ⟨i, l, hl, x, y, hxy, hcodes⟩
        split at hcodes
        · cases hcodes
        · next hne =>
          cases hcodes
          exact ⟨hne, l, x, y, ⟨i, hl⟩, hxy, rfl, rfl⟩
      · rintro ⟨hne, l, x, y, ⟨i, hl⟩, hxy, rfl, rfl⟩
        exact ⟨i, l, hl, x, y, hxy, if_neg hne⟩
    · exact tableMap_toList _ _

end Sys2Proof.Machine
end

section
/-! PROOFS. A frame boundary (R48): the completions, the activation of a table (R69), and the start step with the discard, the blocking
and the commitment of items (R49 to R55). -/

namespace Sys2Proof.Machine

/-! ### The lanes by their index -/

theorem getD_lanes (e : Engine) (i : Nat) : e.lanes.toList.getD i none = laneAt e i := by
  rw [laneAt, List.getD_eq_getElem?_getD]
  cases e.lanes.toList[i]? <;> rfl

theorem laneList_eq (e : Engine) : laneList e = (List.range 8).map fun i => (i, laneAt e i) := by
  refine List.ext_getElem (by simp [laneList]) fun i h1 h2 => ?_
  have hi : i < 8 := by simpa using h2
  simp [laneList, laneAt, hi]

theorem runningLanes_eq_range (e : Engine) : runningLanes e = (List.range 8).filterMap fun i => (laneAt e i).map fun l => (i, l) := by
  rw [runningLanes, laneList_eq, List.filterMap_map]
  rfl

theorem meetings_eq_range (q : Rect) (e : Engine) :
    meetings q e = (List.range 8).filterMap fun i => (laneAt e i).bind fun l => (q.meet l.update.rect).map fun r => (i, l, r) := by
  rw [meetings, runningLanes_eq_range, List.filterMap_filterMap]
  refine List.filterMap_congr fun i _ => ?_
  cases laneAt e i <;> rfl

theorem filterMap_runningLanes {α : Type} (e : Engine) (f : Lane → Option α) :
    ((runningLanes e).filterMap fun x => f x.2) = e.lanes.toList.filterMap fun x => x.bind f := by
  rw [runningLanes_eq]
  generalize e.lanes.toList = ls, 0 = k
  induction ls generalizing k with
  | nil => rfl
  | cons o ls ih =>
    cases o with
    | none => simpa [runningFrom] using ih (k + 1)
    | some l =>
      have hrest := ih (k + 1)
      rw [runningFrom_cons]
      cases hf : f l <;> simp [hf, hrest]

theorem meetings_lanes (q : Rect) (e : Engine) :
    (meetings q e).map Prod.snd = e.lanes.toList.filterMap fun x => x.bind fun l => (q.meet l.update.rect).map fun r => (l, r) := by
  rw [← filterMap_runningLanes, meetings, List.map_filterMap]
  refine List.filterMap_congr fun x _ => ?_
  cases q.meet x.2.update.rect <;> rfl

theorem idleLane_eq_some {e : Engine} {i : Nat} : idleLane e = some i ↔ i < 8 ∧ laneAt e i = none ∧ ∀ j, j < i → laneAt e j ≠ none := by
  have hfind : idleLane e = (List.range 8).find? fun i => (laneAt e i).isNone := by
    rw [idleLane, laneList_eq, List.find?_map, Option.map_map]
    exact Option.map_id'
  rw [hfind, List.find?_range_eq_some, List.mem_range]
  simp only [Bool.not_eq_true', Option.isNone_iff_eq_none, Option.isNone_eq_false_iff, Option.isSome_iff_ne_none, and_left_comm]

theorem idleLane_eq_none {e : Engine} : idleLane e = none ↔ ∀ i, i < 8 → laneAt e i ≠ none := by
  have hfind : idleLane e = (List.range 8).find? fun i => (laneAt e i).isNone := by
    rw [idleLane, laneList_eq, List.find?_map, Option.map_map]
    exact Option.map_id'
  rw [hfind, List.find?_range_eq_none]
  simp only [Bool.not_eq_true', Option.isNone_eq_false_iff, Option.isSome_iff_ne_none]

theorem forall_lanes_iff {e : Engine} {P : Option Lane → Prop} : (∀ l, l ∈ e.lanes.toList → P l) ↔ ∀ i, i < 8 → P (laneAt e i) := by
  constructor
  · intro h i hi
    refine h _ ?_
    have hlane : laneAt e i = e.lanes.toList[i]'(by simpa using hi) := by simp [laneAt, hi]
    rw [hlane]
    exact List.getElem_mem _
  · intro h l hl
    obtain ⟨i, hi, rfl⟩ := List.getElem_of_mem hl
    have hi8 : i < 8 := by simpa using hi
    have hlane : laneAt e i = e.lanes.toList[i] := by simp [laneAt, hi8]
    exact hlane ▸ h i hi8

theorem anyLane_iff {e : Engine} : anyLane e = false ↔ ∀ l, l ∈ e.lanes.toList → l = none := by
  rw [anyLane, List.any_eq_false]
  simp only [Bool.not_eq_true, Option.isSome_eq_false_iff, Option.isNone_iff_eq_none]

/-! ### The blocking causes (R53) -/

theorem attachedCount_eq (e : Engine) : e.pool = e.release.length + ((e.lanes.toList.map fun x => match x with
    | some l => l.followUps.length
    | none => 0).sum) := by
  rw [pool_eq, laneSum_eq]
  congr 3
  funext x
  cases x <;> rfl

/-- The cause that blocks an item whose source is READY. -/
def blocks (released : Bool) (u : Update) (e : Engine) : Option StartOutcome :=
  let ms := meetings u.rect e
  if ∃ m, m ∈ ms ∧ 4 ≤ m.2.1.followUps.length then some .blockedFollowUps
  else if 32 < e.pool - (if released then 1 else 0) + ms.length then some .blockedPool
  else if u.rect.minusAll (ms.map fun m => m.2.2) ≠ [] ∧ idleLane e = none then some .blockedNoLane
  else none

theorem consider_of_discard {released : Bool} {u : Update} {s : Part} (h : (slot s u.source).state ≠ .ready) :
    consider released u s = (discard released u s, none) := if_pos h

theorem consider_of_ready {released : Bool} {u : Update} {s : Part} (h : (slot s u.source).state = .ready) :
    consider released u s = match blocks released u s.engine with
      | some cause => (s, some cause)
      | none => (commit released u (meetings u.rect s.engine) (u.rect.minusAll ((meetings u.rect s.engine).map fun m => m.2.2)).isEmpty s, none) := by
  refine (if_neg (not_not.mpr h)).trans ?_
  simp only [List.any_eq_true, decide_eq_true_eq, blocks, Bool.and_eq_true, Bool.not_eq_true', List.isEmpty_eq_false_iff, Option.isNone_iff_eq_none]
  split_ifs <;> rfl

/-! ### The attaching of follow-ups (R54) -/

theorem laneAt_attach_of_met {u : Update} {i : Nat} {l : Lane} {r : Rect} {ms : List (Nat × Lane × Rect)} :
    ∀ e, (i, l, r) ∈ ms → i < 8 → ms.Pairwise (fun x y => x.1 < y.1) → laneAt (attach u ms e) i = some (withFollowUp u r l) := by
  induction ms with
  | nil => exact fun e h => nomatch h
  | cons m ms ih =>
    intro e h hi hp
    obtain ⟨hm, hp'⟩ := List.pairwise_cons.mp hp
    rw [attach_cons]
    rcases List.mem_cons.mp h with rfl | h
    · have hrest : ∀ (ms : List (Nat × Lane × Rect)) e, (∀ m, m ∈ ms → i < m.1) → laneAt (attach u ms e) i = laneAt e i := by
        intro ms
        induction ms with
        | nil => exact fun _ _ => rfl
        | cons m ms ih =>
          intro e h
          rw [attach_cons, ih _ fun m hm => h m (List.mem_cons_of_mem _ hm), laneAt_setLane_other _ _ (h m List.mem_cons_self).ne']
      rw [hrest ms _ hm, laneAt_setLane_same _ _ hi]
    · exact ih _ h hi hp'

theorem laneAt_attach_of_not {u : Update} {i : Nat} {ms : List (Nat × Lane × Rect)} :
    ∀ e, (∀ m, m ∈ ms → m.1 ≠ i) → laneAt (attach u ms e) i = laneAt e i := by
  induction ms with
  | nil => exact fun _ _ => rfl
  | cons m ms ih =>
    intro e h
    rw [attach_cons, ih _ fun m hm => h m (List.mem_cons_of_mem _ hm), laneAt_setLane_other _ _ (h m List.mem_cons_self)]

/-- A lane after an item that meets it has committed. -/
def joinedLane (u : Update) (waits : Update → Bool) (l : Lane) : Lane :=
  { l with followUps := (l.followUps ++ match u.rect.meet l.update.rect with
    | some r => [{ u with rect := r }]
    | none => []).filter waits }

theorem laneAt_attach_meetings (u : Update) (e e' : Engine) (h : e'.lanes = e.lanes) (i : Nat) :
    laneAt (attach u (meetings u.rect e) e') i = (laneAt e i).map fun l => { l with followUps := l.followUps ++ match u.rect.meet l.update.rect with
      | some r => [{ u with rect := r }]
      | none => [] } := by
  have hnone (hn : ∀ l r, laneAt e i = some l → u.rect.meet l.update.rect ≠ some r) : laneAt (attach u (meetings u.rect e) e') i = laneAt e i := by
    rw [laneAt_attach_of_not, laneAt_of_lanes h]
    rintro ⟨j, l, r⟩ hm rfl
    obtain ⟨hl, hr⟩ := mem_meetings.mp hm
    exact hn l r hl hr
  cases hl : laneAt e i with
  | none =>
    rw [hnone (by simp [hl]), hl]
    rfl
  | some l =>
    cases hr : u.rect.meet l.update.rect with
    | none =>
      have hapart : ∀ l' r, laneAt e i = some l' → u.rect.meet l'.update.rect ≠ some r := by
        intro l' r hl'
        obtain rfl : l = l' := Option.some.inj (hl.symm.trans hl')
        simp [hr]
      rw [hnone hapart, hl]
      simp [hr]
    | some r =>
      rw [laneAt_attach_of_met _ (mem_meetings.mpr ⟨hl, hr⟩) (laneAt_lt hl) (pairwise_meetings _ _), Option.map_some, hr]
      rfl

/-- Whether an update still waits once an item has committed with its meetings (R28, R54). -/
def stillWaits (u : Update) (met : Bool) (x : Update) : Bool :=
  !(decide (u.origin = .turn) && met && decide (x.origin = .turn) && decide (x.serial ≠ u.serial))

theorem attached_eq (released : Bool) (u : Update) (e : Engine) {waits : Update → Bool} (hwaits : waits = stillWaits u (decide (meetings u.rect e ≠ []))) :
    let x := attached released u (meetings u.rect e) e
    x = { e with queue := (dropHead released e).queue.filter waits, release := (dropHead released e).release.filter waits, lanes := x.lanes }
      ∧ ∀ i, laneAt x i = (laneAt e i).map (joinedLane u waits) := by
  have hlanes : (dropHead released e).lanes = e.lanes := by
    unfold dropHead
    split <;> rfl
  have hdrop : dropHead released e = { e with queue := (dropHead released e).queue, release := (dropHead released e).release } := by
    unfold dropHead
    split <;> rfl
  have hat := laneAt_attach_meetings u e (dropHead released e) hlanes
  have hframe := attach_frame u (meetings u.rect e) (dropHead released e)
  intro x
  by_cases h : (u.origin = .turn && !(meetings u.rect e).isEmpty) = true
  · have hx : x = removeTurn (some u.serial) (attach u (meetings u.rect e) (dropHead released e)) := if_pos h
    have hother : waits = fun y => !otherTurn (some u.serial) y := by
      simp only [Bool.and_eq_true, decide_eq_true_eq, Bool.not_eq_true', List.isEmpty_eq_false_iff] at h
      funext y
      have hserial : decide (some u.serial ≠ some y.serial) = decide (y.serial ≠ u.serial) := by
        simp only [ne_eq, Option.some.injEq, eq_comm]
      rw [hwaits, stillWaits, otherTurn, hserial]
      simp [h.1, h.2]
    refine ⟨?_, fun i => ?_⟩
    · rw [hx, removeTurn, hframe, hother]
      rw [hdrop]
    · rw [hx, laneAt_removeTurn, hat, Option.map_map, hother]
      rfl
  · have hx : x = attach u (meetings u.rect e) (dropHead released e) := if_neg h
    have hall : waits = fun _ => true := by
      funext y
      rw [hwaits, stillWaits]
      by_cases ht : u.origin = .turn
      · have hempty : meetings u.rect e = [] := by simpa [ht] using h
        simp [hempty]
      · simp [ht]
    refine ⟨?_, fun i => ?_⟩
    · rw [hx, hframe, hall, List.filter_true, List.filter_true]
      rw [hdrop]
    · rw [hx, hat]
      congr 1
      funext l
      rw [joinedLane, hall, List.filter_true]

end Sys2Proof.Machine
end

section
/-! PROOFS. The start step of a frame boundary (R49 to R55): its items, how it ends, and the boundary's order (R48). -/

namespace Sys2Proof.Machine

/-! ### The items that are considered (R49) -/

/-- The items that wait at a start step. -/
def itemCount (e : Engine) : Nat := e.release.length + e.queue.length

theorem itemCount_dropHead {e : Engine} {released : Bool} {u : Update} (h : head e = some (released, u)) :
    itemCount (dropHead released e) < itemCount e := by
  rcases head_eq_some h with ⟨rfl, hr⟩ | ⟨rfl, -, hq⟩
  · have hlen := congrArg List.length hr
    simp only [List.length_cons] at hlen
    simp only [itemCount, dropHead, if_true]
    omega
  · have hlen := congrArg List.length hq
    simp only [List.length_cons] at hlen
    simp only [itemCount, dropHead, Bool.false_eq_true, if_false]
    omega

theorem discard_wave (released : Bool) (u : Update) (s : Part) : (discard released u s).wave = s.wave := by
  have hd : (raiseDone u 1 (flagBit 0 released) none none (modifyEngine (dropHead released) s)).wave = s.wave := by
    rw [raiseDone_frame]
    rfl
  simp only [discard]
  split
  · exact hd
  · exact hd

theorem itemCount_attached (released : Bool) (u : Update) (e : Engine) :
    itemCount (attached released u (meetings u.rect e) e) ≤ itemCount (dropHead released e) := by
  have hq := (attached_eq released u e rfl).1
  rw [hq]
  exact Nat.add_le_add (List.length_filter_le _ _) (List.length_filter_le _ _)

theorem consider_progress {released : Bool} {u : Update} {s x : Part} (hh : head s.engine = some (released, u)) (h : consider released u s = (x, none)) :
    itemCount x.engine < itemCount s.engine ∧ x.wave = s.wave := by
  have hdrop := itemCount_dropHead hh
  by_cases hr : (slot s u.source).state = .ready
  · rw [consider_of_ready hr] at h
    split at h
    · cases h
    · cases h
      have hatt := itemCount_attached released u s.engine
      rcases commit_cases released u (meetings u.rect s.engine) (u.rect.minusAll ((meetings u.rect s.engine).map fun m => m.2.2)).isEmpty s with hc | ⟨i, -, hc⟩
      · rw [hc]
        exact ⟨lt_of_le_of_lt hatt hdrop, rfl⟩
      · rw [hc]
        exact ⟨lt_of_le_of_lt hatt hdrop, rfl⟩
  · rw [consider_of_discard hr] at h
    cases h
    rw [discard_engine]
    exact ⟨hdrop, discard_wave _ _ _⟩

theorem consider_blocked {released : Bool} {u : Update} {s x : Part} {cause : StartOutcome} (h : consider released u s = (x, some cause)) :
    x = s ∧ (slot s u.source).state = .ready ∧ blocks released u s.engine = some cause := by
  by_cases hr : (slot s u.source).state = .ready
  · rw [consider_of_ready hr] at h
    split at h
    · next c hc =>
      cases h
      exact ⟨rfl, hr, hc⟩
    · cases h
  · rw [consider_of_discard hr] at h
    cases h

/-- Fuel beyond the items that wait makes no difference. -/
theorem startItems_fuel (n : Nat) : ∀ m s, itemCount s.engine < n → itemCount s.engine < m → startItems n s = startItems m s := by
  induction n with
  | zero => exact fun m s h => absurd h (Nat.not_lt_zero _)
  | succ n ih =>
    intro m s hn hm
    cases m with
    | zero => exact absurd hm (Nat.not_lt_zero _)
    | succ m =>
      unfold startItems
      split
      · rfl
      · next released u hh =>
        split
        · rfl
        · next x hx =>
          obtain ⟨hlt, -⟩ := consider_progress hh hx
          exact ih m x (by omega) (by omega)

/-- How a start step that no replacement stops has ended (R49, R53). -/
def StartEnded (t : Part) : Prop :=
  match head t.engine with
  | none => t.engine.outcome = .empty
  | some (released, u) => (slot t u.source).state = .ready ∧ blocks released u t.engine = some t.engine.outcome

theorem startItems_ended (n : Nat) : ∀ s, itemCount s.engine < n → StartEnded (startItems n s) := by
  induction n with
  | zero => exact fun s h => absurd h (Nat.not_lt_zero _)
  | succ n ih =>
    intro s hn
    unfold startItems
    split
    · next hh =>
      unfold StartEnded
      have hhead : head (modifyEngine (fun e => { e with outcome := .empty }) s).engine = none := hh
      rw [hhead]
      rfl
    · next released u hh =>
      split
      · next x cause hx =>
        obtain ⟨rfl, hready, hblocks⟩ := consider_blocked hx
        unfold StartEnded
        have hhead : head (modifyEngine (fun e => { e with outcome := cause }) x).engine = some (released, u) := hh
        rw [hhead]
        exact ⟨hready, hblocks⟩
      · next x hx => exact ih x (by have := (consider_progress hh hx).1; omega)

theorem head_eq_none {e : Engine} : head e = none ↔ e.release ++ e.queue = [] := by
  unfold head
  cases e.release <;> cases e.queue <;> simp

theorem head_of_append {e : Engine} {u : Update} {rest : List Update} (h : e.release ++ e.queue = u :: rest) :
    head e = some (decide (e.release ≠ []), u) := by
  unfold head
  cases hr : e.release with
  | nil =>
    rw [hr] at h
    rw [List.nil_append] at h
    rw [h]
    rfl
  | cons v vs =>
    rw [hr] at h
    cases h
    rfl

/-- R49: a start step that no replacement stops considers the head, and goes on with what is left. -/
theorem startStep_of_head {u : Update} {rest : List Update} {s : Part} (hw : s.wave.replacementPending = false) (h : s.engine.release ++ s.engine.queue = u :: rest) :
    startStep s = match consider (decide (s.engine.release ≠ [])) u s with
      | (x, some cause) => { x with engine := { x.engine with outcome := cause } }
      | (x, none) => startStep x := by
  have hh := head_of_append h
  have hstart : startStep s = startItems (itemCount s.engine + 1) s := if_neg (by simp [hw])
  rw [hstart, startItems, hh]
  dsimp only
  cases hc : consider (decide (s.engine.release ≠ [])) u s with
  | mk x cause =>
    cases cause with
    | some c => rfl
    | none =>
      obtain ⟨hlt, hwave⟩ := consider_progress hh hc
      have hnext : startStep x = startItems (itemCount x.engine + 1) x := if_neg (by simp [hwave, hw])
      exact (startItems_fuel _ _ x hlt (Nat.lt_succ_self _)).trans hnext.symm

/-! ### The effect of an item that is considered (R34, R50, R54, R55) -/

theorem discard_eq (released : Bool) (u : Update) (s : Part) :
    discard released u s = match u.origin with
      | .port p => if u.notify = true then raise p .updateDone [u.tag, 1, if released = true then 1 else 0, byteOf u.source, 0xFF, 0xFF] (modifyEngine (dropHead released) s) else modifyEngine (dropHead released) s
      | .turn => raise .A .turnStarved [0, 5, byteOrAbsent s.turn.cursor, byteOf u.source, signedByte s.turn.backlog] (modifyEngine (dropHead released) s)
      | .power => modifyEngine (dropHead released) s := by
  unfold discard raiseDone
  cases u.origin with
  | port p => cases released <;> rfl
  | turn => rfl
  | power => rfl

/-- Whether an item's meetings cover it wholly (R54). -/
def coveredBy (u : Update) (ms : List (Nat × Lane × Rect)) : Bool := (u.rect.minusAll (ms.map fun m => m.2.2)).isEmpty

/-- A committed item with the lanes it leaves and, unless it is fully covered, the lane it takes. -/
theorem commit_spec (released : Bool) (u : Update) (s : Part) {waits : Update → Bool} {ms : List (Nat × Lane × Rect)} (hsrc : u.source < 32)
    (hms : ms = meetings u.rect s.engine) (hwaits : waits = stillWaits u (decide (ms ≠ [])))
    (hroom : coveredBy u ms = true ∨ ¬ ∀ i, i < 8 → laneAt s.engine i ≠ none) :
    let t := commit released u ms (coveredBy u ms) s
    t = { s with store := { s.store with slots := t.store.slots }, engine := { s.engine with queue := (dropHead released s.engine).queue.filter waits, release := (dropHead released s.engine).release.filter waits, lanes := t.engine.lanes } }
      ∧ (∀ i, i < 8 → laneAt t.engine i = match laneAt s.engine i with
          | some l => some (joinedLane u waits l)
          | none => if coveredBy u ms = false ∧ ∀ j, j < i → laneAt s.engine j ≠ none then some (laneOf released u ms s) else none)
      ∧ ∀ j, slot t j = if coveredBy u ms = false ∧ j = u.source then { slot s j with showing := (slot s j).showing + 1 } else slot s j := by
  subst hms
  obtain ⟨hframe, hlanes⟩ := attached_eq released u s.engine hwaits
  have hnone (i : Nat) : laneAt (attached released u (meetings u.rect s.engine) s.engine) i = none ↔ laneAt s.engine i = none := by
    rw [hlanes, Option.map_eq_none_iff]
  have hattached : (if (u.origin = .turn && !(meetings u.rect s.engine).isEmpty) = true then
      modifyEngine (removeTurn (some u.serial)) (modifyEngine (fun e => attach u (meetings u.rect s.engine) (dropHead released e)) s)
      else modifyEngine (fun e => attach u (meetings u.rect s.engine) (dropHead released e)) s) = modifyEngine (attached released u (meetings u.rect s.engine)) s := by
    unfold attached
    split <;> rfl
  intro t
  cases hc : coveredBy u (meetings u.rect s.engine) with
  | true =>
    have ht : t = modifyEngine (attached released u (meetings u.rect s.engine)) s := by
      change commit _ _ _ (coveredBy u (meetings u.rect s.engine)) _ = _
      rw [commit, hattached, hc]
      rfl
    refine ⟨?_, fun i hi => ?_, fun j => ?_⟩
    · rw [ht, modifyEngine, hframe]
    · have hlane : laneAt t.engine i = (laneAt s.engine i).map (joinedLane u waits) := by
        rw [ht]
        exact hlanes i
      rw [hlane]
      cases laneAt s.engine i <;> rfl
    · rw [ht]
      rfl
  | false =>
    obtain ⟨i, hi⟩ : ∃ i, idleLane s.engine = some i := by
      rw [← Option.ne_none_iff_exists']
      intro hnone'
      exact (hroom.resolve_left (by simp [hc])) (idleLane_eq_none.mp hnone')
    obtain ⟨hi8, hidle, hbelow⟩ := idleLane_eq_some.mp hi
    have hi' : idleLane (attached released u (meetings u.rect s.engine) s.engine) = some i :=
      idleLane_eq_some.mpr ⟨hi8, (hnone i).mpr hidle, fun j hj h => hbelow j hj ((hnone j).mp h)⟩
    have ht : t = modifySlot u.source (fun v => { v with showing := v.showing + 1 })
        (modifyEngine (setLane i (some (laneOf released u (meetings u.rect s.engine) s))) (modifyEngine (attached released u (meetings u.rect s.engine)) s)) := by
      change commit _ _ _ (coveredBy u (meetings u.rect s.engine)) _ = _
      simp only [commit, hattached, hc, Bool.false_eq_true, if_false]
      have hidle' : idleLane (modifyEngine (attached released u (meetings u.rect s.engine)) s).engine = some i := hi'
      rw [hidle']
    refine ⟨?_, fun k hk => ?_, fun j => ?_⟩
    · rw [ht, modifyEngine, modifyEngine, hframe]
      rfl
    · have hlane : laneAt t.engine k = laneAt (setLane i (some (laneOf released u (meetings u.rect s.engine) s)) (attached released u (meetings u.rect s.engine) s.engine)) k := by
        rw [ht]
        rfl
      rw [hlane]
      by_cases hik : i = k
      · subst hik
        rw [laneAt_setLane_same _ _ hi8, hidle]
        exact (if_pos ⟨rfl, hbelow⟩).symm
      · rw [laneAt_setLane_other _ _ hik, hlanes]
        cases hl : laneAt s.engine k with
        | some l => rfl
        | none =>
          refine (if_neg fun h => ?_).symm
          rcases Nat.lt_or_gt_of_ne hik with hlt | hgt
          · exact h.2 i hlt hidle
          · exact hbelow k hgt hl
    · rw [ht]
      by_cases hj : j = u.source
      · subst hj
        rw [if_pos ⟨rfl, rfl⟩]
        exact slot_setSlot_same _ _ _ hsrc
      · rw [if_neg fun h => hj h.2]
        exact slot_setSlot_other _ _ j _ (Ne.symm hj)

/-! ### The boundary (R48, R69) -/

/-- R69: what an activation copies and marks. -/
theorem activateTable_spec (s : Part) (hwf : Memory.wf s.store.dram = true) :
    let t := activateTable s
    (∀ k, k < 53040 → cell t 29 k = cell s 29 (524288 + k))
      ∧ (∀ i a, i < 32 → a < 1048576 → i ≠ 29 ∨ 53040 ≤ a → cell t i a = cell s i a)
      ∧ slot t 29 = imageSlot ∧ (∀ i, i ≠ 29 → slot t i = slot s i) ∧ t = { s with store := { t.store with retained := s.store.retained }, wave := t.wave }
      ∧ t.wave = { s.wave with replacementPending := false } := by
  intro t
  obtain ⟨file, hfile⟩ : ∃ file, file = incomingTable s := ⟨_, rfl⟩
  have hlen : file.length = 53040 := by simp [hfile, incomingTable, Config.tableBytes]
  have hbyte (k : Nat) (hk : k < 53040) : byteAt file k = cell s 29 (524288 + k) := by
    rw [hfile, byteAt, incomingTable, List.getD_eq_getElem?_getD, List.getElem?_map, List.getElem?_range (by exact hk)]
    rfl
  obtain ⟨x, hx⟩ : ∃ x, x = setSlot 29 imageSlot (placeTable 0 file s) := ⟨_, rfl⟩
  have ht : t = modifyWave (fun w => { w with replacementPending := false }) x := by
    rw [hx, hfile]
    rfl
  obtain ⟨hslot, hin, hout, hother, -⟩ := placedImage hwf (j := 29) (by decide) (by omega) hx
  rw [hlen] at hin hout
  rw [ht]
  refine ⟨fun k hk => (hin k hk).trans (hbyte k hk), fun i a hi ha hia => ?_, hslot, fun i hi => (hother i hi).1, by rw [hx]; rfl, by rw [hx]; rfl⟩
  by_cases h29 : i = 29
  · subst h29
    exact hout a (hia.resolve_left fun h => h rfl) ha
  · exact (hother i h29).2 a ha

theorem completions_eq (s : Part) : completions s = (List.range 8).foldl
    (fun x i => match laneAt s.engine i with
      | some l => if l.frames ≤ l.index then completeLane i l x else x
      | none => x) s := by
  rw [completions, runningLanes_eq_range, List.foldl_filterMap]
  congr 1
  funext x i
  cases laneAt s.engine i <;> rfl

theorem boundariesRun_iff {s : Part} :
    boundariesRun s = true ↔ s.power.forcedOff = false ∧ (s.power.state = .active ∨ s.power.state = .settling) := by
  simp [boundariesRun]

/-- How a start step that no replacement stops has ended, in the obligation's terms. -/
theorem StartEnded.head {t : Part} {u : Update} {rest : List Update} (h : StartEnded t) (hq : t.engine.release ++ t.engine.queue = u :: rest) :
    (slot t u.source).state = .ready ∧ blocks (decide (t.engine.release ≠ [])) u t.engine = some t.engine.outcome := by
  unfold StartEnded at h
  rw [head_of_append hq] at h
  exact h

theorem blocks_spec {released : Bool} {u : Update} {e : Engine} {c : StartOutcome} (h : blocks released u e = some c) :
    let ms := meetings u.rect e
    let full := ∃ m, m ∈ ms ∧ 4 ≤ m.2.1.followUps.length
    let beyond := 32 < e.pool - (if released then 1 else 0) + ms.length
    c = (if full then .blockedFollowUps else if beyond then .blockedPool else .blockedNoLane)
      ∧ (¬ full → ¬ beyond → (∀ i, i < 8 → laneAt e i ≠ none) ∧ u.rect.minusAll (ms.map fun m => m.2.2) ≠ []) := by
  intro ms full beyond
  unfold blocks at h
  by_cases h1 : full
  · cases (if_pos h1).symm.trans h
    exact ⟨(if_pos h1).symm, fun hn => absurd h1 hn⟩
  replace h := (if_neg h1).symm.trans h
  by_cases h2 : beyond
  · cases (if_pos h2).symm.trans h
    exact ⟨((if_neg h1).trans (if_pos h2)).symm, fun _ hn => absurd h2 hn⟩
  replace h := (if_neg h2).symm.trans h
  split at h
  · next h3 =>
    cases h
    exact ⟨((if_neg h1).trans (if_neg h2)).symm, fun _ _ => ⟨idleLane_eq_none.mp h3.2, h3.1⟩⟩
  · cases h

section

variable {released : Bool} {u : Update} {e : Engine}

theorem blocks_of_full (h : ∃ m, m ∈ meetings u.rect e ∧ 4 ≤ m.2.1.followUps.length) : blocks released u e = some .blockedFollowUps := if_pos h

theorem blocks_of_beyond (h1 : ¬ ∃ m, m ∈ meetings u.rect e ∧ 4 ≤ m.2.1.followUps.length)
    (h2 : 32 < e.pool - (if released then 1 else 0) + (meetings u.rect e).length) : blocks released u e = some .blockedPool :=
  (if_neg h1).trans (if_pos h2)

theorem blocks_of_taken (h1 : ¬ ∃ m, m ∈ meetings u.rect e ∧ 4 ≤ m.2.1.followUps.length)
    (h2 : ¬ 32 < e.pool - (if released then 1 else 0) + (meetings u.rect e).length) (hc : coveredBy u (meetings u.rect e) = false)
    (ht : ∀ i, i < 8 → laneAt e i ≠ none) : blocks released u e = some .blockedNoLane :=
  (if_neg h1).trans ((if_neg h2).trans (if_pos ⟨List.isEmpty_eq_false_iff.mp hc, idleLane_eq_none.mpr ht⟩))

theorem blocks_of_room (h1 : ¬ ∃ m, m ∈ meetings u.rect e ∧ 4 ≤ m.2.1.followUps.length)
    (h2 : ¬ 32 < e.pool - (if released then 1 else 0) + (meetings u.rect e).length)
    (h3 : coveredBy u (meetings u.rect e) = true ∨ ¬ ∀ i, i < 8 → laneAt e i ≠ none) : blocks released u e = none := by
  refine (if_neg h1).trans ((if_neg h2).trans (if_neg ?_))
  rintro ⟨hc, ht⟩
  exact h3.elim (fun h => hc (List.isEmpty_iff.mp h)) fun h => h (idleLane_eq_none.mp ht)

end

/-- Settles O14: the boundary's parts in their order, the start step by its fuel, and each item's effect. -/
theorem frameBoundaryOrder : Obligations.FrameBoundaryOrder := by
  refine ⟨fun s => ?_, fun s => ?_, fun s hwf => ?_, fun s => ⟨fun hw => if_pos hw, fun hw => ?_⟩, fun u rest s hw h => startStep_of_head hw h, fun released u s => ?_⟩
  · rw [exec_eq_partAfter]
    have hpart : partAfter .frameBoundary s.part = if alive s.part = true ∧ boundariesRun s.part = true then boundary s.part else s.part := by
      change whileRunning takeBoundary s.part = _
      unfold whileRunning takeBoundary
      cases alive s.part <;> cases boundariesRun s.part <;> rfl
    have hactivation (c : Part) : activation c = if c.wave.replacementPending = true ∧ (∀ l, l ∈ c.engine.lanes.toList → l = none) then activateTable c else c := by
      unfold activation
      simp only [Bool.and_eq_true, Bool.not_eq_true', anyLane_iff]
    rw [hpart]
    simp only [boundariesRun_iff, boundary, hactivation]
  · simp only [getD_lanes]
    exact completions_eq s
  · obtain ⟨hin, hout, hslot, hother, hframe, hwave⟩ := activateTable_spec s hwf
    exact ⟨hin, hout, hslot, hother, hwave, hframe⟩
  · intro t pool
    have hended : StartEnded t := by
      have ht : t = startItems (itemCount s.engine + 1) s := if_neg (by simp [hw])
      rw [ht]
      exact startItems_ended _ s (Nat.lt_succ_self _)
    split
    · next hq =>
      unfold StartEnded at hended
      rw [head_eq_none.mpr hq] at hended
      exact hended
    · next u rest hq =>
      obtain ⟨hready, hblocks⟩ := hended.head hq
      obtain ⟨hcause, hlane⟩ := blocks_spec hblocks
      refine ⟨hready, ?_⟩
      intro met full beyond
      have hmet : (meetings u.rect t.engine).map Prod.snd = met := meetings_lanes _ _
      have hfull : (∃ m, m ∈ meetings u.rect t.engine ∧ 4 ≤ m.2.1.followUps.length) ↔ full := by
        change _ ↔ ∃ m, m ∈ met ∧ _
        rw [← hmet]
        simp only [List.mem_map]
        exact ⟨fun ⟨m, hm, h4⟩ => ⟨m.2, ⟨m, hm, rfl⟩, h4⟩, fun ⟨_, ⟨m, hm, rfl⟩, h4⟩ => ⟨m, hm, h4⟩⟩
      have hbeyond : 32 < t.engine.pool - (if decide (t.engine.release ≠ []) = true then 1 else 0) + (meetings u.rect t.engine).length ↔ beyond := by
        have hone : (if decide (t.engine.release ≠ []) = true then 1 else 0) = if t.engine.release = [] then 0 else 1 := by
          by_cases h : t.engine.release = [] <;> simp [h]
        have hlen : (meetings u.rect t.engine).length = met.length := by rw [← hmet, List.length_map]
        rw [attachedCount_eq, hone, hlen] <;> rfl
      have hrects : (meetings u.rect t.engine).map (fun m => m.2.2) = met.map fun m => m.2 := by
        rw [← hmet, List.map_map]
        rfl
      rw [hrects] at hlane
      simp only [hfull, hbeyond] at hcause hlane
      exact ⟨hcause, fun h1 h2 => ⟨forall_lanes_iff.mpr (hlane h1 h2).1, (hlane h1 h2).2⟩⟩
  · intro e lane gone left met covered full attached beyond taken
    have hlane (i : Nat) : lane i = laneAt e i := getD_lanes e i
    have hmet : meetings u.rect e = met := by
      rw [meetings_eq_range]
      simp only [← hlane]
      rfl
    have hgone : dropHead released e = gone := by
      change _ = if _ then _ else _
      simp only [dropHead, List.drop_one]
    have hleft : modifyEngine (dropHead released) s = left := congrArg (fun x => { s with engine := x }) hgone
    refine ⟨fun hr => ?_, fun hr => ?_⟩
    · rw [consider_of_discard hr, discard_eq, hleft] <;> rfl
    · have hcovered : coveredBy u met = true ↔ covered := List.isEmpty_iff
      have htaken : (∀ i, i < 8 → laneAt e i ≠ none) ↔ taken := by
        simp only [← hlane]
        rfl
      have hbeyond : 32 < e.pool - (if released then 1 else 0) + met.length ↔ beyond := by
        rw [attachedCount_eq] <;> rfl
      have hconsider := consider_of_ready (released := released) hr
      have hfull : (∃ m, m ∈ meetings u.rect e ∧ 4 ≤ m.2.1.followUps.length) ↔ full := by rw [hmet]
      rw [← hmet] at hbeyond
      have hblocked {c : StartOutcome} (h : blocks released u s.engine = some c) : consider released u s = (s, some c) := by rw [hconsider, h]
      have hcovered' : coveredBy u (meetings u.rect e) = false ↔ ¬ covered := by rw [hmet, ← hcovered, Bool.not_eq_true]
      refine ⟨fun h1 => hblocked (blocks_of_full (hfull.mpr h1)), fun h1 h2 => hblocked (blocks_of_beyond (hfull.not.mpr h1) (hbeyond.mpr h2)),
        fun h1 h2 h3 h4 => hblocked (blocks_of_taken (hfull.not.mpr h1) (hbeyond.not.mpr h2) (hcovered'.mpr h3) (htaken.mpr h4)), fun h1 h2 h3 => ?_⟩
      intro waits
      have hroom : coveredBy u met = true ∨ ¬ ∀ i, i < 8 → laneAt e i ≠ none := h3.imp hcovered.mpr htaken.not.mpr
      have hfree : blocks released u s.engine = none := blocks_of_room (hfull.not.mpr h1) (hbeyond.not.mpr h2) (by rw [hmet]; exact hroom)
      have hsrc : u.source < 32 := by
        by_contra hge
        rw [slot, tableGet_of_ge _ _ _ (by omega)] at hr
        cases hr
      obtain ⟨hframe, hlanes, hslots⟩ := commit_spec released u s (waits := waits) hsrc hmet.symm rfl hroom
      rw [hmet] at hcovered'
      refine ⟨commit released u met (coveredBy u met) s, ?_, ?_, fun i hi => ?_, fun j => ?_⟩
      · rw [hconsider, hfree]
        exact congrArg (fun x => (commit released u x (coveredBy u x) s, none)) hmet
      · rw [← hgone]
        exact hframe
      · rw [getD_lanes, hlanes i hi]
        simp only [hlane, hcovered']
        cases laneAt s.engine i with
        | none => rfl
        | some l => rfl
      · simp only [hcovered'] at hslots
        exact hslots j

end Sys2Proof.Machine
end

section
/-! PROOFS. SLOT WRITE and SLOT WRITE RECT (R3, R4, R7 to R9): where the bytes of a write land. -/

namespace Sys2Proof.Machine

/-! ### The content of a slot while bytes are placed (R3, R4) -/

/-- A byte of a slot's content as seen, by the memory and the marked rows of a write in progress. -/
def contentByte (x : List Host.Cell × List Nat) (i a : Nat) : Byte := if a / 624 ∈ x.2 then Memory.read x.1 (dramAddress i a) else 0xFF

/-- A write into a slot and then a read in any slot. -/
theorem read_placeByte {x : List Host.Cell × List Nat} (hwf : Memory.wf x.1 = true) (i o : Nat) (b : Byte) {j a : Nat} (ho : o < 1038336) (ha : a < 1048576) :
    Memory.read (placeByte i x o b).1 (dramAddress j a)
      = if j = i ∧ a = o then b else if j = i ∧ a / 624 = o / 624 ∧ o / 624 ∉ x.2 then 0xFF else Memory.read x.1 (dramAddress j a) := by
  have hplace : dramAddress j a = dramAddress i o ↔ j = i ∧ a = o := by
    simp only [dramAddress, Config.slotBytes]
    omega
  have hrow : dramAddress i (624 * (o / 624)) ≤ dramAddress j a ∧ dramAddress j a < dramAddress i (624 * (o / 624)) + 624 ↔ j = i ∧ a / 624 = o / 624 := by
    simp only [dramAddress, Config.slotBytes]
    omega
  have hwritten {m : List Host.Cell} (hm : Memory.wf m = true) : Memory.read (Memory.write m (dramAddress i o) b) (dramAddress j a)
      = if j = i ∧ a = o then b else Memory.read m (dramAddress j a) := by
    rw [Memory.read_write _ _ _ _ hm]
    simp only [hplace]
  by_cases hmarked : o / 624 ∈ x.2
  · have hbyte : (placeByte i x o b).1 = Memory.write x.1 (dramAddress i o) b := by
      change Memory.write (if o / 624 ∈ x.2 then x.1 else _) _ _ = _
      rw [if_pos hmarked]
    rw [hbyte, hwritten hwf]
    simp [hmarked]
  · have hbyte : (placeByte i x o b).1 = Memory.write (Memory.clear x.1 (dramAddress i (624 * (o / 624))) (dramAddress i (624 * (o / 624)) + 624)) (dramAddress i o) b := by
      change Memory.write (if o / 624 ∈ x.2 then x.1 else _) _ _ = _
      rw [if_neg hmarked, Config.rowBytes]
    rw [hbyte, hwritten (Memory.wf_clear _ _ _ hwf), Memory.read_clear]
    simp only [hrow, hmarked, not_false_eq_true, and_true, Memory.unlisted]

theorem wf_placeByte {x : List Host.Cell × List Nat} (hwf : Memory.wf x.1 = true) (i o : Nat) (b : Byte) : Memory.wf (placeByte i x o b).1 = true := by
  refine Memory.wf_write _ _ _ ?_
  change Memory.wf (if _ then _ else _) = true
  split
  · exact hwf
  · exact Memory.wf_clear _ _ _ hwf

theorem mem_placeByte_rows (i o : Nat) (b : Byte) (x : List Host.Cell × List Nat) (r : Nat) : r ∈ (placeByte i x o b).2 ↔ r = o / 624 ∨ r ∈ x.2 :=
  mem_insertAscending _ _ _

theorem contentByte_placeByte {x : List Host.Cell × List Nat} (hwf : Memory.wf x.1 = true) (i o : Nat) (b : Byte) {a : Nat} (ho : o < 1038336) (ha : a < 1048576) :
    contentByte (placeByte i x o b) i a = if a = o then b else contentByte x i a := by
  unfold contentByte
  rw [read_placeByte hwf i o b ho ha]
  simp only [mem_placeByte_rows, true_and]
  by_cases hao : a = o
  · simp [hao]
  by_cases hrow : a / 624 = o / 624
  · by_cases hmarked : o / 624 ∈ x.2 <;> simp [hao, hrow, hmarked]
  · simp [hao, hrow]

/-! ### The bytes of a write (R8, R9) -/

/-- Where each byte of a run lands. -/
def placesOf (f : Nat → Option Nat) (data : List Byte) : List (Option Nat × Byte) := data.zipIdx.map fun (b, k) => (f k, b)

theorem mem_placesOf {f : Nat → Option Nat} {data : List Byte} {x : Option Nat × Byte} :
    x ∈ placesOf f data ↔ ∃ k, k < data.length ∧ x = (f k, data.getD k 0) := by
  simp only [placesOf, List.mem_map, Prod.exists, List.mem_zipIdx_iff_getElem?, List.getElem?_eq_some_iff]
  constructor
  · rintro ⟨b, k, ⟨hk, hb⟩, rfl⟩
    exact ⟨k, hk, by simp [hk, hb]⟩
  · rintro ⟨k, hk, rfl⟩
    exact ⟨data[k], k, ⟨hk, rfl⟩, by simp [hk]⟩

section

variable {i : Nat} {places : List (Option Nat × Byte)}

/-- The rows that a write marks. -/
theorem mem_placeBytes_rows (r : Nat) : ∀ x, r ∈ (placeBytes i places x).2 ↔ r ∈ x.2 ∨ ∃ q, q ∈ places ∧ ∃ o, q.1 = some o ∧ o / 624 = r := by
  induction places with
  | nil => simp [placeBytes]
  | cons q places ih =>
    intro x
    obtain ⟨o, b⟩ := q
    cases o with
    | none =>
      refine (ih x).trans ?_
      simp
    | some o =>
      refine (ih (placeByte i x o b)).trans ?_
      rw [mem_placeByte_rows]
      simp only [List.mem_cons, exists_eq_or_imp, Option.some.injEq, exists_eq_left', eq_comm, or_assoc, or_left_comm]

/-- A place that bytes of one value reach holds it; a place that none reaches is as it was. -/
theorem contentByte_placeBytes {a : Nat} (ha : a < 1048576) (hpl : PlacesInImage places) :
    ∀ x, Memory.wf x.1 = true → (∀ b, (∀ q, q ∈ places → q.1 = some a → q.2 = b) → contentByte x i a = b ∨ (∃ q, q ∈ places ∧ q.1 = some a) → contentByte (placeBytes i places x) i a = b) := by
  induction places with
  | nil =>
    intro x _ b _ h
    exact h.resolve_right fun ⟨q, hq, _⟩ => nomatch hq
  | cons q places ih =>
    intro x hwf b hb h
    obtain ⟨o, c⟩ := q
    have ih := ih (fun q hq => hpl q (List.mem_cons_of_mem _ hq))
    have hb' : ∀ q, q ∈ places → q.1 = some a → q.2 = b := fun q hq => hb q (List.mem_cons_of_mem _ hq)
    cases o with
    | none =>
      refine ih x hwf b hb' (h.imp_right ?_)
      rintro ⟨q, hq, hqa⟩
      rcases List.mem_cons.mp hq with rfl | hq
      · cases hqa
      · exact ⟨q, hq, hqa⟩
    | some o =>
      refine ih (placeByte i x o c) (wf_placeByte hwf i o c) b hb' ?_
      rw [contentByte_placeByte hwf i o c (hpl _ List.mem_cons_self o rfl) ha]
      by_cases hao : a = o
      · exact .inl ((if_pos hao).trans (hb _ List.mem_cons_self (congrArg some hao.symm)))
      · rw [if_neg hao]
        refine h.imp_right ?_
        rintro ⟨q, hq, hqa⟩
        rcases List.mem_cons.mp hq with rfl | hq
        · exact absurd (Option.some.inj hqa).symm hao
        · exact ⟨q, hq, hqa⟩

/-- A write leaves the bytes of the other slots. -/
theorem read_placeBytes_other {j a : Nat} (hj : j ≠ i) (ha : a < 1048576) (hpl : PlacesInImage places) :
    ∀ x, Memory.wf x.1 = true → Memory.read (placeBytes i places x).1 (dramAddress j a) = Memory.read x.1 (dramAddress j a) := by
  induction places with
  | nil => exact fun _ _ => rfl
  | cons q places ih =>
    intro x hwf
    obtain ⟨o, b⟩ := q
    have ih := ih (fun q hq => hpl q (List.mem_cons_of_mem _ hq))
    cases o with
    | none => exact ih x hwf
    | some o =>
      refine (ih (placeByte i x o b) (wf_placeByte hwf i o b)).trans ?_
      rw [read_placeByte hwf i o b (hpl _ List.mem_cons_self o rfl) ha]
      simp [hj]

end

theorem seen_eq_contentByte {s : Part} {i : Nat} (h : (slot s i).state = .empty ∨ (slot s i).state = .lost → (slot s i).rows = []) (a : Nat) :
    seen s i a = contentByte (s.store.dram, (slot s i).rows) i a := by
  cases hst : (slot s i).state with
  | empty => simp [seen, contentByte, hst, h (.inl hst)]
  | lost => simp [seen, contentByte, hst, h (.inr hst)]
  | filling =>
    simp only [seen, hst]
    rfl
  | ready =>
    simp only [seen, hst]
    rfl

/-- What a taken write leaves (R3, R4, R7). -/
theorem takeWrite_spec {s : Part} {i : Nat} (p : Port) {f : Nat → Option Nat} {data : List Byte} (hi : i < 32) (hwf : Memory.wf s.store.dram = true)
    (hrows : (slot s i).state = .empty ∨ (slot s i).state = .lost → (slot s i).rows = []) (hpl : PlacesInImage (placesOf f data))
    (hinj : ∀ k k' a, k < data.length → k' < data.length → f k = some a → f k' = some a → k = k') :
    let t := takeWrite p i (placesOf f data) s
    (∃ rows, slot t i = { slot s i with state := .filling, key := none, writer := some p, rows := rows }
        ∧ ∀ r, r ∈ rows ↔ r ∈ (slot s i).rows ∨ ∃ k a, k < data.length ∧ f k = some a ∧ a / 624 = r)
      ∧ (∀ k a, k < data.length → f k = some a → seen t i a = data.getD k 0)
      ∧ (∀ a, a < 1038336 → (¬ ∃ k, k < data.length ∧ f k = some a) → seen t i a = seen s i a)
      ∧ ∀ j, j ≠ i → slot t j = slot s j ∧ ∀ a, a < 1048576 → cell t j a = cell s j a := by
  intro t
  obtain ⟨x, hx⟩ : ∃ x, x = placeBytes i (placesOf f data) (s.store.dram, (slot s i).rows) := ⟨_, rfl⟩
  have ht : t = setSlot i { slot s i with state := .filling, key := none, writer := some p, rows := x.2 } (setDram x.1 s) := by
    rw [hx]
    rfl
  have hslot : slot t i = { slot s i with state := .filling, key := none, writer := some p, rows := x.2 } := by
    rw [ht]
    exact slot_setSlot_same _ _ _ hi
  have hseen (a : Nat) : seen t i a = contentByte x i a := by
    have hstate : (slot t i).state = .filling := by rw [hslot]
    rw [seen_eq_contentByte (fun h => by simp [hstate] at h), hslot, ht]
    rfl
  refine ⟨⟨x.2, hslot, fun r => ?_⟩, fun k a hk hka => ?_, fun a ha hnone => ?_, fun j hj => ⟨?_, fun a ha => ?_⟩⟩
  · rw [hx, mem_placeBytes_rows]
    refine or_congr Iff.rfl ?_
    simp only [mem_placesOf]
    exact ⟨fun ⟨_, ⟨k, hk, rfl⟩, o, ho, hr⟩ => ⟨k, o, hk, ho, hr⟩, fun ⟨k, a, hk, ha, hr⟩ => ⟨_, ⟨k, hk, rfl⟩, a, ha, hr⟩⟩
  · have ha : a < 1038336 := hpl _ (mem_placesOf.mpr ⟨k, hk, rfl⟩) a hka
    rw [hseen, hx]
    refine contentByte_placeBytes (by omega) hpl _ hwf _ ?_ (.inr ⟨_, mem_placesOf.mpr ⟨k, hk, rfl⟩, hka⟩)
    intro q hq hqa
    obtain ⟨k', hk', rfl⟩ := mem_placesOf.mp hq
    rw [hinj k k' a hk hk' hka hqa]
  · rw [hseen, hx, seen_eq_contentByte hrows]
    refine contentByte_placeBytes (by omega) hpl _ hwf _ ?_ (.inl rfl)
    intro q hq hqa
    obtain ⟨k, hk, rfl⟩ := mem_placesOf.mp hq
    exact absurd ⟨k, hk, hqa⟩ hnone
  · rw [ht]
    exact slot_setSlot_other (setDram x.1 s) i j _ hj.symm
  · have hcell : cell t j a = Memory.read x.1 (dramAddress j a) := by
      rw [ht]
      rfl
    rw [hcell, hx]
    exact read_placeBytes_other hj ha hpl _ hwf

/-- A slot write that no check refuses. -/
theorem exec_of_taken_write {i : Instr} {p : Port} {k : Nat} {good : Bool} {f : Nat → Option Nat} {data : List Byte} {s : State}
    (hi : partAfter i s.part = settleWith p (slotWriteChecked p k good (placesOf f data) (inTransaction s.part p)))
    (hr : writeRefusal s.part p k good = none) :
    exec i s = .next { s with part := { s.part with
      ports := answered s.part p { code := if ((placesOf f data).any fun x => x.1.isNone) = true then .clipped else .ok }
      store := { (takeWrite p k (placesOf f data) s.part).store with retained := s.part.store.retained } } } := by
  have hr' : writeRefusal (inTransaction s.part p) p k good = none := hr
  refine exec_of_part (hi.trans ?_)
  rw [slotWriteChecked_eq, hr']
  dsimp only
  rw [settleWith_some]
  exact settle_of_ports (s := s.part) (t := takeWrite p k (placesOf f data) (inTransaction s.part p)) rfl

theorem writeRefusal_eq_none {s : Part} {p : Port} {i : Nat} {good : Bool} (h1 : i < 28) (h2 : (s.rights.records.get p).mask.getLsbD i = true) (h3 : good = true)
    (h4 : (slot s i).showing = 0) (h5 : ¬ ((slot s i).state = .filling ∧ (slot s i).writer = some (peer p))) : writeRefusal s p i good = none := by
  rw [writeRefusal, if_neg (by omega), if_neg (by simp [h2]), if_neg (by simp [h3]), if_neg (by simp [h4]), if_neg h5]

theorem any_placesOf_isNone (f : Nat → Option Nat) (data : List Byte) :
    ((placesOf f data).any fun x => x.1.isNone) = true ↔ ∃ k, k < data.length ∧ f k = none := by
  simp only [List.any_eq_true, mem_placesOf, Option.isNone_iff_eq_none]
  exact ⟨fun ⟨_, ⟨k, hk, rfl⟩, h⟩ => ⟨k, hk, h⟩, fun ⟨k, hk, h⟩ => ⟨_, ⟨k, hk, rfl⟩, h⟩⟩

/-- Settles O4: the places of each command's bytes, no two of them the same, and what a taken write leaves. -/
theorem slotWritePlaces : Obligations.SlotWritePlaces := by
  refine ⟨fun p i offset data s ht ho hwf hi hmask hoff hdata hshow hown hrows => ?_,
    fun p i bc row bw h data s ht ho hwf hi hmask hbc hrow hbw hh hdata hshow hown hrows => ?_⟩
  · obtain ⟨f, hf⟩ : ∃ f : Nat → Option Nat, f = fun k => if offset.toNat + k < 1038336 then some (offset.toNat + k) else none := ⟨_, rfl⟩
    have hplaces : runPlaces offset.toNat data = placesOf f data := by rw [hf]; rfl
    have hsome (k a : Nat) : f k = some a ↔ offset.toNat + k < 1038336 ∧ offset.toNat + k = a := by simp [hf]
    have hexec := exec_of_taken_write (i := .slotWrite p i offset data) (f := f) (data := data) (good := decide (offset.toNat < 1038336 ∧ data ≠ []))
      (by rw [partAfter_of_free (p := p) (f := writeRunTo p i offset data) (fun _ => rfl) rfl ht rfl (.inr rfl) ho, writeRunTo, runValid_eq, hplaces])
      (writeRefusal_eq_none hi hmask (decide_eq_true ⟨hoff, hdata⟩) hshow hown)
    obtain ⟨hrec, hin, hout, hother⟩ := takeWrite_spec (s := s.part) (i := i.toNat) p (f := f) (data := data) (by omega) hwf hrows
      (hplaces ▸ placesInImage_run offset.toNat data) (fun k k' a _ _ hk hk' => by have := (hsome k a).mp hk; have := (hsome k' a).mp hk'; omega)
    have hclip : ((placesOf f data).any fun x => x.1.isNone) = true ↔ ¬ offset.toNat + data.length ≤ 1038336 := by
      rw [any_placesOf_isNone]
      have hpos := List.length_pos_iff.mpr hdata
      have hnone (k : Nat) : f k = none ↔ ¬ offset.toNat + k < 1038336 := by simp [hf]
      simp only [hnone]
      exact ⟨fun ⟨k, hk, hge⟩ => by omega, fun hgt => ⟨data.length - 1, by omega, by omega⟩⟩
    have hcode : (if ((placesOf f data).any fun x => x.1.isNone) = true then ResultCode.clipped else .ok) = if offset.toNat + data.length ≤ 1038336 then .ok else .clipped := by
      simp only [hclip, ite_not]
    rw [hcode] at hexec
    refine ⟨_, hexec, rfl, ?_, fun a ha => ?_, hother⟩
    · obtain ⟨rows, hslot, hmem⟩ := hrec
      refine ⟨rows, hslot, fun r => (hmem r).trans (or_congr Iff.rfl ?_)⟩
      simp only [hsome]
      exact ⟨fun ⟨k, a, hk, ⟨h1, h2⟩, h3⟩ => ⟨k, hk, h1, by rw [h2]; exact h3⟩, fun ⟨k, hk, h1, h3⟩ => ⟨k, _, hk, ⟨h1, rfl⟩, h3⟩⟩
    · by_cases hin' : offset.toNat ≤ a ∧ a < offset.toNat + data.length
      · rw [if_pos hin']
        exact hin (a - offset.toNat) a (by omega) ((hsome _ _).mpr ⟨by omega, by omega⟩)
      · rw [if_neg hin']
        refine hout a ha fun ⟨k, hk, hka⟩ => hin' ?_
        have := (hsome k a).mp hka
        omega
  · intro lands
    obtain ⟨f, hf⟩ : ∃ f : Nat → Option Nat, f = fun k => if k < bw.toNat * h.toNat ∧ bc.toNat + k % bw.toNat < 624 ∧ row.toNat + k / bw.toNat < 1664 then some (624 * (row.toNat + k / bw.toNat) + (bc.toNat + k % bw.toNat)) else none := ⟨_, rfl⟩
    have hplaces : rectPlaces bc.toNat row.toNat bw.toNat h.toNat data = placesOf f data := by rw [hf]; rfl
    have hlands (k a : Nat) : k < data.length ∧ f k = some a ↔ lands k a := by
      simp only [hf, lands, Option.ite_none_right_eq_some, Option.some.injEq, and_assoc]
      exact and_congr_right fun _ => and_congr_right fun _ => and_congr_right fun _ => and_congr_right fun _ => eq_comm
    have hinj (k k' a : Nat) (hk : k < data.length) (hk' : k' < data.length) (h1 : f k = some a) (h2 : f k' = some a) : k = k' := by
      obtain ⟨-, -, hc, -, ha⟩ := (hlands k a).mp ⟨hk, h1⟩
      obtain ⟨-, -, hc', -, ha'⟩ := (hlands k' a).mp ⟨hk', h2⟩
      have hq : k / bw.toNat = k' / bw.toNat := by omega
      have hm : k % bw.toNat = k' % bw.toNat := by omega
      rw [← Nat.div_add_mod k bw.toNat, ← Nat.div_add_mod k' bw.toNat, hq, hm]
    have hexec := exec_of_taken_write (i := .slotWriteRect p i bc row bw h data) (f := f) (data := data)
      (good := decide (bc.toNat < 624 ∧ row.toNat < 1664 ∧ bw ≠ 0 ∧ h ≠ 0 ∧ data ≠ []))
      (by rw [partAfter_of_free (p := p) (f := writeRectTo p i bc row bw h data) (fun _ => rfl) rfl ht rfl (.inr rfl) ho, writeRectTo, rectValid_eq, hplaces])
      (writeRefusal_eq_none hi hmask (decide_eq_true ⟨hbc, hrow, hbw, hh, hdata⟩) hshow hown)
    obtain ⟨⟨rows, hslot, hmem⟩, hin, hout, hother⟩ := takeWrite_spec (s := s.part) (i := i.toNat) p (f := f) (data := data) (by omega) hwf hrows
      (hplaces ▸ placesInImage_rect bc.toNat row.toNat bw.toNat h.toNat data) hinj
    refine ⟨_, hexec, ⟨_, ?_, ?_, rfl⟩, ⟨rows, hslot, fun r => (hmem r).trans (or_congr Iff.rfl ?_)⟩, fun k a hka => ?_, fun a ha hnone => ?_, hother⟩
    · have hany := any_placesOf_isNone f data
      by_cases hclip : ((placesOf f data).any fun x => x.1.isNone) = true
      · obtain ⟨k, hk, hnone⟩ := hany.mp hclip
        rw [if_pos hclip]
        refine ⟨fun hc => (nomatch hc), fun hall => ?_⟩
        obtain ⟨a, ha⟩ := hall k hk
        rw [← hlands, hnone] at ha
        exact nomatch ha.2
      · rw [if_neg hclip]
        refine ⟨fun _ k hk => ?_, fun _ => rfl⟩
        obtain ⟨a, ha⟩ := Option.ne_none_iff_exists'.mp fun hnone => hclip (hany.mpr ⟨k, hk, hnone⟩)
        exact ⟨a, (hlands k a).mp ⟨hk, ha⟩⟩
    · split
      · exact .inr rfl
      · exact .inl rfl
    · simp only [← and_assoc, hlands]
    · obtain ⟨hk, hfk⟩ := (hlands k a).mpr hka
      exact hin k a hk hfk
    · exact hout a ha fun ⟨k, hk⟩ => hnone ⟨k, (hlands k a).mp hk⟩

end Sys2Proof.Machine
end

section
/-! PROOFS. Bytes that are read back as they were written: the fields (R196), a command from the bytes that spell it (R188, R189), and the
journal entries, journal pages and rights images of the flash array (R168, R170, R179). -/

namespace Sys2Proof.Machine

/-! ### Fields (R196) -/

theorem word_of_bytes (w : Word) : (w.extractLsb' 24 8 ++ w.extractLsb' 16 8 ++ w.extractLsb' 8 8 ++ w.extractLsb' 0 8 : Word) = w :=
  wordAt_leWord [] w

theorem half_of_bytes (h : Half) : (h.extractLsb' 8 8 ++ h.extractLsb' 0 8 : Half) = h := by
  refine BitVec.eq_of_getElem_eq fun i hi => ?_
  simp only [BitVec.getElem_append, BitVec.getElem_extractLsb']
  split
  · rw [Nat.zero_add]
    rfl
  · rw [show 8 + (i - 8) = i by omega]
    rfl

/-! ### A command from its bytes (R188, R189, R197) -/

/-- Whether data bytes are those of a command (R189). -/
def spellsData (data : List Byte) (i : Instr) : Prop :=
  match i with
  | .slotWrite _ _ _ d => data = d
  | .slotWriteRect _ _ _ _ _ _ d => data = d
  | .chunkWrite _ _ _ d => data = d
  | _ => data.length = strayData i

/-- The command of a code, with the parameters and the data that spell it. -/
theorem buildCommand_commandParams {i : Instr} {code : Nat} {data : List Byte} (hwf : i.wellFormed = true) (hc : commandCode i = some code)
    (hs : isSample i = false) (hu : ∀ p c, i ≠ .unknownCommandCode p c)
    (hdata : spellsData data i) :
    paramCount code = some (commandParams i).length ∧ buildCommand (commandPort i) code (commandParams i) data = i := by
  have hrx (rx : Rx) (h : decide (rx.moment = .sample) = false) : (⟨rx.port, .deselect⟩ : Rx) = rx := by
    obtain ⟨p, m⟩ := rx
    obtain rfl := moment_eq_deselect h
    rfl
  have htx (tx : Tx) (h : data.length = tx.extra) : (⟨tx.port, data.length⟩ : Tx) = tx := by rw [h]
  cases i
  case turnListSet tx n ps c =>
    cases hc
    have hlen : ps.length = 28 := of_decide_eq_true hwf
    refine ⟨by simp [paramCount, commandParams, hlen], ?_⟩
    simp [buildCommand, commandParams, commandPort, htx tx hdata, byteAt, hlen]
  case noticeRead p m =>
    cases hc
    obtain rfl := moment_eq_deselect hs
    exact ⟨rfl, rfl⟩
  case unknownCommandCode p c => exact absurd rfl (hu p c)
  case slotWrite | slotWriteRect | chunkWrite =>
    cases hc
    cases hdata
    simp [buildCommand, commandParams, commandPort, paramCount, byteAt, halfAt, wordAt, leWord, leHalf, word_of_bytes, half_of_bytes]
  all_goals cases hc
  case status rx | identify rx | slotRead rx _ _ _ | shownRead rx _ _ | slotTableRead rx | turnStateRead rx | engineRead rx | temperatureRead rx
      | lightRead rx | batteryRead rx | fetchData rx | directoryRead rx | flashHealthRead rx | rightsRead rx | peerRead rx =>
    simp [buildCommand, commandParams, commandPort, paramCount, byteAt, wordAt, leWord, word_of_bytes, hrx rx hs]
  case noticeMask tx _ _ | slotPost tx _ _ | slotDiscard tx _ | slotRetain tx _ _ | turnSettings tx _ _ | updateSubmit tx _ _ _ _ _ _ _ _
      | updateCancel tx | ghostSet tx _ | ghostClear tx | waveformLoad tx _ | lightSet tx _ _ _ | batterySettings tx _ | sleep tx | wake tx
      | powerOff tx | powerPolicy tx _ _ _ | alarmSet tx _ | sleepScreenStore tx _ | downloadOpen tx _ _ | downloadSeal tx _ _
      | downloadAbandon tx _ | downloadClaim tx _ | downloadRelease tx _ | fetch tx _ _ _ | spoolFormat tx | rightsSet tx _ _ _ _
      | rightsStore tx | chipReset tx | peerGrant tx | peerDeny tx | peerWithdraw tx =>
    simp [buildCommand, commandParams, commandPort, paramCount, byteAt, halfAt, wordAt, leWord, leHalf, word_of_bytes, half_of_bytes, htx tx hdata]

/-- A frame of a named command, whole. -/
theorem commandOf_of_count {p : Port} {code width n : Nat} {bytes : List Byte} (hcode : code < 64) (hwidth : width < 3) (hn : paramCount code = some n)
    (hlen : n ≤ bytes.length) :
    commandOf p { bits := 8, command := BitVec.ofNat 8 (code + 64 * width), bytes := bytes, cutByte := false, readAll := true }
      = buildCommand p code (bytes.take n) (bytes.drop n) := by
  have hbyte : (BitVec.ofNat 8 (code + 64 * width)).toNat = code + 64 * width := by
    rw [BitVec.toNat_ofNat]
    omega
  have hlow : (code + 64 * width) % 64 = code := by omega
  have hhigh : (code + 64 * width) / 64 ≠ 3 := by omega
  simp [commandOf, hbyte, hlow, hhigh, hn, Nat.not_lt.mpr hlen]

theorem commandCode_lt {i : Instr} {code : Nat} (hwf : i.wellFormed = true) (hc : commandCode i = some code) : code < 64 := by
  cases i
  case unknownCommandCode p c =>
    simp only [Instr.wellFormed, Bool.and_eq_true, decide_eq_true_eq] at hwf
    simp only [commandCode, Option.some.injEq] at hc
    omega
  all_goals cases hc <;> decide

/-- Settles O52: the command byte gives the code back whatever the width, and the parameters give their fields back. -/
theorem commandReadsBack : Obligations.CommandReadsBack := by
  intro i code width data hwf hc hs hwidth hdata
  have hcode := commandCode_lt hwf hc
  by_cases hu : ∀ p c, i ≠ .unknownCommandCode p c
  · obtain ⟨hn, hbuild⟩ := buildCommand_commandParams (data := data) hwf hc hs hu hdata
    rw [commandOf_of_count hcode hwidth hn (by simp), List.take_left, List.drop_left]
    exact hbuild
  · obtain ⟨p, hu⟩ := not_forall.mp hu
    obtain ⟨c, hu⟩ := not_forall.mp hu
    obtain rfl := not_not.mp hu
    simp only [Instr.wellFormed, Bool.and_eq_true, decide_eq_true_eq] at hwf
    simp only [commandCode, Option.some.injEq] at hc
    have hbyte : (BitVec.ofNat 8 (code + 64 * width)).toNat = code + 64 * width := by
      rw [BitVec.toNat_ofNat]
      omega
    have hlow : (code + 64 * width) % 64 = code := by omega
    have hhigh : (code + 64 * width) / 64 ≠ 3 := by omega
    have hnone : paramCount code = none := paramCount_of_unnamed code hcode (by omega)
    have hback : byteOf code = c := by rw [← hc, byteOf_toNat]
    simp [commandOf, hbyte, hlow, hhigh, hnone, hback, commandPort]

/-! ### Journal entries (R168) -/

theorem padTo_of_le {n : Nat} {bs : List Byte} (h : bs.length ≤ n) : padTo n bs = bs ++ List.replicate (n - bs.length) 0xFF := by
  rw [padTo, List.take_append, List.take_of_length_le h, List.take_replicate, Nat.min_eq_left (Nat.sub_le _ _)]

theorem byteAt_padTo {n i : Nat} (bs : List Byte) (hi : i < n) : byteAt (padTo n bs) i = byteAt bs i := by
  simp only [byteAt, padTo, List.getD_eq_getElem?_getD, List.getElem?_take, if_pos hi, List.getElem?_append]
  split
  · rfl
  · next h =>
    rw [List.getElem?_eq_none (by omega : bs.length ≤ i), List.getElem?_replicate]
    split <;> rfl

/-- The blocks of an EXTENT entry, by their places. -/
theorem halfAt_flatMap (xs : List Byte) (bs : List Half) : ∀ i (hi : i < bs.length), halfAt (xs ++ bs.flatMap leHalf) (xs.length + 2 * i) = bs[i] := by
  induction bs generalizing xs with
  | nil => exact fun i hi => absurd hi (Nat.not_lt_zero _)
  | cons b bs ih =>
    intro i hi
    have hsplit : xs ++ (b :: bs).flatMap leHalf = (xs ++ leHalf b) ++ bs.flatMap leHalf := by simp
    cases i with
    | zero =>
      rw [hsplit]
      simp [halfAt, byteAt, leHalf, half_of_bytes]
    | succ i =>
      have hrest := ih (xs ++ leHalf b) i (by simpa using hi)
      rw [hsplit, List.getElem_cons_succ, ← hrest]
      congr 1
      simp [leHalf]
      omega

theorem parseContent_extent (r : Byte) (f : Half) (bs : List Half) (h : bs.length ≤ 12) :
    parseContent (padTo 30 (entryContent (.extent r f bs))) = some (.extent r f bs) := by
  obtain ⟨c, hc⟩ : ∃ c, c = padTo 30 (entryContent (.extent r f bs)) := ⟨_, rfl⟩
  have hcontent : entryContent (.extent r f bs) = ([9, r] ++ leHalf f ++ [byteOf bs.length]) ++ bs.flatMap leHalf := rfl
  have hbyte (k : Nat) (hk : k < 30) : byteAt c k = byteAt (([9, r] ++ leHalf f ++ [byteOf bs.length]) ++ bs.flatMap leHalf) k := by
    rw [hc, byteAt_padTo _ hk, hcontent]
  have hcount : (byteAt c 4).toNat = bs.length := by
    rw [hbyte 4 (by omega)]
    change (BitVec.ofNat 8 bs.length).toNat = _
    rw [BitVec.toNat_ofNat]
    omega
  have hfirst : halfAt c 2 = f := by
    rw [halfAt, hbyte 2 (by omega), hbyte 3 (by omega)]
    exact half_of_bytes f
  have hblocks : ((List.range (min 12 (byteAt c 4).toNat)).map fun i => halfAt c (5 + 2 * i)) = bs := by
    rw [hcount, Nat.min_eq_right h]
    refine List.ext_getElem (by simp) fun i h1 h2 => ?_
    have hplace := halfAt_flatMap ([9, r] ++ leHalf f ++ [byteOf bs.length]) bs i h2
    rw [List.getElem_map, List.getElem_range, halfAt, hbyte _ (by omega), hbyte _ (by omega)]
    exact hplace
  have hparse : parseContent c = some (.extent (byteAt c 1) (halfAt c 2) ((List.range (min 12 (byteAt c 4).toNat)).map fun i => halfAt c (5 + 2 * i))) := by
    have hkind : (byteAt c 0).toNat = 9 := by
      rw [hbyte 0 (by omega)]
      rfl
    rw [parseContent, hkind] <;> rfl
  rw [← hc, hparse, hfirst, hblocks, hbyte 1 (by omega)]
  rfl

/-- An EXTENT entry names at most the blocks that its content holds. -/
def extentFits (e : JEntry) : Prop := ∀ r f bs, e = .extent r f bs → bs.length ≤ 12

theorem parseContent_entryContent {e : JEntry} (h : extentFits e) : parseContent (padTo 30 (entryContent e)) = some e := by
  cases e with
  | opened r t w d q n c =>
    cases w <;> simp [parseContent, entryContent, padTo, byteAt, halfAt, wordAt, leWord, leHalf, word_of_bytes, half_of_bytes, portCode, byteOf]
  | sealed r x c last =>
    rcases last with _ | ⟨k, b⟩
    · cases x <;> simp [parseContent, entryContent, padTo, byteAt, wordAt, leWord, word_of_bytes, byteOf]
    · cases x <;> simp [parseContent, entryContent, padTo, byteAt, halfAt, wordAt, leWord, leHalf, word_of_bytes, half_of_bytes, byteOf]
  | retire b w => cases w <;> simp [parseContent, entryContent, padTo, byteAt, halfAt, leHalf, half_of_bytes, byteOf]
  | extent r f bs => exact parseContent_extent r f bs (h r f bs rfl)
  | block | freed | claimed | faulted | replace | snapBegin | snapEnd =>
    simp [parseContent, entryContent, padTo, byteAt, halfAt, wordAt, leWord, leHalf, word_of_bytes, half_of_bytes]

theorem entryContent_length_le {e : JEntry} (h : extentFits e) : (entryContent e).length ≤ 30 := by
  cases e with
  | sealed r x c last => rcases last with _ | ⟨k, b⟩ <;> simp [entryContent, leWord, leHalf]
  | extent r f bs =>
    have hlen := h r f bs rfl
    have hflat : (bs.flatMap leHalf).length = 2 * bs.length := (length_flatMap_of_const (n := 2) (fun _ => rfl) bs).trans (Nat.mul_comm _ _)
    simp only [entryContent, List.length_append, hflat]
    simp [leHalf]
    omega
  | opened | block | freed | claimed | faulted | replace | retire | snapBegin | snapEnd => simp [entryContent, leWord, leHalf]

theorem entry_kind_ne (e : JEntry) : byteAt (padTo 30 (entryContent e)) 0 ≠ 0xFF := by
  rw [byteAt_padTo _ (by omega)]
  cases e with
  | sealed r x c last => rcases last with _ | ⟨k, b⟩ <;> simp [entryContent, byteAt]
  | opened | block | freed | claimed | faulted | replace | retire | extent | snapBegin | snapEnd => simp [entryContent, byteAt]

theorem encodeEntry_length (e : JEntry) : (encodeEntry e).length = 32 := by
  rw [encodeEntry, List.length_append, padTo_length]
  rfl

/-- An entry is parsed from its 32 bytes. -/
theorem parseEntry_encodeEntry {e : JEntry} (h : extentFits e) : parseEntry (encodeEntry e) = .entry e := by
  have hcontent := parseContent_entryContent h
  have hkind := entry_kind_ne e
  have hlen := padTo_length 30 (entryContent e)
  rw [encodeEntry]
  generalize padTo 30 (entryContent e) = c at *
  have hzero : byteAt (c ++ leHalf (crc16 c)) 0 = byteAt c 0 := by
    simp only [byteAt, List.getD_eq_getElem?_getD, List.getElem?_append_left (by omega : 0 < c.length)]
  have hwritten : (c ++ leHalf (crc16 c)).all (· == 0xFF) = false := by
    rw [← Bool.not_eq_true, List.all_eq_true]
    intro hall
    refine hkind ?_
    rw [← hzero, byteAt, List.getD_eq_getElem _ _ (by simp [hlen])]
    simpa using hall _ (List.getElem_mem (by simp [hlen]))
  have htake : (c ++ leHalf (crc16 c)).take 30 = c := by rw [← hlen, List.take_left]
  have hcrc : halfAt (c ++ leHalf (crc16 c)) 30 = crc16 c := by
    rw [← hlen]
    simp [halfAt, byteAt, leHalf, half_of_bytes]
  rw [parseEntry, hwritten, htake, hcrc, if_pos rfl, hcontent]
  rfl

/-! ### Journal pages (R168, R170) -/

/-- A run of pieces of one length, cut again. -/
theorem chunk_of_flatMap {α : Type} {n : Nat} (f : α → List Byte) (hf : ∀ a, (f a).length = n) (tail : List Byte) (as : List α) :
    ∀ i (hi : i < as.length), ((as.flatMap f ++ tail).drop (n * i)).take n = f as[i] := by
  induction as with
  | nil => exact fun i hi => absurd hi (Nat.not_lt_zero _)
  | cons a as ih =>
    intro i hi
    rw [List.flatMap_cons, List.append_assoc]
    cases i with
    | zero =>
      rw [Nat.mul_zero, List.drop_zero, ← hf a, List.take_left]
      rfl
    | succ i =>
      have hrest := ih i (by simpa using hi)
      rw [Nat.mul_succ, Nat.add_comm, ← List.drop_drop, List.drop_left' (hf a), hrest]
      rfl

theorem journalPage_eq {es : List JEntry} (h : es.length ≤ 128) :
    journalPage es = es.flatMap encodeEntry ++ List.replicate (4096 - 32 * es.length) 0xFF := by
  have hlen : (es.flatMap encodeEntry).length = 32 * es.length := (length_flatMap_of_const encodeEntry_length es).trans (Nat.mul_comm _ _)
  rw [journalPage, padPage, padTo_of_le (by rw [hlen, Config.pageBytes]; omega), hlen, Config.pageBytes]

theorem pageEntries_journalPage {es : List JEntry} (h : es.length ≤ 128) (hfit : ∀ e, e ∈ es → extentFits e) :
    pageEntries (journalPage es) = es.map JRead.entry ++ List.replicate (128 - es.length) .erased := by
  refine List.ext_getElem (by simp [pageEntries]; omega) fun i h1 h2 => ?_
  have hi : i < 128 := by simpa [pageEntries] using h1
  simp only [pageEntries, List.getElem_map, List.getElem_range, journalPage_eq h]
  by_cases hin : i < es.length
  · rw [chunk_of_flatMap _ encodeEntry_length _ _ _ hin, parseEntry_encodeEntry (hfit _ (List.getElem_mem hin)), List.getElem_append_left (by simpa using hin), List.getElem_map]
  · have hlen : (es.flatMap encodeEntry).length = 32 * es.length := (length_flatMap_of_const encodeEntry_length es).trans (Nat.mul_comm _ _)
    rw [List.getElem_append_right (by simpa using Nat.not_lt.mp hin), List.getElem_replicate, List.drop_append, List.drop_of_length_le (by omega), List.nil_append,
      List.drop_replicate, List.take_replicate, Nat.min_eq_left (by omega)]
    decide

/-! ### Rights images (R179) -/

theorem rightsImage_readsBack (a b : Rights) (rest : List Byte) :
    let page := rightsImage ⟨a, b⟩ ++ rest
    byteAt page 0 = 1 ∧ crc32 (page.take 13) = wordAt page 13 ∧ rightsAt page 1 = a ∧ rightsAt page 7 = b := by
  refine ⟨rfl, (word_of_bytes _).symm, ?_, ?_⟩
  · exact congrArg (fun m => ({ mask := m, caps := a.caps, defer := a.defer } : Rights)) (word_of_bytes a.mask)
  · exact congrArg (fun m => ({ mask := m, caps := b.caps, defer := b.defer } : Rights)) (word_of_bytes b.mask)

/-- Settles O44: entries by their content, pages by cutting them again, images by their fields. -/
theorem flashImagesReadBack : Obligations.FlashImagesReadBack := by
  refine ⟨fun e h => ⟨encodeEntry_length e, parseEntry_encodeEntry h⟩, fun es hlen hfit => ⟨padTo_length _ _, pageEntries_journalPage hlen hfit⟩, fun a b ha hb ha' hb' => ?_⟩
  intro page
  obtain ⟨rest, hpage⟩ : ∃ rest, page = rightsImage ⟨a, b⟩ ++ rest := ⟨_, padTo_of_le (by simp [rightsImage, rightsBytes, leWord, Config.pageBytes])⟩
  obtain ⟨hversion, hcrc, hA, hB⟩ := rightsImage_readsBack a b rest
  refine ⟨padTo_length _ _, ?_, ?_, ?_⟩
  · rw [hpage, imageValid_iff, hA, hB]
    exact ⟨hversion, hcrc, ⟨ha, ha'⟩, hb, hb'⟩
  · rw [hpage, hA]
  · rw [hpage, hB]

end Sys2Proof.Machine
end

section
/-! PROOFS. Reservations cut until their total fits the pool (R162). -/

namespace Sys2Proof.Machine

/-! ### Sums over the download records -/

theorem toList_records (s : Part) : s.spool.records.toList = (List.range 32).map fun i => record s i := by
  refine List.ext_getElem (by simp) fun i h1 h2 => ?_
  have hi : i < 32 := by simpa using h2
  simp [record, tableGet, List.getD, hi]

/-- A sum over the download records. -/
def recordSum (f : Record → Nat) (s : Part) : Nat := (s.spool.records.toList.map f).sum

theorem recordSum_eq (f : Record → Nat) (s : Part) : recordSum f s = ((List.range 32).map fun i => f (record s i)).sum := by
  rw [recordSum, toList_records, List.map_map]
  rfl

theorem recordSum_setRecord (f : Record → Nat) (s : Part) {r : Nat} (hr : r < 32) (v : Record) :
    recordSum f (setRecord r v s) + f (record s r) = recordSum f s + f v := by
  have hrec : record s r = s.spool.records.toList[r]'(by simpa using hr) := by simp [record, tableGet, List.getD, hr]
  have hset := sum_set_add (s.spool.records.toList.map f) r (by simpa using hr) (f v)
  rw [List.getElem_map, ← hrec, ← List.map_set] at hset
  rw [recordSum, recordSum, setRecord_spool, tableSet_toList]
  exact hset

theorem le_recordSum (f : Record → Nat) (s : Part) {r : Nat} (hr : r < 32) : f (record s r) ≤ recordSum f s := by
  rw [recordSum_eq]
  exact List.le_sum_of_mem (List.mem_map.mpr ⟨r, List.mem_range.mpr hr, rfl⟩)

theorem recordSum_eq_zero {f : Record → Nat} {s : Part} : recordSum f s = 0 ↔ ∀ r, r < 32 → f (record s r) = 0 := by
  rw [recordSum_eq, List.sum_eq_zero_iff]
  simp

/-! ### The record that is cut next (R162) -/

/-- A fold that keeps, of the entries that count, the first with the highest key. -/
structure KeepsBest {α : Type} (ok : α → Bool) (key : α → Word) (g : Option α → α → Option α) : Prop where
  skip : ∀ b x, ok x = false → g b x = b
  first : ∀ x, ok x = true → g none x = some x
  next : ∀ y x, ok x = true → g (some y) x = if key y < key x then some x else some y

theorem KeepsBest.foldl {α : Type} {ok : α → Bool} {key : α → Word} {g : Option α → α → Option α} (hg : KeepsBest ok key g) (xs : List α) : ∀ best : Option α,
    (xs.foldl g best = none → best = none ∧ ∀ x, x ∈ xs → ok x = false)
      ∧ ∀ z, xs.foldl g best = some z → (best = some z ∨ z ∈ xs ∧ ok z = true) ∧ (∀ x, x ∈ xs → ok x = true → key x ≤ key z) ∧ ∀ y, best = some y → key y ≤ key z := by
  induction xs with
  | nil => exact fun best => ⟨fun h => ⟨h, fun x hx => nomatch hx⟩, fun z h => ⟨.inl h, fun x hx => (nomatch hx), fun y hy => by cases h.symm.trans hy; exact BitVec.le_refl _⟩⟩
  | cons x xs ih =>
    intro best
    obtain ⟨hnone, hsome⟩ := ih (g best x)
    rw [List.foldl_cons]
    cases hx : ok x with
    | false =>
      rw [hg.skip best x hx] at hnone hsome ⊢
      refine ⟨fun h => ⟨(hnone h).1, List.forall_mem_cons.mpr ⟨hx, (hnone h).2⟩⟩, fun z h => ?_⟩
      obtain ⟨hz, hle, hbest⟩ := hsome z h
      exact ⟨hz.imp_right fun hz => ⟨List.mem_cons_of_mem _ hz.1, hz.2⟩, List.forall_mem_cons.mpr ⟨fun ht => absurd (hx.symm.trans ht) Bool.false_ne_true, hle⟩, hbest⟩
    | true =>
      cases best with
      | none =>
        rw [hg.first x hx] at hnone hsome ⊢
        refine ⟨fun h => (nomatch (hnone h).1), fun z h => ?_⟩
        obtain ⟨hz, hle, hbest⟩ := hsome z h
        refine ⟨.inr (hz.elim (fun hz => ?_) fun hz => ⟨List.mem_cons_of_mem _ hz.1, hz.2⟩), List.forall_mem_cons.mpr ⟨fun _ => hbest x rfl, hle⟩, fun y hy => nomatch hy⟩
        cases hz
        exact ⟨List.mem_cons_self, hx⟩
      | some y =>
        rw [hg.next y x hx] at hnone hsome ⊢
        by_cases hlt : key y < key x
        · rw [if_pos hlt] at hnone hsome ⊢
          refine ⟨fun h => (nomatch (hnone h).1), fun z h => ?_⟩
          obtain ⟨hz, hle, hbest⟩ := hsome z h
          refine ⟨.inr (hz.elim (fun hz => ?_) fun hz => ⟨List.mem_cons_of_mem _ hz.1, hz.2⟩), List.forall_mem_cons.mpr ⟨fun _ => hbest x rfl, hle⟩, fun w hw => ?_⟩
          · cases hz
            exact ⟨List.mem_cons_self, hx⟩
          · cases hw
            exact BitVec.le_trans (BitVec.le_of_lt hlt) (hbest x rfl)
        · rw [if_neg hlt] at hnone hsome ⊢
          refine ⟨fun h => (nomatch (hnone h).1), fun z h => ?_⟩
          obtain ⟨hz, hle, hbest⟩ := hsome z h
          refine ⟨hz.imp_right fun hz => ⟨List.mem_cons_of_mem _ hz.1, hz.2⟩, List.forall_mem_cons.mpr ⟨fun _ => ?_, hle⟩, hbest⟩
          exact BitVec.le_trans (BitVec.not_lt.mp hlt) (hbest y rfl)

/-- What `highestOpen` takes of the best record so far and the next one. -/
def laterOpened (best : Option (Nat × Record)) (x : Nat × Record) : Option (Nat × Record) :=
  if cuttable x.2 then
    match best with
    | none => some x
    | some y => if y.2.seq < x.2.seq then some x else best
  else best

theorem highestOpen_eq (s : Part) : highestOpen s = ((records s).foldl laterOpened none).map Prod.fst := rfl

theorem keepsBest_laterOpened : KeepsBest (fun x : Nat × Record => cuttable x.2) (fun x => x.2.seq) laterOpened where
  skip := fun b x h => if_neg (by simp [h])
  first := fun x h => if_pos h
  next := fun y x h => if_pos h

theorem highestOpen_eq_none {s : Part} (h : highestOpen s = none) : ∀ r, r < 32 → cuttable (record s r) = false := by
  intro r hr
  rw [highestOpen_eq, Option.map_eq_none_iff] at h
  have hbest := (keepsBest_laterOpened.foldl (records s) none).1 h
  exact hbest.2 (r, record s r) (by rw [records_eq]; exact List.mem_map.mpr ⟨r, List.mem_range.mpr hr, rfl⟩)

theorem highestOpen_eq_some {s : Part} {r : Nat} (h : highestOpen s = some r) :
    r < 32 ∧ cuttable (record s r) = true ∧ ∀ j, j < 32 → cuttable (record s j) = true → (record s j).seq ≤ (record s r).seq := by
  rw [highestOpen_eq] at h
  obtain ⟨z, hfold, rfl⟩ := Option.map_eq_some_iff.mp h
  obtain ⟨hz, hle, -⟩ := (keepsBest_laterOpened.foldl (records s) none).2 z hfold
  obtain ⟨hmem, hcut⟩ := hz.resolve_left fun h => nomatch h
  rw [records_eq] at hmem hle
  obtain ⟨i, hi, rfl⟩ := List.mem_map.mp hmem
  exact ⟨List.mem_range.mp hi, hcut, fun j hj hc => hle (j, record s j) (List.mem_map.mpr ⟨j, List.mem_range.mpr hj, rfl⟩) hc⟩

/-! ### The cut (R162) -/

/-- Whether a record's reservation is still its own: it is OPEN, STALLED or SEALING. -/
def drawing (v : Record) : Prop := v.state = .opened ∨ v.state = .stalled ∨ v.state = .sealing

theorem cuttable_iff {v : Record} : cuttable v = true ↔ 0 < v.reservation ∧ drawing v := by
  simp only [cuttable, drawing, Bool.and_eq_true, Bool.or_eq_true, decide_eq_true_eq, or_assoc]

/-- What cutting has left, whatever is still to be cut. -/
structure CutFrom (s t : Part) : Prop where
  frame : t = { s with spool := { s.spool with records := t.spool.records } }
  each : ∀ r, r < 32 → ∃ n, n ≤ (record s r).reservation ∧ record t r = { record s r with reservation := n }
  order : ∀ r, r < 32 → (record t r).reservation ≠ (record s r).reservation →
    drawing (record s r) ∧ ∀ i, i < 32 → (record s r).seq < (record s i).seq → drawing (record s i) → (record t i).reservation = 0
  short : t = s ∨ poolBlocks s ≤ totalReservation t

theorem CutFrom.refl (s : Part) : CutFrom s s where
  frame := rfl
  each := fun _ _ => ⟨_, Nat.le_refl _, rfl⟩
  order := fun _ _ h => absurd rfl h
  short := .inl rfl

theorem totalReservation_cut {t : Part} {r : Nat} (hr : r < 32) {n : Nat} :
    totalReservation (setRecord r { record t r with reservation := n } t) + (record t r).reservation = totalReservation t + n :=
  recordSum_setRecord Record.reservation t hr _

/-- One reservation cut. -/
theorem CutFrom.step {s t : Part} (h : CutFrom s t) (hover : poolBlocks t < totalReservation t) {r : Nat} (hr : highestOpen t = some r) :
    CutFrom s (modifyRecord r (fun v => { v with reservation := v.reservation - (totalReservation t - poolBlocks t) }) t) := by
  obtain ⟨hr32, hcut, hhigh⟩ := highestOpen_eq_some hr
  obtain ⟨hpos, hdraw⟩ := cuttable_iff.mp hcut
  have hpool : poolBlocks t = poolBlocks s := by rw [h.frame]; rfl
  obtain ⟨k, hk⟩ : ∃ k, k = (record t r).reservation - (totalReservation t - poolBlocks t) := ⟨_, rfl⟩
  obtain ⟨u, hu⟩ : ∃ u, u = setRecord r { record t r with reservation := k } t := ⟨_, rfl⟩
  have hsame : record u r = { record t r with reservation := k } := by rw [hu]; exact record_setRecord_same t r _ hr32
  have hother (j : Nat) (hj : j ≠ r) : record u j = record t j := by rw [hu]; exact record_setRecord_other t r j _ hj.symm
  have hstep : modifyRecord r (fun v => { v with reservation := v.reservation - (totalReservation t - poolBlocks t) }) t = u := by
    rw [hu, hk]
    rfl
  obtain ⟨n, hn, hrec⟩ := h.each r hr32
  have hfields (j : Nat) (hj : j < 32) : (drawing (record s j) ↔ drawing (record t j)) ∧ (record s j).seq = (record t j).seq := by
    obtain ⟨m, -, hm⟩ := h.each j hj
    rw [hm]
    exact ⟨Iff.rfl, rfl⟩
  rw [hstep]
  refine ⟨?_, fun j hj => ?_, fun j hj hne => ?_, .inr ?_⟩
  · rw [hu, setRecord, h.frame]
  · by_cases hjr : j = r
    · subst hjr
      have hres : (record t j).reservation = n := by rw [hrec]
      exact ⟨k, by omega, by rw [hsame, hrec]⟩
    · rw [hother j hjr]
      exact h.each j hj
  · by_cases hjr : j = r
    · subst hjr
      refine ⟨(hfields j hj).1.mpr hdraw, fun i hi hlt hd => ?_⟩
      have hij : i ≠ j := by
        rintro rfl
        exact BitVec.lt_irrefl _ hlt
      rw [hother i hij]
      by_contra hne0
      have hle := hhigh i hi (cuttable_iff.mpr ⟨Nat.pos_of_ne_zero hne0, (hfields i hi).1.mp hd⟩)
      rw [(hfields i hi).2, (hfields j hj).2] at hlt
      exact BitVec.not_le.mpr hlt hle
    · rw [hother j hjr] at hne
      obtain ⟨hd, hzero⟩ := h.order j hj hne
      refine ⟨hd, fun i hi hlt hdi => ?_⟩
      have hi0 := hzero i hi hlt hdi
      by_cases hir : i = r
      · subst hir
        omega
      · rw [hother i hir]
        exact hi0
  · have htotal := totalReservation_cut (t := t) hr32 (n := k)
    rw [← hu] at htotal
    have hle : (record t r).reservation ≤ totalReservation t := le_recordSum _ t hr32
    omega

/-- The records whose reservations can be cut. -/
def cuttableCount (s : Part) : Nat := recordSum (fun v => (cuttable v).toNat) s

theorem cutReservationsBy_spec {s : Part} (n : Nat) : ∀ t, CutFrom s t → cuttableCount t ≤ n →
    CutFrom s (cutReservationsBy n t) ∧ (totalReservation (cutReservationsBy n t) ≤ poolBlocks s ∨ ∀ r, r < 32 → cuttable (record (cutReservationsBy n t) r) = false) := by
  induction n with
  | zero =>
    intro t h hn
    refine ⟨h, .inr fun r hr => ?_⟩
    have hzero : (cuttable (record t r)).toNat = 0 := recordSum_eq_zero.mp (Nat.le_zero.mp hn) r hr
    exact Bool.toNat_eq_zero.mp hzero
  | succ n ih =>
    intro t h hn
    have hpool : poolBlocks t = poolBlocks s := by rw [h.frame]; rfl
    unfold cutReservationsBy
    split
    · next hle => exact ⟨h, .inl (hpool ▸ hle)⟩
    · next hover =>
      split
      · next hnone => exact ⟨h, .inr (highestOpen_eq_none hnone)⟩
      · next r hr =>
        obtain ⟨hr32, hcut, -⟩ := highestOpen_eq_some hr
        have hover' : poolBlocks t < totalReservation t := Nat.lt_of_not_le hover
        have hnext := h.step hover' hr
        obtain ⟨k, hk⟩ : ∃ k, k = (record t r).reservation - (totalReservation t - poolBlocks t) := ⟨_, rfl⟩
        obtain ⟨v, hv⟩ : ∃ v, v = { record t r with reservation := k } := ⟨_, rfl⟩
        have hstep : modifyRecord r (fun v => { v with reservation := v.reservation - (totalReservation t - poolBlocks t) }) t = setRecord r v t := by
          rw [hv, hk]
          rfl
        rw [hstep] at hnext ⊢
        by_cases hzero : k = 0
        · refine ih _ hnext ?_
          have hcount : cuttableCount (setRecord r v t) + (cuttable (record t r)).toNat = cuttableCount t + (cuttable v).toNat := recordSum_setRecord _ t hr32 v
          have hdone : cuttable v = false := by simp [hv, cuttable, hzero]
          rw [hdone, hcut, Bool.toNat_false, Bool.toNat_true] at hcount
          omega
        · have htotal := totalReservation_cut (t := t) hr32 (n := k)
          rw [← hv] at htotal
          have hfits : totalReservation (setRecord r v t) ≤ poolBlocks (setRecord r v t) := by
            change _ ≤ poolBlocks t
            omega
          have hstop : cutReservationsBy n (setRecord r v t) = setRecord r v t := by
            cases n with
            | zero => rfl
            | succ n => exact if_pos hfits
          rw [hstop]
          exact ⟨hnext, .inl (hpool ▸ hfits)⟩

theorem cuttableCount_le (s : Part) : cuttableCount s ≤ 32 := by
  rw [cuttableCount, recordSum_eq]
  calc _ ≤ ((List.range 32).map fun _ => 1).sum := List.sum_le_sum fun i _ => Bool.toNat_le _
    _ = 32 := by simp

/-- R162: what cutting the reservations leaves. -/
theorem cutReservations_spec (s : Part) :
    CutFrom s (cutReservations s)
      ∧ (totalReservation (cutReservations s) ≤ poolBlocks s ∨ ∀ r, r < 32 → cuttable (record (cutReservations s) r) = false) :=
  cutReservationsBy_spec 32 s (CutFrom.refl s) (cuttableCount_le s)

theorem cutReservations_of_fits {s : Part} (h : totalReservation s ≤ poolBlocks s) : cutReservations s = s := if_pos h

end Sys2Proof.Machine
end

section
/-! PROOFS. The journal replay: the entries that are read, the snapshot that is chosen, and the effect of each entry (R154, R172, R173). -/

namespace Sys2Proof.Machine

/-! ### The entries of a journal block (R172) -/

theorem takeEntries_map (es : List JEntry) (rest : List JRead) :
    takeEntries (es.map JRead.entry ++ rest) = (es ++ (takeEntries rest).1, (takeEntries rest).2) := by
  induction es with
  | nil => rfl
  | cons e es ih => rw [List.map_cons, List.cons_append, takeEntries, ih, List.cons_append]

/-- A page whose first place holds an entry or a bad one. -/
theorem scanPages_of_written {places : Nat → List JRead} {page : Nat} {xs : List JRead} (h : places page = xs) (hne : xs ≠ []) (hw : ∀ more, xs ≠ .erased :: more) (n : Nat) :
    scanPages places (n + 1) page = if (takeEntries xs).2 then ((takeEntries xs).1, none)
      else ((takeEntries xs).1 ++ (scanPages places n (page + 1)).1, (scanPages places n (page + 1)).2) := by
  cases xs with
  | nil => exact absurd rfl hne
  | cons x more =>
    cases x with
    | erased => exact absurd rfl (hw more)
    | entry e => simp only [scanPages, h]
    | bad => simp only [scanPages, h]

theorem scanPages_of_erased {places : Nat → List JRead} {page : Nat} {more : List JRead} (h : places page = .erased :: more) (n : Nat) :
    scanPages places n page = ([], some page) := by
  cases n with
  | zero => rfl
  | succ n =>
    unfold scanPages
    rw [h]

/-- The pages that are read whole, and then the rest. -/
theorem scanPages_append {places : Nat → List JRead} (whole : List (List JEntry)) :
    ∀ page, (∀ (i : Nat) (h : i < whole.length), whole[i] ≠ []
        ∧ ∃ rest, places (page + i) = whole[i].map JRead.entry ++ rest ∧ (rest = [] ∨ ∃ more, rest = .erased :: more)) →
      ∀ n, scanPages places (whole.length + n) page
        = (whole.flatten ++ (scanPages places n (page + whole.length)).1, (scanPages places n (page + whole.length)).2) := by
  induction whole with
  | nil =>
    intro page _ n
    rw [List.length_nil, Nat.zero_add]
    rfl
  | cons es whole ih =>
    intro page h n
    obtain ⟨hne, rest, hplaces, hrest⟩ := h 0 (Nat.zero_lt_succ _)
    rw [List.getElem_cons_zero] at hne hplaces
    rw [Nat.add_zero] at hplaces
    have htake : takeEntries (es.map JRead.entry ++ rest) = (es, false) := by
      rw [takeEntries_map]
      rcases hrest with rfl | ⟨more, rfl⟩ <;> simp [takeEntries]
    have hwritten : ∀ more, es.map JRead.entry ++ rest ≠ .erased :: more := by
      obtain ⟨e, es', rfl⟩ := List.exists_cons_of_ne_nil hne
      intro more hmore
      cases (List.cons.inj hmore).1
    have hstep := scanPages_of_written hplaces (by simp [hne]) hwritten (whole.length + n)
    have hnext := ih (page + 1) (fun i hi => by
      have := h (i + 1) (Nat.succ_lt_succ hi)
      rw [List.getElem_cons_succ, show page + (i + 1) = page + 1 + i by omega] at this
      exact this) n
    rw [htake, if_neg Bool.false_ne_true, hnext] at hstep
    rw [List.length_cons, show whole.length + 1 + n = whole.length + n + 1 by omega, hstep, List.flatten_cons, List.append_assoc, show page + (whole.length + 1) = page + 1 + whole.length by omega]

/-! ### The snapshot that is valid (R172) -/

theorem snapshotEnd_eq_some {g : Word} {es : List JEntry} : ∀ {k m c : Nat}, snapshotEnd g es k = some (m, c) ↔
    ∃ body n rest, es = body ++ .snapEnd g n :: rest ∧ (∀ m, .snapEnd g m ∉ body) ∧ m = k + body.length + 1 ∧ c = n.toNat := by
  induction es with
  | nil => simp [snapshotEnd]
  | cons e es ih =>
    intro k m c
    by_cases he : ∃ n, e = .snapEnd g n
    · obtain ⟨n, rfl⟩ := he
      rw [snapshotEnd, if_pos rfl]
      constructor
      · intro h
        cases h
        exact ⟨[], n, es, rfl, by simp, by simp, rfl⟩
      · rintro ⟨body, n', rest, hes, hnot, rfl, rfl⟩
        cases body with
        | nil =>
          cases hes
          rfl
        | cons b body =>
          cases hes
          exact absurd List.mem_cons_self (hnot n)
    · have hskip : snapshotEnd g (e :: es) k = snapshotEnd g es (k + 1) := by
        cases e with
        | snapEnd g' n => exact if_neg fun hg => he ⟨n, by rw [hg]⟩
        | opened | block | sealed | freed | claimed | faulted | replace | retire | extent | snapBegin => rfl
      rw [hskip, ih]
      constructor
      · rintro ⟨body, n, rest, rfl, hnot, rfl, rfl⟩
        refine ⟨e :: body, n, rest, rfl, fun m hm => ?_, by simp; omega, rfl⟩
        rcases List.mem_cons.mp hm with rfl | hm
        · exact he ⟨m, rfl⟩
        · exact hnot m hm
      · rintro ⟨body, n, rest, hes, hnot, rfl, rfl⟩
        cases body with
        | nil =>
          cases hes
          exact absurd ⟨n, rfl⟩ he
        | cons b body =>
          cases hes
          exact ⟨body, n, rest, rfl, fun m hm => hnot m (List.mem_cons_of_mem _ hm), by simp; omega, rfl⟩

theorem validSnapshot_iff (es : List JEntry) (g : Word) : validSnapshot es = some g ↔
    ∃ body n rest, es = .snapBegin g :: body ++ .snapEnd g n :: rest ∧ (∀ m, .snapEnd g m ∉ body) ∧ body.length + 2 = n.toNat := by
  constructor
  · intro h
    unfold validSnapshot at h
    split at h
    · next g' es =>
      split at h
      · next read count hend =>
        split at h
        · next hcount =>
          cases h
          obtain ⟨body, n, rest, hes, hnot, hread, hc⟩ := snapshotEnd_eq_some.mp hend
          cases body with
          | nil => cases hes
          | cons b body =>
            cases hes
            exact ⟨body, n, rest, rfl, fun m hm => hnot m (List.mem_cons_of_mem _ hm), by simp at hread; omega⟩
        · cases h
      · cases h
    · cases h
  · rintro ⟨body, n, rest, rfl, hnot, hlen⟩
    have hend : snapshotEnd g (.snapBegin g :: body ++ .snapEnd g n :: rest) 0 = some (body.length + 2, n.toNat) :=
      snapshotEnd_eq_some.mpr ⟨.snapBegin g :: body, n, rest, rfl, fun m hm => (List.mem_cons.mp hm).elim (fun h => nomatch h) (hnot m), by simp, rfl⟩
    change (match snapshotEnd g (.snapBegin g :: body ++ .snapEnd g n :: rest) 0 with
      | some (read, count) => if read = count then some g else none
      | none => none) = _
    rw [hend]
    exact if_pos hlen

/-! ### The effect of an entry (R173) -/

theorem tableSet_tableSet {α : Type} {n : Nat} (t : Vector α n) (i : Nat) (v w : α) : tableSet (tableSet t i v) i w = tableSet t i w := by
  apply Vector.toList_inj.mp
  simp

section

variable {bad : List Nat} {r : Replay} {i : Byte}

theorem isPlaced_iff {b : Nat} : isPlaced bad r b = true ↔ b ∈ bad ∨ b ∈ r.retired ∨ ∃ j, j < 32 ∧ b ∈ (tableGet r.records j freeJRecord).extent := by
  simp only [isPlaced, Bool.or_eq_true, decide_eq_true_eq, List.any_eq_true, or_assoc]
  refine or_congr_right (or_congr_right ?_)
  constructor
  · rintro ⟨v, hv, hb⟩
    obtain ⟨j, hj, rfl⟩ := List.getElem_of_mem hv
    have hj32 : j < 32 := by simpa using hj
    exact ⟨j, hj32, by simpa [tableGet, List.getD, hj32] using hb⟩
  · rintro ⟨j, hj, hb⟩
    refine ⟨r.records.toList[j]'(by simpa using hj), List.getElem_mem _, ?_⟩
    simpa [tableGet, List.getD, hj] using hb

theorem jrecord_setJRecord (hi : i.toNat < 32) (v : JRecord) : jrecord (setJRecord i v r) i = v := tableGet_tableSet_same _ _ _ _ hi

theorem setJRecord_setJRecord (v w : JRecord) : setJRecord i w (setJRecord i v r) = setJRecord i w r := by
  simp only [setJRecord, tableSet_tableSet]

theorem setJRecord_jrecord (hi : i.toNat < 32) : setJRecord i (jrecord r i) r = r := by
  have htable := tableSet_get r.records hi (v := jrecord r i) ((tableGet_of_lt _ _ _ hi).trans (tableGet_of_lt _ _ freeJRecord hi).symm)
  rw [setJRecord, htable]

theorem takePosition_of_placed {k b : Nat} (h : isPlaced bad r b = true) : takePosition bad i r (k, b) = r := if_pos h

theorem takePosition_of_not {k b : Nat} (h : ¬ isPlaced bad r b = true) :
    takePosition bad i r (k, b) = setJRecord i { jrecord r i with extent := putExtent k b (jrecord r i).extent } r := if_neg h

/-- Only the extents of a record and the retired list say what is placed. -/
theorem isPlaced_setJRecord {v : JRecord} (hi : i.toNat < 32) (hv : v.extent = (jrecord r i).extent) (b : Nat) :
    isPlaced bad (setJRecord i v r) b = true ↔ isPlaced bad r b = true := by
  rw [isPlaced_iff, isPlaced_iff]
  refine or_congr_right (or_congr_right (exists_congr fun j => and_congr_right fun _ => ?_))
  have hext : (tableGet (setJRecord i v r).records j freeJRecord).extent = (tableGet r.records j freeJRecord).extent := by
    by_cases hj : i.toNat = j
    · subst hj
      exact (congrArg JRecord.extent (jrecord_setJRecord hi v)).trans hv
    · exact congrArg JRecord.extent (tableGet_tableSet_other r.records _ _ v freeJRecord hj)
  rw [hext]

theorem isPlaced_appended (hi : i.toNat < 32) {b c : Nat} {v : JRecord} (hv : v.extent = (jrecord r i).extent ++ [b]) (h : isPlaced bad (setJRecord i v r) c = true) :
    isPlaced bad r c = true ∨ c = b := by
  rw [isPlaced_iff] at h ⊢
  rcases h with h | h | ⟨j, hj, h⟩
  · exact .inl (.inl h)
  · exact .inl (.inr (.inl h))
  · by_cases hij : i.toNat = j
    · subst hij
      have hext : (tableGet (setJRecord i v r).records i.toNat freeJRecord).extent = (jrecord r i).extent ++ [b] := (congrArg JRecord.extent (jrecord_setJRecord hi v)).trans hv
      rw [hext, List.mem_append, List.mem_singleton] at h
      exact h.imp_left fun h => .inr (.inr ⟨i.toNat, hj, h⟩)
    · have hext := congrArg JRecord.extent (tableGet_tableSet_other r.records i.toNat j v freeJRecord hij)
      exact .inl (.inr (.inr ⟨j, hj, hext ▸ h⟩))

/-- The blocks of an EXTENT entry that continues an extent, none of them placed. -/
theorem takePositions_append (hi : i.toNat < 32) (f : Nat) (bs : List Half) : ∀ (n : Nat) (r : Replay), (jrecord r i).extent.length = f + n →
    (bs.map BitVec.toNat).Nodup → (∀ b, b ∈ bs → ¬ isPlaced bad r b.toNat = true) →
    ((bs.zipIdx n).map fun x => (f + x.2, x.1.toNat)).foldl (takePosition bad i) r
      = setJRecord i { jrecord r i with extent := (jrecord r i).extent ++ bs.map BitVec.toNat } r := by
  induction bs with
  | nil =>
    intro n r _ _ _
    have hsame : { jrecord r i with extent := (jrecord r i).extent ++ [] } = jrecord r i := by rw [List.append_nil]
    rw [List.map_nil, hsame, setJRecord_jrecord hi]
    rfl
  | cons b bs ih =>
    intro n r hlen hnodup hfree
    obtain ⟨hb, hnodup⟩ := List.nodup_cons.mp hnodup
    have hput : putExtent (f + n) b.toNat (jrecord r i).extent = (jrecord r i).extent ++ [b.toNat] := if_pos hlen.symm
    rw [List.zipIdx_cons, List.map_cons, List.foldl_cons, takePosition_of_not (hfree b List.mem_cons_self), hput]
    obtain ⟨v, hv⟩ : ∃ v, v = { jrecord r i with extent := (jrecord r i).extent ++ [b.toNat] } := ⟨_, rfl⟩
    have hext : v.extent = (jrecord r i).extent ++ [b.toNat] := by rw [hv]
    rw [← hv, ih (n + 1) (setJRecord i v r) ?_ hnodup ?_, jrecord_setJRecord hi, setJRecord_setJRecord, hv]
    · simp
    · rw [jrecord_setJRecord hi, hext, List.length_append, hlen]
      rfl
    · intro c hc hplaced
      rcases isPlaced_appended hi hext hplaced with h | h
      · exact hfree c (List.mem_cons_of_mem _ hc) h
      · exact hb (List.mem_map.mpr ⟨c, hc, h⟩)

/-- R173: an entry that names a FREE record, other than OPEN and the one that frees it, is passed over. -/
theorem applyEntry_of_free {e : JEntry} (hv : (jrecord r i).state = .free) (he : entryRecord e = some i) (ho : ∀ t w n q m c, e ≠ .opened i t w n q m c)
    (hf : ∀ z, e ≠ .freed z) : applyEntry bad r e = r := by
  cases e with
  | opened j t w d q n c =>
    cases he
    exact absurd rfl (ho t w d q n c)
  | freed z => exact absurd rfl (hf z)
  | retire | snapBegin | snapEnd => cases he
  | block | sealed | claimed | faulted | replace | extent =>
    cases he
    exact if_pos hv

theorem applyEntry_block (hi : i.toNat < 32) (hv : (jrecord r i).state ≠ .free) (k b : Half) (c : Word) {x : JRecord} (hx : x.blocks = (jrecord r i).blocks)
    (ht : takePosition bad i r (k.toNat, b.toNat) = setJRecord i x r) :
    applyEntry bad r (.block i k b c) = setJRecord i (if x.blocks < k.toNat + 1 then { x with blocks := k.toNat + 1, checkpoint := c } else x) r := by
  refine (if_neg hv).trans ?_
  rw [ht]
  dsimp only
  rw [jrecord_setJRecord hi]
  split
  · exact setJRecord_setJRecord _ _
  · rfl

/-- R173: a SEAL entry that names its last block. -/
theorem applyEntry_sealed (hi : i.toNat < 32) (hv : (jrecord r i).state ≠ .free) (x : Bool) (c : Word) (k b : Half) {done : JRecord}
    (hdone : done = { jrecord r i with state := if x = true then .corrupt else .sealed, corrupt := x, running := c }) :
    (isPlaced bad r b.toNat = true → applyEntry bad r (.sealed i x c (some (k, b))) = setJRecord i done r)
      ∧ (¬ isPlaced bad r b.toNat = true → applyEntry bad r (.sealed i x c (some (k, b)))
          = setJRecord i { done with extent := putExtent k.toNat b.toNat (jrecord r i).extent } r) := by
  have hstep : applyEntry bad r (.sealed i x c (some (k, b))) = takePosition bad i (setJRecord i done r) (k.toNat, b.toNat) := by
    rw [hdone]
    exact if_neg hv
  have hplaced := isPlaced_setJRecord (bad := bad) (r := r) hi (v := done) (by rw [hdone]) b.toNat
  rw [hstep]
  refine ⟨fun h => takePosition_of_placed (hplaced.mpr h), fun h => ?_⟩
  rw [takePosition_of_not (hplaced.not.mpr h), jrecord_setJRecord hi, setJRecord_setJRecord, hdone]

end

end Sys2Proof.Machine
end

section
/-! PROOFS. The spool that a journal replay rebuilds (R154, R172, R173). -/

namespace Sys2Proof.Machine

/-! ### The block that is chosen (R172) -/

theorem chooseJournal_six {six seven : List JEntry} {g : Word} (h6 : validSnapshot six = some g) (h7 : ∀ h, validSnapshot seven = some h → h < g ∨ h = g) :
    chooseJournal six seven = some (6, g) := by
  unfold chooseJournal
  rw [h6]
  cases hs : validSnapshot seven with
  | none => rfl
  | some h =>
    refine if_neg fun hlt => ?_
    rcases h7 h hs with hgt | rfl
    · exact BitVec.lt_asymm hlt hgt
    · exact BitVec.lt_irrefl _ hlt

theorem chooseJournal_seven {six seven : List JEntry} {g : Word} (h7 : validSnapshot seven = some g) (h6 : ∀ h, validSnapshot six = some h → h < g) :
    chooseJournal six seven = some (7, g) := by
  unfold chooseJournal
  rw [h7]
  cases hs : validSnapshot six with
  | none => rfl
  | some h => exact if_pos (h6 h hs)

/-! ### The open sequence counter (R154) and the highest generation (R172) -/

/-- The open sequence that an entry carries. -/
def openedSeq : JEntry → Option Word
  | .opened _ _ _ _ q _ _ => some q
  | _ => none

/-- The higher of the open sequence so far and the next one. -/
def higherSeq (best : Option Word) (q : Word) : Option Word :=
  match best with
  | none => some q
  | some b => some (if b < q then q else b)

theorem keepsBest_higherSeq : KeepsBest (fun _ => true) id higherSeq where
  skip := fun b x h => nomatch h
  first := fun x _ => rfl
  next := fun y x _ => apply_ite some (y < x) x y

theorem lastSequence_eq (es : List JEntry) : lastSequence es = (es.filterMap openedSeq).foldl higherSeq none := by
  rw [lastSequence]
  exact congrArg (List.foldl higherSeq none) (List.filterMap_congr fun e _ => by cases e <;> rfl)

theorem openedSeq_eq_some {e : JEntry} {q : Word} : openedSeq e = some q ↔ ∃ i a w n m c, e = .opened i a w n q m c := by
  cases e <;> simp [openedSeq]

theorem lastSequence_of_highest {es : List JEntry} {q : Word} (hq : ∃ e, e ∈ es ∧ openedSeq e = some q) (hle : ∀ e p, e ∈ es → openedSeq e = some p → p ≤ q) :
    lastSequence es = some q := by
  obtain ⟨e, he, hqe⟩ := hq
  have hmem : q ∈ es.filterMap openedSeq := List.mem_filterMap.mpr ⟨e, he, hqe⟩
  obtain ⟨hnone, hsome⟩ := keepsBest_higherSeq.foldl (es.filterMap openedSeq) none
  rw [lastSequence_eq]
  cases hr : (es.filterMap openedSeq).foldl higherSeq none with
  | none => exact absurd ((hnone hr).2 q hmem) (by simp)
  | some z =>
    obtain ⟨hz, hall, -⟩ := hsome z hr
    obtain ⟨e', he', hz'⟩ := List.mem_filterMap.mp (hz.resolve_left fun h => nomatch h).1
    rw [BitVec.le_antisymm (hle e' z he' hz') (hall q hmem rfl)]

theorem lastSequence_of_none {es : List JEntry} (h : ∀ e, e ∈ es → openedSeq e = none) : lastSequence es = none := by
  rw [lastSequence_eq, List.filterMap_eq_nil_iff.mpr h]
  rfl

/-- The generation that an entry carries, 0 for one that carries none. -/
def begunGeneration : JEntry → Word
  | .snapBegin g => g
  | _ => 0

theorem foldl_wordMax (ws : List Word) : ∀ a : Word, let r := ws.foldl (fun a b => if a < b then b else a) a
    (r = a ∨ r ∈ ws) ∧ a ≤ r ∧ ∀ w, w ∈ ws → w ≤ r := by
  induction ws with
  | nil => exact fun a => ⟨.inl rfl, BitVec.le_refl a, fun w hw => nomatch hw⟩
  | cons w ws ih =>
    intro a
    obtain ⟨hmem, hinit, hall⟩ := ih (if a < w then w else a)
    rw [List.foldl_cons]
    by_cases h : a < w
    · rw [if_pos h] at hmem hinit hall ⊢
      exact ⟨.inr (hmem.elim (fun h => List.mem_cons.mpr (.inl h)) (List.mem_cons_of_mem _)), BitVec.le_trans (BitVec.le_of_lt h) hinit, List.forall_mem_cons.mpr ⟨hinit, hall⟩⟩
    · rw [if_neg h] at hmem hinit hall ⊢
      exact ⟨hmem.imp_right (List.mem_cons_of_mem _), hinit, List.forall_mem_cons.mpr ⟨BitVec.le_trans (BitVec.not_lt.mp h) hinit, hall⟩⟩

theorem highestGeneration_eq (es : List JEntry) : highestGeneration es = (es.map begunGeneration).foldl (fun a b => if a < b then b else a) 0 := by
  rw [highestGeneration]
  exact congrArg (List.foldl (fun a b => if a < b then b else a) 0) (List.map_congr_left fun e _ => by cases e <;> rfl)

theorem begunGeneration_cases (e : JEntry) : begunGeneration e = 0 ∨ ∃ g, e = .snapBegin g ∧ begunGeneration e = g := by
  cases e with
  | snapBegin g => exact .inr ⟨g, rfl, rfl⟩
  | opened | block | sealed | freed | claimed | faulted | replace | retire | extent | snapEnd => exact .inl rfl

theorem highestGeneration_of_none {es : List JEntry} (h : ∀ g, .snapBegin g ∉ es) : highestGeneration es = 0 := by
  rw [highestGeneration_eq]
  refine (foldl_wordMax (es.map begunGeneration) 0).1.elim id fun hmem => ?_
  obtain ⟨e, he, hr⟩ := List.mem_map.mp hmem
  rw [← hr]
  refine (begunGeneration_cases e).resolve_right ?_
  rintro ⟨g, rfl, -⟩
  exact h g he

theorem highestGeneration_of_highest {es : List JEntry} {g : Word} (hg : .snapBegin g ∈ es) (hle : ∀ h, .snapBegin h ∈ es → h ≤ g) : highestGeneration es = g := by
  rw [highestGeneration_eq]
  obtain ⟨hmem, -, hall⟩ := foldl_wordMax (es.map begunGeneration) 0
  have hge := hall g (List.mem_map.mpr ⟨_, hg, rfl⟩)
  refine BitVec.le_antisymm ?_ hge
  have hzero : (0 : Word) ≤ g := Nat.zero_le g.toNat
  refine hmem.elim (fun h => h.symm ▸ hzero) fun hmem => ?_
  obtain ⟨e, he, hr⟩ := List.mem_map.mp hmem
  rw [← hr]
  rcases begunGeneration_cases e with h | ⟨k, rfl, hk⟩
  · rw [h]
    exact hzero
  · rw [hk]
    exact hle k he

/-! ### The effect of an entry, by its kind (R173) -/

theorem putExtent_of_held {k b o : Nat} {extent : List Nat} (h : extent[k]? = some o) : putExtent k b extent = extent.set k b := by
  obtain ⟨hk, -⟩ := List.getElem?_eq_some_iff.mp h
  exact if_neg (by omega)

theorem applyEntry_retire (bad : List Nat) (r : Replay) (b : Half) :
    (isPlaced bad r b.toNat = true → applyEntry bad r (.retire b false) = r)
      ∧ (¬ isPlaced bad r b.toNat = true → applyEntry bad r (.retire b false) = { r with retired := r.retired ++ [b.toNat] })
      ∧ applyEntry bad r (.retire b true) = { r with worn := true } :=
  ⟨fun h => if_pos h, fun h => if_neg h, rfl⟩

section

variable {bad : List Nat} {r : Replay} {i : Byte}

theorem applyEntry_replace (hv : (jrecord r i).state ≠ .free) (k o n : Half) :
    ((jrecord r i).extent[k.toNat]? ≠ some o.toNat → applyEntry bad r (.replace i k o n) = r)
      ∧ ((jrecord r i).extent[k.toNat]? = some o.toNat → ¬ isPlaced bad r n.toNat = true →
          applyEntry bad r (.replace i k o n) = setJRecord i { jrecord r i with extent := (jrecord r i).extent.set k.toNat n.toNat } r)
      ∧ ((jrecord r i).extent[k.toNat]? = some o.toNat → isPlaced bad r n.toNat = true → applyEntry bad r (.replace i k o n) = r) := by
  refine ⟨fun h => (if_neg hv).trans (if_neg h), fun h hn => ?_, fun h hn => (if_neg hv).trans ((if_pos h).trans (takePosition_of_placed hn))⟩
  refine (if_neg hv).trans ((if_pos h).trans ?_)
  rw [takePosition_of_not hn, putExtent_of_held h]

theorem applyEntry_extent (hi : i.toNat < 32) (hv : (jrecord r i).state ≠ .free) (f : Half) (bs : List Half) (hf : f.toNat = (jrecord r i).extent.length)
    (hnodup : (bs.map BitVec.toNat).Nodup) (hfree : ∀ b, b ∈ bs → ¬ isPlaced bad r b.toNat = true) :
    applyEntry bad r (.extent i f bs) = setJRecord i { jrecord r i with extent := (jrecord r i).extent ++ bs.map BitVec.toNat } r :=
  (if_neg hv).trans (takePositions_append hi f.toNat bs 0 r hf.symm hnodup hfree)

end

/-! ### The spool that is rebuilt (R154, R173) -/

/-- The blocks that a replay leaves pending for erase. -/
theorem replayPending_eq (bad : List Nat) (r : Replay) :
    replayPending bad (r.retired ++ r.records.toList.flatMap JRecord.extent)
      = (((List.range 1024).filter fun x => decide (8 ≤ x)).filter fun x =>
          decide (x ∉ bad) && decide (x ∉ r.retired) && r.records.toList.all fun v => decide (x ∉ v.extent)).map fun x => { block := x, hold := .free } := by
  rw [replayPending, unusedBlocks_eq]
  congr 2
  funext x
  have hused : decide (x ∉ r.retired ++ r.records.toList.flatMap JRecord.extent) = (decide (x ∉ r.retired) && r.records.toList.all fun v => decide (x ∉ v.extent)) := by
    rw [Bool.eq_iff_iff]
    simp only [List.mem_append, List.mem_flatMap, not_or, not_exists, not_and, Bool.and_eq_true, decide_eq_true_eq, List.all_eq_true]
  rw [hused, Bool.and_assoc]

/-- What a replay sets up before the reservations are cut. -/
def rebuiltPart (block : Nat) (g : Word) (es : List JEntry) (stop : Option Nat) (s : Part) : Part :=
  let r := replayEntries s.flash.factoryBad es
  { s with
    spool := { records := ⟨(r.records.toList.map restoredRecord).toArray, by simp⟩, ring := [], pointer := 8, arm := false, nextSeq := ((lastSequence es).map (· + 1)).getD 0 }
    flash := { s.flash with
      free := [], erasePending := replayPending s.flash.factoryBad (r.retired ++ r.records.toList.flatMap JRecord.extent), retired := r.retired, scrubList := [],
      spool := if r.worn then .worn else .ready
      journal := { s.flash.journal with
        active := some block, generation := g, nextPage := stop.getD (Config.unstatedNextPage s.fresh), batch := [],
        due := decide (stop = none) || decide (stop = some 64), compaction := none, journaled := r } } }

theorem rebuildSpool_eq (block : Nat) (g : Word) (es : List JEntry) (stop : Option Nat) (s : Part) :
    rebuildSpool block g es stop s = cutReservations (rebuiltPart block g es stop s) := rfl

theorem record_rebuiltPart (block : Nat) (g : Word) (es : List JEntry) (stop : Option Nat) (s : Part) {i : Nat} (hi : i < 32) :
    record (rebuiltPart block g es stop s) i = restoredRecord (tableGet (replayEntries s.flash.factoryBad es).records i freeJRecord) := by
  simp [record, rebuiltPart, tableGet, List.getD, hi, Vector.toList]

/-- The reservation that a record's journaled state wants (R138, R154). -/
def wantedReservation (v : JRecord) : Nat :=
  match v.state with
  | .opened => (v.declared + 262143) / 262144 - v.extent.length
  | .stalled => (v.declared + 262143) / 262144 - v.extent.length
  | .sealing => (v.declared + 262143) / 262144 - v.extent.length
  | _ => 0

theorem restoredRecord_reservation (v : JRecord) : (restoredRecord v).reservation = wantedReservation v := by
  unfold restoredRecord wantedReservation
  cases v.state <;> rfl

theorem restoredRecord_drawing (v : JRecord) (h : wantedReservation v ≠ 0) : drawing (restoredRecord v) := by
  unfold wantedReservation at h
  unfold drawing restoredRecord
  cases hs : v.state <;> simp_all

theorem wantedReservation_sum (block : Nat) (g : Word) (es : List JEntry) (stop : Option Nat) (s : Part) :
    totalReservation (rebuiltPart block g es stop s)
      = ((List.range 32).map fun i => wantedReservation (tableGet (replayEntries s.flash.factoryBad es).records i freeJRecord)).sum := by
  refine (recordSum_eq Record.reservation _).trans (congrArg List.sum (List.map_congr_left fun i hi => ?_))
  rw [record_rebuiltPart block g es stop s (List.mem_range.mp hi), restoredRecord_reservation]

/-- R162: the reservations after a replay. -/
theorem rebuilt_reservations (block : Nat) (g : Word) (es : List JEntry) (stop : Option Nat) (s : Part) {wanted : Nat → Nat}
    (hw : ∀ i, i < 32 → wanted i = wantedReservation (tableGet (replayEntries s.flash.factoryBad es).records i freeJRecord)) :
    let t := rebuildSpool block g es stop s
    let all := ((List.range 32).map wanted).sum
    let pool := t.flash.erasePending.length
    (all ≤ pool → ∀ i, i < 32 → (record t i).reservation = wanted i)
      ∧ ((List.range 32).map fun i => (record t i).reservation).sum = min all pool
      ∧ ∀ i j, i < 32 → j < 32 → (record t i).reservation ≠ wanted i → (record t i).seq < (record t j).seq → (record t j).reservation = 0 := by
  intro t all pool
  obtain ⟨q, hq⟩ : ∃ q, q = rebuiltPart block g es stop s := ⟨_, rfl⟩
  have ht : t = cutReservations q := by
    rw [hq]
    rfl
  obtain ⟨hcut, hdone⟩ := cutReservations_spec q
  rw [← ht] at hcut hdone
  have hwanted (i : Nat) (hi : i < 32) : (record q i).reservation = wanted i := by
    rw [hq, record_rebuiltPart block g es stop s hi, restoredRecord_reservation, hw i hi]
  have hall : totalReservation q = all := by
    refine (recordSum_eq Record.reservation q).trans (congrArg List.sum (List.map_congr_left fun i hi => hwanted i (List.mem_range.mp hi)))
  have hpool : poolBlocks q = pool := by
    have hfree : poolBlocks q = 0 + q.flash.erasePending.length := by
      rw [hq]
      rfl
    have hpending : q.flash.erasePending.length = pool := by
      change _ = t.flash.erasePending.length
      rw [hcut.frame]
    omega
  have hdraws (i : Nat) (hi : i < 32) (h : (record q i).reservation ≠ 0) : drawing (record q i) := by
    rw [hq, record_rebuiltPart block g es stop s hi] at h ⊢
    exact restoredRecord_drawing _ (restoredRecord_reservation _ ▸ h)
  have hzero (i : Nat) (hi : i < 32) (h : cuttable (record t i) = false) : (record t i).reservation = 0 := by
    obtain ⟨n, hn, hrec⟩ := hcut.each i hi
    by_contra hne
    have hres : (record t i).reservation = n := by rw [hrec]
    have hd := hdraws i hi (by omega)
    have hc : cuttable (record t i) = true := by
      rw [hrec]
      exact cuttable_iff.mpr ⟨by change 0 < n; omega, hd⟩
    rw [hc] at h
    cases h
  have htotal : ((List.range 32).map fun i => (record t i).reservation).sum = totalReservation t := (recordSum_eq Record.reservation t).symm
  refine ⟨fun hle i hi => ?_, ?_, fun i j hi hj hne hlt => ?_⟩
  · rw [ht, cutReservations_of_fits (by omega)]
    exact hwanted i hi
  · rw [htotal]
    by_cases hle : all ≤ pool
    · rw [ht, cutReservations_of_fits (by omega), hall, Nat.min_eq_left hle]
    · have hlow : pool ≤ totalReservation t := by
        rcases hcut.short with h | h
        · rw [h]
          omega
        · omega
      have hhigh : totalReservation t ≤ pool := by
        rcases hdone with h | h
        · omega
        · have hnone : totalReservation t = 0 := recordSum_eq_zero.mpr fun r hr => hzero r hr (h r hr)
          omega
      omega
  · have hi' : (record t i).reservation ≠ (record q i).reservation := by rw [hwanted i hi]; exact hne
    have hseq (k : Nat) (hk : k < 32) : (record t k).seq = (record q k).seq := by
      obtain ⟨n, -, hrec⟩ := hcut.each k hk
      rw [hrec]
    by_cases hj0 : (record q j).reservation = 0
    · obtain ⟨n, hn, hrec⟩ := hcut.each j hj
      rw [hrec]
      change n = 0
      omega
    · rw [hseq i hi, hseq j hj] at hlt
      exact (hcut.order i hi hi').2 j hj hlt (hdraws j hj hj0)

/-- R154: a record after a replay, its reservation as it is left. -/
theorem rebuilt_record (block : Nat) (g : Word) (es : List JEntry) (stop : Option Nat) (s : Part) {i : Nat} (hi : i < 32) {v : JRecord}
    (hv : v = tableGet (replayEntries s.flash.factoryBad es).records i freeJRecord) :
    ∃ m, m ≤ wantedReservation v ∧ record (rebuildSpool block g es stop s) i = { restoredRecord v with reservation := m } := by
  obtain ⟨m, hm, hrec⟩ := (cutReservations_spec (rebuiltPart block g es stop s)).1.each i hi
  rw [record_rebuiltPart block g es stop s hi, ← hv] at hm hrec
  rw [restoredRecord_reservation] at hm
  exact ⟨m, hm, hrec⟩

theorem replayJournal_of_six {ecc : List (Nat × List Sector)} {s : Part} {g : Word}
    (h : chooseJournal (scanBlock s.flash.nand s.fresh ecc 6).1 (scanBlock s.flash.nand s.fresh ecc 7).1 = some (6, g)) :
    replayJournal ecc s = rebuildSpool 6 g (scanBlock s.flash.nand s.fresh ecc 6).1 (scanBlock s.flash.nand s.fresh ecc 6).2 s := by
  rw [replayJournal, h] <;> rfl

theorem replayJournal_of_seven {ecc : List (Nat × List Sector)} {s : Part} {g : Word}
    (h : chooseJournal (scanBlock s.flash.nand s.fresh ecc 6).1 (scanBlock s.flash.nand s.fresh ecc 7).1 = some (7, g)) :
    replayJournal ecc s = rebuildSpool 7 g (scanBlock s.flash.nand s.fresh ecc 7).1 (scanBlock s.flash.nand s.fresh ecc 7).2 s := by
  rw [replayJournal, h] <;> rfl

theorem replayPending_nil (bad : List Nat) :
    replayPending bad [] = (((List.range 1024).filter fun x => decide (8 ≤ x)).filter fun x => decide (x ∉ bad)).map fun x => { block := x, hold := .free } := by
  rw [replayPending, unusedBlocks_eq]
  simp only [List.not_mem_nil, not_false_eq_true, decide_true, Bool.and_true]

/-- Settles O32: the entries read, the snapshot chosen, each entry's effect, and the spool rebuilt from them. -/
theorem journalReplay : Obligations.JournalReplay := by
  refine ⟨fun places whole k hk hlen hwhole => ?_, validSnapshot_iff, fun bad r i hi => ?_, fun ecc s => ?_⟩
  · subst hlen
    have hscan := scanPages_append (places := places) whole 0 (fun i hi => by rw [Nat.zero_add]; exact hwhole i hi) (64 - whole.length)
    rw [show whole.length + (64 - whole.length) = 64 by omega, Nat.zero_add] at hscan
    refine ⟨fun hlt herased => ?_, fun heq => ?_, fun hlt es more hbad => ?_⟩
    · obtain ⟨more, hmore⟩ := herased
      rw [hscan, scanPages_of_erased hmore, List.append_nil]
    · rw [hscan, heq, Nat.sub_self]
      simp [scanPages]
    · obtain ⟨n, hn⟩ : ∃ n, 64 - whole.length = n + 1 := ⟨64 - whole.length - 1, by omega⟩
      have htake : takeEntries (es.map JRead.entry ++ .bad :: more) = (es, true) := by
        rw [takeEntries_map]
        simp [takeEntries]
      have hwritten : ∀ more', es.map JRead.entry ++ .bad :: more ≠ .erased :: more' := by
        intro more' h
        cases es <;> cases (List.cons.inj h).1
      rw [hscan, hn, scanPages_of_written hbad (by simp) hwritten, htake]
      rfl
  · intro v set placed put
    have hplaced (b : Nat) : isPlaced bad r b = true ↔ placed b := isPlaced_iff
    refine ⟨fun t w n q m c => rfl, fun hv e he ho hf => applyEntry_of_free hv he ho hf, rfl, fun hv => ⟨if_neg hv, if_neg hv, fun k b c => ?_, fun x c => ?_, fun k o n => ?_, fun f bs hf hnodup hfree => ?_⟩,
      fun b => ?_, fun g n => ⟨rfl, rfl⟩⟩
    · intro up
      refine ⟨fun h => applyEntry_block hi hv k b c rfl ?_, fun h => applyEntry_block hi hv k b c rfl ?_⟩
      · rw [takePosition_of_placed ((hplaced _).mpr h)]
        exact (setJRecord_jrecord hi).symm
      · exact takePosition_of_not ((hplaced _).not.mpr h)
    · intro done
      refine ⟨if_neg hv, fun k b => ?_⟩
      obtain ⟨h1, h2⟩ := applyEntry_sealed (bad := bad) hi hv x c k b (done := done) rfl
      exact ⟨fun h => h1 ((hplaced _).mpr h), fun h => h2 ((hplaced _).not.mpr h)⟩
    · obtain ⟨h1, h2, h3⟩ := applyEntry_replace (bad := bad) hv k o n
      exact ⟨h1, fun h hn => h2 h ((hplaced _).not.mpr hn), fun h hn => h3 h ((hplaced _).mpr hn)⟩
    · exact applyEntry_extent hi hv f bs hf hnodup fun b hb => (hplaced _).not.mpr (hfree b hb)
    · obtain ⟨h1, h2, h3⟩ := applyEntry_retire bad r b
      exact ⟨fun h => h1 ((hplaced _).mpr h), fun h => h2 ((hplaced _).not.mpr h), h3⟩
  · intro f read valid t chosen
    refine ⟨fun b g hchosen => ?_, fun h6 h7 => ?_⟩
    · intro es stop r unused
      have ht : t = rebuildSpool b g es stop s := by
        obtain ⟨hb, hvalid, hother⟩ := hchosen
        change replayJournal ecc s = _
        rcases hb with rfl | rfl
        · exact replayJournal_of_six (chooseJournal_six hvalid fun h hh => (hother h hh).imp_right And.left)
        · exact replayJournal_of_seven (chooseJournal_seven hvalid fun h hh => (hother h hh).resolve_right fun h => absurd h.2 (by decide))
      have hr : replayEntries s.flash.factoryBad es = r := rfl
      obtain ⟨q, hq⟩ : ∃ q, q = rebuiltPart b g es stop s := ⟨_, rfl⟩
      have hframe : t = { q with spool := { q.spool with records := t.spool.records } } := by
        have hcut := (cutReservations_spec q).1.frame
        rw [hq, ← rebuildSpool_eq, ← ht, ← hq] at hcut
        exact hcut
      have hflash : t.flash = q.flash := by rw [hframe]
      have hspool : t.spool = { q.spool with records := t.spool.records } := congrArg Part.spool hframe
      have hseq : t.spool.nextSeq = ((lastSequence es).map (· + 1)).getD 0 := by
        rw [hspool, hq]
        rfl
      have hnext : t.flash.journal.nextPage = stop.getD (Config.unstatedNextPage s.fresh) := by
        rw [hflash, hq]
        rfl
      have hdue : t.flash.journal.due = (decide (stop = none) || decide (stop = some 64)) := by
        rw [hflash, hq]
        rfl
      refine ⟨?_, ?_, fun q' hex hle => ?_, fun hnone => ?_, ?_, fun k hk => ?_, ?_, ?_, fun i hi => ?_⟩
      · have hrest : q = { s with spool := q.spool, flash := q.flash } := by
          rw [hq]
          rfl
        rw [hframe, hrest]
      · rw [hspool, hq]
        rfl
      · obtain ⟨i, a, w, n, m, c, hmem⟩ := hex
        have hlast : lastSequence es = some q' := by
          refine lastSequence_of_highest ⟨_, hmem, rfl⟩ fun e p he hp => ?_
          obtain ⟨i', a', w', n', m', c', rfl⟩ := openedSeq_eq_some.mp hp
          exact hle i' a' w' n' p m' c' he
        rw [hseq, hlast]
        rfl
      · have hlast : lastSequence es = none := by
          refine lastSequence_of_none fun e he => ?_
          by_contra hne
          obtain ⟨q', hq'⟩ := Option.ne_none_iff_exists'.mp hne
          obtain ⟨i', a', w', n', m', c', rfl⟩ := openedSeq_eq_some.mp hq'
          exact hnone i' a' w' n' q' m' c' he
        rw [hseq, hlast]
        rfl
      · have hpending : replayPending f.factoryBad (r.retired ++ r.records.toList.flatMap JRecord.extent) = unused.map fun x => { block := x, hold := .free } :=
          replayPending_eq f.factoryBad r
        rw [hflash, hq, ← hpending]
        rfl
      · rw [hnext, hk]
        rfl
      · rw [hdue]
        simp only [Bool.or_eq_true, decide_eq_true_eq]
      · intro wanted all pool
        have hw (i : Nat) (hi : i < 32) : wanted i = wantedReservation (tableGet (replayEntries s.flash.factoryBad es).records i freeJRecord) := rfl
        obtain ⟨h1, h2, h3⟩ := rebuilt_reservations b g es stop s hw
        rw [← ht] at h1 h2 h3
        exact ⟨h1, h2, h3⟩
      · intro v n wanted kept
        obtain ⟨m, hm, hrec⟩ := rebuilt_record b g es stop s hi (v := v) rfl
        rw [← ht] at hrec
        clear_value v
        cases hst : v.state with
        | free | fault | sealed | corrupt | claimed =>
          have hm0 : m = 0 := by simpa [wantedReservation, hst] using hm
          simp only [restoredRecord, hst, hm0] at hrec
          exact hrec
        | opened | stalled | sealing =>
          simp only [restoredRecord, hst] at hrec
          simp only [wantedReservation, hst] at hm
          exact ⟨m, hm, hrec⟩
    · have ht : t = faultSpool (highestGeneration ((read 6).1 ++ (read 7).1)) s := by
        change replayJournal ecc s = _
        have hnone : chooseJournal (read 6).1 (read 7).1 = none := by
          have h6' : validSnapshot (read 6).1 = none := h6
          have h7' : validSnapshot (read 7).1 = none := h7
          rw [chooseJournal, h6', h7']
        rw [replayJournal, hnone]
      have hgen : t.flash.journal.generation = highestGeneration ((read 6).1 ++ (read 7).1) := by
        rw [ht]
        rfl
      refine ⟨?_, fun h => ?_, fun g hg hle => ?_⟩
      · rw [← replayPending_nil, ht]
        rfl
      · rw [hgen]
        exact highestGeneration_of_none h
      · rw [hgen]
        exact highestGeneration_of_highest hg hle

end Sys2Proof.Machine
end

section
/-! PROOFS. The end of a flash operation (R123, R157, R158, R164): what it leaves in the array, and how far the job that
it was begun for reaches. While a job is seen to, the engine stays idle (`SameDevice`). -/

namespace Sys2Proof.Machine

/-- The factory-bad set is the same, and the engine is as idle or as busy as it was. -/
def SameDevice (s t : Part) : Prop :=
  t.flash.factoryBad = s.flash.factoryBad ∧ t.flash.running.isNone = s.flash.running.isNone

theorem SameDevice.refl (s : Part) : SameDevice s s := ⟨rfl, rfl⟩

theorem SameDevice.trans {s t u : Part} (h : SameDevice s t) (h' : SameDevice t u) : SameDevice s u :=
  ⟨h'.1.trans h.1, h'.2.trans h.2⟩

theorem sameDevice_congr {s t u : Part} (h : SameDevice t u) : SameDevice s u ↔ SameDevice s t := by
  obtain ⟨hbad, hrun⟩ := h
  rw [SameDevice, SameDevice, hbad, hrun]

@[simp] theorem sameDevice_ite (s a b : Part) (c : Prop) [Decidable c] :
    SameDevice s (if c then a else b) ↔ if c then SameDevice s a else SameDevice s b := by
  split <;> rfl

/-! ### The single changes -/

@[simp] theorem sameDevice_modifyFlash (s t : Part) (f : Flash → Flash) (hb : ∀ x, (f x).factoryBad = x.factoryBad)
    (hr : ∀ x, (f x).running.isNone = x.running.isNone) : SameDevice s (modifyFlash f t) ↔ SameDevice s t :=
  sameDevice_congr ⟨hb _, hr _⟩

@[simp] theorem pendBlocks_device (h : Hold) (bs : List Nat) (f : Flash) :
    (pendBlocks h bs f).factoryBad = f.factoryBad ∧ (pendBlocks h bs f).running = f.running := ⟨rfl, rfl⟩
@[simp] theorem unpend_device (b : Nat) (f : Flash) : (unpend b f).factoryBad = f.factoryBad ∧ (unpend b f).running = f.running := ⟨rfl, rfl⟩
@[simp] theorem joinFree_device (b : Nat) (f : Flash) :
    (joinFree b f).factoryBad = f.factoryBad ∧ (joinFree b f).running = f.running := ⟨rfl, rfl⟩
@[simp] theorem endHolds_device (h : Hold) (f : Flash) : (endHolds h f).factoryBad = f.factoryBad ∧ (endHolds h f).running = f.running := ⟨rfl, rfl⟩
@[simp] theorem wearOut_device (f : Flash) : (wearOut f).factoryBad = f.factoryBad ∧ (wearOut f).running = f.running := ⟨rfl, rfl⟩

@[simp] theorem sameDevice_modifyJournal (s t : Part) (f : Journal → Journal) :
    SameDevice s (modifyJournal f t) ↔ SameDevice s t := sameDevice_congr ⟨rfl, rfl⟩

@[simp] theorem sameDevice_modifySpool (s t : Part) (f : Spool → Spool) :
    SameDevice s (modifySpool f t) ↔ SameDevice s t := sameDevice_congr ⟨rfl, rfl⟩

@[simp] theorem sameDevice_modifyPort (s t : Part) (p : Port) (f : PortUnit → PortUnit) :
    SameDevice s (modifyPort p f t) ↔ SameDevice s t := sameDevice_congr ⟨rfl, rfl⟩

@[simp] theorem sameDevice_setRecord (s t : Part) (r : Nat) (v : Record) :
    SameDevice s (setRecord r v t) ↔ SameDevice s t := sameDevice_congr ⟨rfl, rfl⟩

@[simp] theorem sameDevice_modifyRecord (s t : Part) (r : Nat) (f : Record → Record) :
    SameDevice s (modifyRecord r f t) ↔ SameDevice s t := sameDevice_congr ⟨rfl, rfl⟩

@[simp] theorem sameDevice_raise (s t : Part) (p : Port) (k : NoticeKind) (d : List Byte) :
    SameDevice s (raise p k d t) ↔ SameDevice s t := sameDevice_congr ⟨rfl, rfl⟩

@[simp] theorem sameDevice_raiseBoth (s t : Part) (k : NoticeKind) (d : List Byte) :
    SameDevice s (raiseBoth k d t) ↔ SameDevice s t := sameDevice_congr ⟨rfl, rfl⟩

@[simp] theorem sameDevice_raiseFlash (s t : Part) (d : List Byte) :
    SameDevice s (raiseFlash d t) ↔ SameDevice s t := sameDevice_congr ⟨rfl, rfl⟩

@[simp] theorem sameDevice_queueEntry (s t : Part) (e : JEntry) :
    SameDevice s (queueEntry e t) ↔ SameDevice s t := sameDevice_congr ⟨rfl, rfl⟩

@[simp] theorem sameDevice_setRecovery (s t : Part) (x : Option Recovery) :
    SameDevice s (setRecovery x t) ↔ SameDevice s t := sameDevice_congr ⟨rfl, rfl⟩

@[simp] theorem sameDevice_setStaged (s t : Part) (r p : Nat) (x : StagedState) :
    SameDevice s (setStaged r p x t) ↔ SameDevice s t := sameDevice_congr ⟨rfl, rfl⟩

@[simp] theorem sameDevice_leaveRing (s t : Part) (r p : Nat) :
    SameDevice s (leaveRing r p t) ↔ SameDevice s t := sameDevice_congr ⟨rfl, rfl⟩

@[simp] theorem sameDevice_dropStaged (s t : Part) (r : Nat) :
    SameDevice s (dropStaged r t) ↔ SameDevice s t := sameDevice_congr ⟨rfl, rfl⟩

@[simp] theorem sameDevice_drawReservation (s t : Part) (r : Nat) :
    SameDevice s (drawReservation r t) ↔ SameDevice s t := sameDevice_congr ⟨rfl, rfl⟩

@[simp] theorem sameDevice_takeBlock (s t : Part) (r b : Nat) :
    SameDevice s (takeBlock r b t) ↔ SameDevice s t := sameDevice_congr ⟨rfl, rfl⟩

@[simp] theorem sameDevice_dropScrubHead (s t : Part) : SameDevice s (dropScrubHead t) ↔ SameDevice s t :=
  sameDevice_congr ⟨rfl, rfl⟩

@[simp] theorem sameDevice_ringSpace (s b t : Part) : SameDevice s (ringSpace b t) ↔ SameDevice s t := by
  unfold ringSpace; split <;> simp

@[simp] theorem sameDevice_faultRecord (s t : Part) (r : Nat) :
    SameDevice s (faultRecord r t) ↔ SameDevice s t := by simp [faultRecord]

@[simp] theorem sameDevice_failRecovery (s t : Part) (x : Recovery) :
    SameDevice s (failRecovery x t) ↔ SameDevice s t := by simp [failRecovery]

/-! ### Retirement, and the ends of a download -/

@[simp] theorem sameDevice_cutReservationsBy (s : Part) (n : Nat) :
    ∀ t, SameDevice s (cutReservationsBy n t) ↔ SameDevice s t := by
  induction n with
  | zero => exact fun t => Iff.rfl
  | succ n ih =>
    intro t
    unfold cutReservationsBy
    split
    · rfl
    · split <;> simp [ih]

@[simp] theorem sameDevice_retire (s t : Part) (b c : Nat) : SameDevice s (retire b c t) ↔ SameDevice s t := by
  unfold retire
  split <;> simp [cutReservations]

@[simp] theorem sameDevice_endFetch (s t : Part) (f : Nat → Bool) (p : Port) :
    SameDevice s (endFetch f p t) ↔ SameDevice s t := by
  unfold endFetch
  split
  · split <;> simp [discardRead]
  · rfl

@[simp] theorem sameDevice_endFetches (s t : Part) (f : Nat → Bool) :
    SameDevice s (endFetches f t) ↔ SameDevice s t := by simp [endFetches]

@[simp] theorem sameDevice_endScrubOf (s t : Part) (r : Nat) : SameDevice s (endScrubOf r t) ↔ SameDevice s t := by
  unfold endScrubOf
  split
  · rfl
  · split <;> simp

@[simp] theorem sameDevice_freeDownload (s t : Part) (r : Nat) : SameDevice s (freeDownload r t) ↔ SameDevice s t := by
  simp [freeDownload]

@[simp] theorem sameDevice_endRecovery (s t : Part) (x : Recovery) : SameDevice s (endRecovery x t) ↔ SameDevice s t := by
  simp [endRecovery]

@[simp] theorem sameDevice_finishAbandon (s t : Part) : SameDevice s (finishAbandon t) ↔ SameDevice s t := by
  unfold finishAbandon
  split
  · split <;> simp
  · rfl

@[simp] theorem sameDevice_emptySpool (s t : Part) : SameDevice s (emptySpool t) ↔ SameDevice s t := by simp [emptySpool]

/-! ### The jobs of ended operations -/

@[simp] theorem sameDevice_writtenReplace (s t : Part) (n : Nat) :
    SameDevice s (writtenReplace n t) ↔ SameDevice s t := by
  unfold writtenReplace
  split
  · rfl
  · split
    · dsimp only
      split <;> simp
    · rfl

@[simp] theorem sameDevice_writtenEntry (s t : Part) (i : JItem) :
    SameDevice s (writtenEntry t i) ↔ SameDevice s t := by
  have hseal (r : Nat) (c : Bool) (u : Part) : SameDevice s (writtenSeal r c u) ↔ SameDevice s u := by
    simp only [writtenSeal]
    split <;> simp
  simp only [writtenEntry]
  rw [sameDevice_modifyFlash _ _ (endHolds _) (fun _ => rfl) (fun _ => rfl)]
  split
  · split <;> simp
  · split <;> simp [hseal]
  · simp
  · simp

theorem sameDevice_foldl_writtenEntry (s : Part) (is : List JItem) :
    ∀ t, SameDevice s (is.foldl writtenEntry t) ↔ SameDevice s t := by
  induction is with
  | nil => exact fun t => Iff.rfl
  | cons i is ih => exact fun t => by rw [List.foldl_cons, ih, sameDevice_writtenEntry]

@[simp] theorem sameDevice_compactionStep (s t : Part) : SameDevice s (compactionStep t) ↔ SameDevice s t := by
  unfold compactionStep
  split
  · rfl
  · simp [compactionWritten]

@[simp] theorem sameDevice_noteRead (s t : Part) (r : Option (Nat × Word)) (b p : Nat) (o : Ecc) :
    SameDevice s (noteRead r b p o t) ↔ SameDevice s t := by
  have hscrub : SameDevice s (joinScrub b t) ↔ SameDevice s t := by
    unfold joinScrub; split <;> simp
  have hdamage (r : Nat) (q : Word) (u : Part) : SameDevice s (countDamage r q u) ↔ SameDevice s u := by
    unfold countDamage; split <;> simp
  unfold noteRead
  split
  · rfl
  · simp [hscrub, hdamage]

@[simp] theorem sameDevice_stagingDone (s t : Part) (r p : Nat) :
    SameDevice s (stagingDone r p t) ↔ SameDevice s t := by
  unfold stagingDone
  split
  · rfl
  · simp [compareSeal]

@[simp] theorem sameDevice_recoveryEnd (s t : Part) (m ok : Bool) :
    SameDevice s (recoveryEnd m ok t) ↔ SameDevice s t := by
  unfold recoveryEnd
  split
  · rfl
  · split
    · rfl
    · split
      · simp [replacementFailed]
      · split
        · rfl
        · split <;> simp [recoveryDone]

@[simp] theorem sameDevice_scrubEnd (s t : Part) (ok : Bool) : SameDevice s (scrubEnd ok t) ↔ SameDevice s t := by
  unfold scrubEnd
  split
  · rfl
  · split
    · simp only [sameDevice_retire]
      split <;> simp
    · split <;> simp

@[simp] theorem sameDevice_allocationErased (s t : Part) (r b : Nat) :
    SameDevice s (allocationErased r b t) ↔ SameDevice s t := by
  unfold allocationErased
  split
  · simp
  · split <;> simp

@[simp] theorem sameDevice_replacementErased (s t : Part) (b : Nat) :
    SameDevice s (replacementErased b t) ↔ SameDevice s t := by
  unfold replacementErased
  split
  · simp
  · split <;> simp

@[simp] theorem sameDevice_scrubTargetErased (s t : Part) (b : Nat) :
    SameDevice s (scrubTargetErased b t) ↔ SameDevice s t := by
  unfold scrubTargetErased
  split
  · simp
  · split
    · simp
    · split <;> simp

@[simp] theorem sameDevice_fetchEnd (s t : Part) (p : Port) (o : Ecc) (data : List Byte) :
    SameDevice s (fetchEnd p o data t) ↔ SameDevice s t := by
  unfold fetchEnd; split <;> simp

@[simp] theorem sameDevice_systemEnd (s t : Part) (ok : Bool) (o b : Nat) :
    SameDevice s (systemEnd ok o b t) ↔ SameDevice s t := by
  have hend (k : SysKind) (l : List Byte) : SameDevice s (endSystem k l t) ↔ SameDevice s t :=
    sameDevice_congr (by cases k <;> exact ⟨rfl, rfl⟩)
  unfold systemEnd
  split
  · rfl
  · split
    · exact hend _ _
    · split
      · exact hend _ _
      · simp

/-- The job of an ended operation leaves the engine as idle as it finds it. -/
@[simp] theorem sameDevice_jobEnd (x : Running) (o : Ecc) (data : List Byte) (ok : Bool) (s t : Part) :
    SameDevice s (jobEnd x o data ok t) ↔ SameDevice s t := by
  unfold jobEnd
  split
  case h_15 => rfl
  all_goals simp [journalWritten, sameDevice_foldl_writtenEntry, journalFailure, stagingEnd, eraseFailed]

end Sys2Proof.Machine
end

section
/-! PROOFS. What the end of a flash operation leaves in the array, what a read gives, and what stays
(`FlashOperationEnds`). -/

namespace Sys2Proof.Machine

/-! ### The end of an operation as a step of the part -/

section

variable {x : Running} {kinds : List Nat} {s : Part}

/-- The end of the operation in progress, with the arbiter after it. -/
theorem operationEnds_of_kind (ecc : List Sector) (ok : Bool) (hx : s.flash.running = some x) (hk : operationCode x.operation ∈ kinds) :
    operationEnds kinds ecc ok s = ringSpace s (arbitrate (endOperation x ecc ok s)) := by
  unfold operationEnds
  rw [hx]
  exact if_pos hk

/-- An event for a kind of operation that is not in progress. -/
theorem operationEnds_of_other (ecc : List Sector) (ok : Bool) (hx : s.flash.running = some x) (hk : operationCode x.operation ∉ kinds) :
    operationEnds kinds ecc ok s = s := by
  unfold operationEnds
  rw [hx]
  exact if_neg hk

theorem operationEnds_of_idle (ecc : List Sector) (ok : Bool) (hx : s.flash.running = none) : operationEnds kinds ecc ok s = s := by
  unfold operationEnds
  rw [hx]

/-- In a forced OFF entry the result is not reported (R123). -/
theorem endOperation_of_forced (x : Running) (ecc : List Sector) (ok : Bool) (h : s.power.forcedOff = true) :
    endOperation x ecc ok s = withArrayAfter x ecc ok s := by
  have hforced : (withArrayAfter x ecc ok s).power.forcedOff = true := h
  exact if_pos hforced

/-- An operation that reads no page: its job, while that stands. -/
theorem endOperation_of_blind (ecc : List Sector) (ok : Bool) (h : s.power.forcedOff = false) (hr : readAddress x.operation = none) :
    endOperation x ecc ok s
      = finishAbandon (if x.live then jobEnd x .erased [] ok (withArrayAfter x ecc ok s) else withArrayAfter x ecc ok s) := by
  have hforced : ¬ (withArrayAfter x ecc ok s).power.forcedOff = true := by
    change ¬ s.power.forcedOff = true
    rw [h]
    decide
  refine (if_neg hforced).trans ?_
  rw [hr] <;> rfl

/-- An operation that reads a page: what the read tells is noted, and its job follows while it stands. -/
theorem endOperation_of_read (ecc : List Sector) (ok : Bool) (h : s.power.forcedOff = false) {b p : Nat}
    (hr : readAddress x.operation = some (b, p)) :
    endOperation x ecc ok s
      = finishAbandon
          (let page := Nand.page s.flash.nand (64 * b + p)
           let outcome := readOutcome page s.fresh (64 * b + p) ecc
           let noted := noteRead x.reads b p outcome (withArrayAfter x ecc ok s)
           if x.live then jobEnd x outcome (readBytes page s.fresh (64 * b + p) ecc) ok noted else noted) := by
  have hforced : ¬ (withArrayAfter x ecc ok s).power.forcedOff = true := by
    change ¬ s.power.forcedOff = true
    rw [h]
    decide
  refine (if_neg hforced).trans ?_
  rw [hr]
  rfl

/-- What ends without a read does not depend on the report. -/
theorem endOperation_congr (ecc ecc' : List Sector) (ok : Bool) (hr : readAddress x.operation = none) :
    endOperation x ecc ok s = endOperation x ecc' ok s := by
  have harray : withArrayAfter x ecc ok s = withArrayAfter x ecc' ok s := by
    unfold withArrayAfter afterOperation
    cases hx : x.operation with
    | read b p => simp [hx, readAddress] at hr
    | program b p data => rfl
    | erase b => rfl
    | move a b p => simp [hx, readAddress] at hr
  cases hf : s.power.forcedOff with
  | true => rw [endOperation_of_forced x ecc ok hf, endOperation_of_forced x ecc' ok hf, harray]
  | false => rw [endOperation_of_blind ecc ok hf hr, endOperation_of_blind ecc' ok hf hr, harray]

end

/-! ### How far a job reaches -/

/-- `t` differs from `s` in the ports, the spool, the flash engine and the three flags of the system writes at most. -/
def JobSide (s t : Part) : Prop :=
  t = { s with ports := t.ports, spool := t.spool, flash := t.flash,
               rights := { s.rights with writeOutstanding := t.rights.writeOutstanding },
               wave := { s.wave with reprogram := t.wave.reprogram },
               power := { s.power with sleepWrite := t.power.sleepWrite } }

theorem JobSide.of_spoolWork {s t : Part} (h : SpoolWork s t) : JobSide s t := by
  obtain ⟨_, _, _, hr, _, _, _, hw, _, _, hp, _⟩ := (spoolSide_iff s t).mp h.1
  unfold JobSide
  conv_lhs => rw [show t = { s with ports := t.ports, spool := t.spool, flash := t.flash } from h.1]
  rw [hr, hw, hp]

theorem JobSide.trans {s t u : Part} (h : JobSide s t) (h' : JobSide t u) : JobSide s u := by
  unfold JobSide at h h'
  rw [h', h]
  rfl

theorem jobSide_systemEnd (ok : Bool) (o b : Nat) (s : Part) : JobSide s (systemEnd ok o b s) := by
  have hflag (k : SysKind) (t : Part) : JobSide t (setOutstanding k false t) := by cases k <;> rfl
  have hend (k : SysKind) (l : List Byte) : JobSide s (endSystem k l s) :=
    .trans (.of_spoolWork (by simp [SpoolWork.refl])) (hflag k _)
  unfold systemEnd
  split
  · exact .of_spoolWork (SpoolWork.refl s)
  · split
    · exact hend _ _
    · split
      · exact hend _ _
      · exact .of_spoolWork (by simp [SpoolWork.refl])

/-- The job of an ended operation is the spool's work, or a system write's. -/
theorem jobEnd_cases (x : Running) (o : Ecc) (data : List Byte) (ok : Bool) (s : Part) :
    SpoolWork s (jobEnd x o data ok s) ∨ ∃ k b, jobEnd x o data ok s = systemEnd ok k b s := by
  have hs := SpoolWork.refl s
  unfold jobEnd
  split
  case h_4 _ b _ _ _ _ => exact .inr ⟨1, b, rfl⟩
  case h_5 _ b _ _ => exact .inr ⟨0, b, rfl⟩
  case h_15 => exact .inl hs
  all_goals refine .inl ?_
  all_goals simp [hs, eraseFailed]

theorem jobSide_jobEnd (x : Running) (o : Ecc) (data : List Byte) (ok : Bool) (s : Part) : JobSide s (jobEnd x o data ok s) := by
  rcases jobEnd_cases x o data ok s with h | ⟨k, b, h⟩
  · exact .of_spoolWork h
  · rw [h]
    exact jobSide_systemEnd ok k b s

/-- The end of an operation: the array, and then at most what its job does, with the engine idle. -/
theorem endOperation_side (x : Running) (ecc : List Sector) (ok : Bool) (s : Part) :
    JobSide (withArrayAfter x ecc ok s) (endOperation x ecc ok s)
      ∧ SameDevice (withArrayAfter x ecc ok s) (endOperation x ecc ok s) := by
  have hstill : JobSide (withArrayAfter x ecc ok s) (withArrayAfter x ecc ok s) := .of_spoolWork (SpoolWork.refl _)
  have hdone (t : Part) (h : JobSide (withArrayAfter x ecc ok s) t) (h' : SameDevice (withArrayAfter x ecc ok s) t) :
      JobSide (withArrayAfter x ecc ok s) (finishAbandon t) ∧ SameDevice (withArrayAfter x ecc ok s) (finishAbandon t) :=
    ⟨h.trans (.of_spoolWork (by simp [SpoolWork.refl])), (sameDevice_finishAbandon _ _).mpr h'⟩
  cases hf : s.power.forcedOff with
  | true =>
    rw [endOperation_of_forced x ecc ok hf]
    exact ⟨hstill, .refl _⟩
  | false =>
    cases hr : readAddress x.operation with
    | none =>
      rw [endOperation_of_blind ecc ok hf hr]
      refine hdone _ ?_ ?_
      · split
        · exact jobSide_jobEnd x .erased [] ok _
        · exact hstill
      · simp [SameDevice.refl]
    | some a =>
      obtain ⟨b, p⟩ := a
      rw [endOperation_of_read ecc ok hf hr]
      dsimp only
      refine hdone _ ?_ ?_
      · have hnote (o : Ecc) : JobSide (withArrayAfter x ecc ok s) (noteRead x.reads b p o (withArrayAfter x ecc ok s)) :=
          .of_spoolWork (by simp [SpoolWork.refl])
        split
        · exact (hnote _).trans (jobSide_jobEnd x _ _ ok _)
        · exact hnote _
      · simp [SameDevice.refl]

/-! ### What a read gives (R158, R159) -/

/-- A byte of a page that was never programmed, in a sector that is read. -/
theorem byteAt_readBytes_erased (fresh address : Nat) (ecc : List Sector) {i : Nat} (hi : i < 4096) (h : byteFails ecc i = false) :
    byteAt (readBytes none fresh address ecc) i = 0xFF := by
  have hpage : i < Config.pageBytes := hi
  rw [byteAt, readBytes, List.getD_eq_getElem?_getD, List.getElem?_map, List.getElem?_range hpage, Option.map_some, h]
  rfl

theorem readOutcome_of_fails {ecc : List Sector} (page : Option Page) (fresh address : Nat) (h : anyFails ecc = true) :
    readOutcome page fresh address ecc = .uncorrectable := if_pos h

/-- A programmed page that is read gives its worst sector's count, an unprogrammed one ERASED unless its spare bytes are
wrong, a partly programmed one either. -/
theorem readOutcome_of_reads {ecc : List Sector} (fresh address : Nat) (h : anyFails ecc = false) :
    (∀ data spare, readOutcome (some (.programmed data spare)) fresh address ecc = .corrected (worstSector ecc))
      ∧ (spareFails ecc = false → readOutcome none fresh address ecc = .erased)
      ∧ (spareFails ecc = true → readOutcome none fresh address ecc = .corrected (worstSector ecc))
      ∧ (readOutcome (some .torn) fresh address ecc = .erased
          ∨ readOutcome (some .torn) fresh address ecc = .corrected (worstSector ecc)) := by
  have hread : ¬ anyFails ecc = true := by simp [h]
  refine ⟨fun data spare => if_neg hread, fun hs => (if_neg hread).trans (if_neg (by simp [hs])), fun hs => (if_neg hread).trans (if_pos hs), ?_⟩
  unfold readOutcome
  rw [if_neg hread]
  dsimp only
  split
  · exact .inl rfl
  · exact .inr rfl

/-! ### An abandon that waits for the operation (R164) -/

/-- Noting a read adds to the scrub list, and counts a damaged page. -/
theorem noteRead_keeps (rs : Option (Nat × Word)) (b page : Nat) (e : Ecc) (s : Part) :
    (noteRead rs b page e s).flash.recovery = s.flash.recovery
      ∧ ∀ r, (record (noteRead rs b page e s) r).ending = (record s r).ending := by
  have hscrub : (joinScrub b s).flash.recovery = s.flash.recovery ∧ ∀ r, record (joinScrub b s) r = record s r := by
    unfold joinScrub
    split <;> exact ⟨rfl, fun _ => rfl⟩
  have hdamage (q : Nat) (seq : Word) (t : Part) :
      (countDamage q seq t).flash.recovery = t.flash.recovery
        ∧ ∀ r, (record (countDamage q seq t) r).ending = (record t r).ending := by
    unfold countDamage
    split
    · refine ⟨rfl, fun r => ?_⟩
      by_cases hq : q = r
      · subst hq
        by_cases hlt : q < 32
        · rw [modifyRecord, record_setRecord_same _ _ _ hlt]
        · change (tableGet (tableSet t.spool.records q _) q freeRecord).ending = _
          rw [tableSet_of_ge _ _ _ (by omega)]
          rfl
      · rw [modifyRecord, record_setRecord_other _ _ _ _ hq]
    · exact ⟨rfl, fun _ => rfl⟩
  unfold noteRead
  split
  · exact ⟨rfl, fun _ => rfl⟩
  · next q seq =>
    have hjoin : (if heavy e = true then joinScrub b s else s).flash.recovery = s.flash.recovery
        ∧ ∀ r, record (if heavy e = true then joinScrub b s else s) r = record s r := by
      split
      · exact hscrub
      · exact ⟨rfl, fun _ => rfl⟩
    dsimp only
    split
    · obtain ⟨hrec, hend⟩ := hdamage q seq (if heavy e = true then joinScrub b s else s)
      exact ⟨hrec.trans hjoin.1, fun r => (hend r).trans (by rw [hjoin.2 r])⟩
    · exact ⟨hjoin.1, fun r => by rw [hjoin.2 r]⟩

/-- The abandon that waits is the same before a read is noted and after. -/
theorem finishAbandon_of_same {s t : Part} (hrec : t.flash.recovery = s.flash.recovery)
    (hend : ∀ r, (record t r).ending = (record s r).ending) :
    finishAbandon t = match s.flash.recovery with
      | some r => if (record s r.record).ending = true then endRecovery r t else t
      | none => t := by
  unfold finishAbandon
  rw [hrec]
  cases s.flash.recovery with
  | none => rfl
  | some r => exact if_congr (by rw [hend]) rfl rfl

/-! ### The end of an operation, clause by clause -/

section

variable {x : Running} {s : Part} (ecc : List Sector) (good : Bool)

/-- What the end of an operation leaves, as `FlashOperationEnds` states it of each kind. -/
theorem endOperation_frame (x : Running) (s : Part) :
    let q := endOperation x ecc good s
    let m := afterOperation x.operation ecc good s.fresh s.flash.nand
    (ringSpace s (arbitrate q)).flash.nand = m ∧ q.flash.nand = m ∧ q.flash.running = none
      ∧ q = { s with
          ports := q.ports, spool := q.spool, flash := q.flash, fresh := s.fresh + 1
          rights := { s.rights with writeOutstanding := q.rights.writeOutstanding }
          wave := { s.wave with reprogram := q.wave.reprogram }
          power := { s.power with sleepWrite := q.power.sleepWrite } }
      ∧ q.flash.identity = s.flash.identity ∧ q.flash.factoryBad = s.flash.factoryBad := by
  obtain ⟨hside, hbad, hrun⟩ := endOperation_side x ecc good s
  obtain ⟨_, hnand, hid, _⟩ := writeSide_endOperation x ecc good s
  have harbiter : (ringSpace s (arbitrate (endOperation x ecc good s))).flash.nand = (endOperation x ecc good s).flash.nand := by
    have hwork : SpoolWork (endOperation x ecc good s) (ringSpace s (arbitrate (endOperation x ecc good s))) := by
      simp [SpoolWork.refl]
    exact hwork.2.1
  exact ⟨harbiter.trans hnand, hnand, Option.isNone_iff_eq_none.mp hrun, hside, hid, hbad⟩

/-- An operation whose job was dropped, and that reads no page, changes nothing but for an abandon that waits (R164). -/
theorem endOperation_of_dropped (h : s.power.forcedOff = false) (hl : x.live = false) (hr : readAddress x.operation = none) :
    endOperation x ecc good s = match s.flash.recovery with
      | some r => if (record s r.record).ending = true then endRecovery r (withArrayAfter x ecc good s) else withArrayAfter x ecc good s
      | none => withArrayAfter x ecc good s := by
  rw [endOperation_of_blind ecc good h hr, if_neg (by simp [hl])]
  exact finishAbandon_of_same (s := s) rfl fun _ => rfl

/-- A read whose job was dropped is noted all the same (log entry 30). -/
theorem endOperation_of_dropped_read (h : s.power.forcedOff = false) (hl : x.live = false) {b p : Nat}
    (hr : readAddress x.operation = some (b, p)) :
    let noted := noteRead x.reads b p (readOutcome (Nand.page s.flash.nand (64 * b + p)) s.fresh (64 * b + p) ecc)
      (withArrayAfter x ecc good s)
    endOperation x ecc good s = match s.flash.recovery with
      | some r => if (record s r.record).ending = true then endRecovery r noted else noted
      | none => noted := by
  intro noted
  rw [endOperation_of_read ecc good h hr]
  dsimp only
  rw [if_neg (by simp [hl])]
  obtain ⟨hrec, hend⟩ := noteRead_keeps x.reads b p (readOutcome (Nand.page s.flash.nand (64 * b + p)) s.fresh (64 * b + p) ecc)
    (withArrayAfter x ecc good s)
  exact finishAbandon_of_same (s := s) hrec hend

end

/-- The pages of the array after a program or a move: the one that it programs, and every other as it was. -/
theorem page_put_address (m : List (Nat × Page)) (b p a : Nat) (v : Page) :
    Nand.page (Nand.put m (64 * b + p) v) a = if a = 64 * b + p then some v else Nand.page m a :=
  Nand.page_put _ _ _ m

/-- The pages of the array after an erase (R157, R158). -/
theorem page_after_erase (m : List (Nat × Page)) (b a : Nat) (good : Bool) :
    Nand.page (if good = true then Nand.eraseBlock m b else Nand.tearBlock m b) a
      = if a / 64 = b then (if good = true then none else some .torn) else Nand.page m a := by
  cases good with
  | true => exact Nand.page_eraseBlock b a m
  | false => exact Nand.page_tearBlock m b a

/-- Settles O39: what a read gives, and the end of each kind of operation by `endOperation_frame`. -/
theorem flashOperationEnds : Obligations.FlashOperationEnds := by
  refine ⟨fun page fresh a ecc => ?_, fun data => ⟨spareOf data, rfl, spareOf_length data, spareOf_ne_erased data⟩,
    fun ecc ok s ha => ⟨fun x hx => ?_, fun hx => ?_⟩⟩
  · intro e bytes good worst
    have hgood (y : Sector) : sectorFails y = false ↔ good y := sectorFails_eq_false
    have hany : anyFails ecc = false ↔ ∀ y, y ∈ ecc.take 8 → good y := anyFails_eq_false
    refine ⟨fun ⟨y, hy, hbad⟩ => readOutcome_of_fails page fresh a ?_, fun hall => ?_, readBytes_length page fresh a ecc, fun i hi hread => ?_⟩
    · cases h : anyFails ecc with
      | true => rfl
      | false => exact absurd (hany.mp h y hy) hbad
    · obtain ⟨hprog, herased, hspare, htorn⟩ := readOutcome_of_reads fresh a (hany.mpr hall)
      have hworst : worst (worstSector ecc) := worstSector_spec (hany.mpr hall)
      refine ⟨fun data spare hp => ⟨_, ?_, hworst⟩, fun hp => ⟨fun h => ?_, fun h => ⟨_, ?_, hworst⟩⟩, fun hp => ?_⟩
      · exact (congrArg (readOutcome · fresh a ecc) hp).trans (hprog data spare)
      · exact (congrArg (readOutcome · fresh a ecc) hp).trans (herased ((hgood _).mpr h))
      · refine (congrArg (readOutcome · fresh a ecc) hp).trans (hspare ?_)
        exact Bool.eq_true_of_not_eq_false fun h' => h ((hgood _).mp h')
      · have he : e = readOutcome (some .torn) fresh a ecc := congrArg (readOutcome · fresh a ecc) hp
        rw [he]
        exact htorn.imp_right fun h => ⟨_, h, hworst⟩
    · have hbyte : byteFails ecc i = false := (hgood _).mpr hread
      refine ⟨fun data spare hp => ?_, fun hp => ?_⟩
      · exact (congrArg (fun p => byteAt (readBytes p fresh a ecc) i) hp).trans (byteAt_readBytes data spare fresh a ecc hi hbyte)
      · exact (congrArg (fun p => byteAt (readBytes p fresh a ecc) i) hp).trans (byteAt_readBytes_erased fresh a ecc hi hbyte)
  · intro m after leaves ends stays
    have hexec {i : Instr} {kinds : List Nat} {l : List Sector} {good : Bool}
        (hi : ∀ s, partAfter i s = whileRunning (operationEnds kinds l good) s) (hk : operationCode x.operation ∈ kinds) :
        exec i s = .next { s with part := ringSpace s.part (arbitrate (endOperation x l good s.part)) } := by
      rw [exec_of_alive hi ha, operationEnds_of_kind l good hx hk]
    have hstays {i : Instr} {kinds : List Nat} {l : List Sector} {good : Bool}
        (hi : ∀ s, partAfter i s = whileRunning (operationEnds kinds l good) s) (hk : operationCode x.operation ∉ kinds) :
        stays i := by
      have hsame : exec i s = .next { s with part := s.part } := by
        rw [exec_of_alive hi ha, operationEnds_of_other l good hx hk]
      exact hsame
    have hends {i : Instr} (good : Bool) (hi : exec i s = .next { s with part := ringSpace s.part (arbitrate (endOperation x ecc good s.part)) })
        (hafter : after good = afterOperation x.operation ecc good s.part.fresh s.part.flash.nand)
        (hleaves : ∀ a, Nand.page (after good) a = leaves good a)
        (hblind : (∃ b p d, x.operation = .program b p d) ∨ (∃ b, x.operation = .erase b) → readAddress x.operation = none)
        (hread : ∀ b p, x.operation = .read b p ∨ (∃ d, x.operation = .move b d p) → readAddress x.operation = some (b, p)) :
        ends good i := by
      obtain ⟨harb, hnand, hrun, hframe, hid, hbad⟩ := endOperation_frame ecc good x s.part
      have hleft : withArrayAfter x ecc good s.part
          = { s.part with flash := { s.part.flash with nand := after good, running := none }, fresh := s.part.fresh + 1 } := by
        rw [hafter]
        rfl
      refine ⟨_, endOperation x ecc good s.part, hi, rfl, harb.trans hafter.symm, hnand.trans hafter.symm, hleaves, hrun, hframe, hid, hbad,
        fun hf => ?_, fun hf hl ho => ?_, fun hf hl b p ho => ?_⟩
      · exact (endOperation_of_forced x ecc good hf).trans hleft
      · rw [← hleft]
        exact endOperation_of_dropped ecc good hf hl (hblind ho)
      · rw [← hleft]
        exact endOperation_of_dropped_read ecc good hf hl (hread b p ho)
    obtain ⟨o, j, live, rs⟩ := x
    cases o with
    | read b p =>
      refine ⟨hends true (hexec (fun _ => rfl) (by simp [operationCode])) rfl (fun _ => rfl) ?_ ?_, hstays (fun _ => rfl) (by simp [operationCode]),
        hstays (fun _ => rfl) (by simp [operationCode]), hstays (fun _ => rfl) (by simp [operationCode]), hstays (fun _ => rfl) (by simp [operationCode])⟩
      · rintro (⟨_, _, _, h⟩ | ⟨_, h⟩) <;> cases h
      · rintro _ _ (h | ⟨_, h⟩) <;> cases h
        rfl
    | program b p data =>
      have hblind (good : Bool) : endOperation ⟨.program b p data, j, live, rs⟩ [] good s.part = endOperation ⟨.program b p data, j, live, rs⟩ ecc good s.part :=
        endOperation_congr [] ecc good rfl
      have hof (good : Bool) (i : Instr)
          (hi : exec i s = .next { s with part := ringSpace s.part (arbitrate (endOperation ⟨.program b p data, j, live, rs⟩ ecc good s.part)) }) :
          ends good i := by
        refine hends good hi rfl (fun a => page_put_address m b p a _) (fun _ => rfl) ?_
        rintro _ _ (h | ⟨_, h⟩) <;> cases h
      have hprogram (good : Bool) : exec (.programEnd good) s
          = .next { s with part := ringSpace s.part (arbitrate (endOperation ⟨.program b p data, j, live, rs⟩ ecc good s.part)) } := by
        rw [← hblind good]
        exact hexec (fun _ => rfl) (by simp [operationCode])
      have htimeout := hexec (i := .flashOperationTimeout ecc) (fun _ => rfl) (by simp [operationCode])
      exact ⟨hof ok _ (hprogram ok), hof false _ htimeout, htimeout.trans (hprogram false).symm, hstays (fun _ => rfl) (by simp [operationCode]),
        hstays (fun _ => rfl) (by simp [operationCode]), hstays (fun _ => rfl) (by simp [operationCode])⟩
    | erase b =>
      have hblind (good : Bool) : endOperation ⟨.erase b, j, live, rs⟩ [] good s.part = endOperation ⟨.erase b, j, live, rs⟩ ecc good s.part :=
        endOperation_congr [] ecc good rfl
      have hof (good : Bool) (i : Instr)
          (hi : exec i s = .next { s with part := ringSpace s.part (arbitrate (endOperation ⟨.erase b, j, live, rs⟩ ecc good s.part)) }) :
          ends good i := by
        refine hends good hi rfl (fun a => page_after_erase m b a good) (fun _ => rfl) ?_
        rintro _ _ (h | ⟨_, h⟩) <;> cases h
      have herase (good : Bool) : exec (.eraseEnd good) s
          = .next { s with part := ringSpace s.part (arbitrate (endOperation ⟨.erase b, j, live, rs⟩ ecc good s.part)) } := by
        rw [← hblind good]
        exact hexec (fun _ => rfl) (by simp [operationCode])
      have htimeout := hexec (i := .flashOperationTimeout ecc) (fun _ => rfl) (by simp [operationCode])
      exact ⟨hof ok _ (herase ok), hof false _ htimeout, htimeout.trans (herase false).symm, hstays (fun _ => rfl) (by simp [operationCode]),
        hstays (fun _ => rfl) (by simp [operationCode]), hstays (fun _ => rfl) (by simp [operationCode])⟩
    | move a b p =>
      have hof (good : Bool) (i : Instr)
          (hi : exec i s = .next { s with part := ringSpace s.part (arbitrate (endOperation ⟨.move a b p, j, live, rs⟩ ecc good s.part)) }) :
          ends good i := by
        refine hends good hi rfl (fun c => page_put_address m b p c _) ?_ ?_
        · rintro (⟨_, _, _, h⟩ | ⟨_, h⟩) <;> cases h
        · rintro _ _ (h | ⟨_, h⟩) <;> cases h
          rfl
      have hmove (good : Bool) := hexec (i := .moveEnd ecc good) (fun _ => rfl) (by simp [operationCode])
      have htimeout := hexec (i := .flashOperationTimeout ecc) (fun _ => rfl) (by simp [operationCode])
      exact ⟨hof ok _ (hmove ok), hof false _ htimeout, htimeout.trans (hmove false).symm, hstays (fun _ => rfl) (by simp [operationCode]),
        hstays (fun _ => rfl) (by simp [operationCode]), hstays (fun _ => rfl) (by simp [operationCode])⟩
  · have hstays {i : Instr} {kinds : List Nat} {l : List Sector} {good : Bool}
        (hi : ∀ s, partAfter i s = whileRunning (operationEnds kinds l good) s) : exec i s = .next s := by
      have hsame : exec i s = .next { s with part := s.part } := by
        rw [exec_of_alive hi ha, operationEnds_of_idle l good hx]
      exact hsame
    exact ⟨hstays fun _ => rfl, hstays fun _ => rfl, hstays fun _ => rfl, hstays fun _ => rfl, hstays fun _ => rfl⟩

end Sys2Proof.Machine
end

section
/-! PROOFS. What an ended operation does for a fetch, a staging program, the eraser, a system write and a journal write
(`FlashJobsEnd`). -/

namespace Sys2Proof.Machine

/-! ### The end of an operation whose job stands -/

section

variable {i : Instr} {kinds : List Nat} {ecc : List Sector} {ok : Bool} {o : Operation} {j : Job} {rs : Option (Nat × Word)} {s : State} {q : Part}

/-- An operation that reads no page, ended: what its job makes of the part, an abandon that waits, and the arbiter. -/
theorem exec_of_blind_end (hi : ∀ s, partAfter i s = whileRunning (operationEnds kinds ecc ok) s) (ha : alive s.part = true)
    (hf : s.part.power.forcedOff = false) (hx : s.part.flash.running = some ⟨o, j, true, rs⟩) (hk : operationCode o ∈ kinds)
    (hr : readAddress o = none) (hq : jobEnd ⟨o, j, true, rs⟩ .erased [] ok (withArrayAfter ⟨o, j, true, rs⟩ ecc ok s.part) = q) :
    exec i s = .next { s with part := ringSpace s.part (arbitrate (finishAbandon q)) } := by
  rw [exec_of_alive hi ha, operationEnds_of_kind ecc ok hx hk, endOperation_of_blind ecc ok hf hr, if_pos rfl, hq]

/-- An operation that reads a page, ended: what it tells is noted before its job is seen to. -/
theorem exec_of_read_end {b p : Nat} (hi : ∀ s, partAfter i s = whileRunning (operationEnds kinds ecc ok) s) (ha : alive s.part = true)
    (hf : s.part.power.forcedOff = false) (hx : s.part.flash.running = some ⟨o, j, true, rs⟩) (hk : operationCode o ∈ kinds)
    (hr : readAddress o = some (b, p))
    (hq : jobEnd ⟨o, j, true, rs⟩ (readOutcome (Nand.page s.part.flash.nand (64 * b + p)) s.part.fresh (64 * b + p) ecc)
        (readBytes (Nand.page s.part.flash.nand (64 * b + p)) s.part.fresh (64 * b + p) ecc) ok
        (noteRead rs b p (readOutcome (Nand.page s.part.flash.nand (64 * b + p)) s.part.fresh (64 * b + p) ecc)
          (withArrayAfter ⟨o, j, true, rs⟩ ecc ok s.part)) = q) :
    exec i s = .next { s with part := ringSpace s.part (arbitrate (finishAbandon q)) } := by
  rw [exec_of_alive hi ha, operationEnds_of_kind ecc ok hx hk, endOperation_of_read ecc ok hf hr]
  dsimp only
  rw [if_pos rfl, hq]

end

/-- The part with its array replaced and the engine idle, as the end of an operation leaves it for the job. -/
def leftWith (m : List (Nat × Page)) (s : Part) : Part :=
  { s with flash := { s.flash with nand := m, running := none }, fresh := s.fresh + 1 }

section

variable {b k src : Nat} {data : List Byte} {ecc : List Sector} {j : Job} {rs : Option (Nat × Word)} {s : State} {q : Part}

theorem exec_programDone (ha : alive s.part = true) (hf : s.part.power.forcedOff = false)
    (hx : s.part.flash.running = some ⟨.program b k data, j, true, rs⟩)
    (hq : jobEnd ⟨.program b k data, j, true, rs⟩ .erased [] true (leftWith (Nand.put s.part.flash.nand (64 * b + k) (programmedPage data)) s.part) = q) :
    exec (.programEnd true) s = .next { s with part := ringSpace s.part (arbitrate (finishAbandon q)) } :=
  exec_of_blind_end (fun _ => rfl) ha hf hx (by simp [operationCode]) rfl hq

theorem exec_programFailed (ha : alive s.part = true) (hf : s.part.power.forcedOff = false)
    (hx : s.part.flash.running = some ⟨.program b k data, j, true, rs⟩)
    (hq : jobEnd ⟨.program b k data, j, true, rs⟩ .erased [] false (leftWith (Nand.put s.part.flash.nand (64 * b + k) .torn) s.part) = q) :
    exec (.programEnd false) s = .next { s with part := ringSpace s.part (arbitrate (finishAbandon q)) } :=
  exec_of_blind_end (fun _ => rfl) ha hf hx (by simp [operationCode]) rfl hq

theorem exec_eraseDone (ha : alive s.part = true) (hf : s.part.power.forcedOff = false)
    (hx : s.part.flash.running = some ⟨.erase b, j, true, rs⟩)
    (hq : jobEnd ⟨.erase b, j, true, rs⟩ .erased [] true (leftWith (Nand.eraseBlock s.part.flash.nand b) s.part) = q) :
    exec (.eraseEnd true) s = .next { s with part := ringSpace s.part (arbitrate (finishAbandon q)) } :=
  exec_of_blind_end (fun _ => rfl) ha hf hx (by simp [operationCode]) rfl hq

theorem withArrayAfter_erase_failed (b : Nat) (j : Job) (rs : Option (Nat × Word)) (s : Part) :
    withArrayAfter ⟨.erase b, j, true, rs⟩ [] false s = leftWith (Nand.tearBlock s.flash.nand b) s := by
  have harray (m : List (Nat × Page)) : afterOperation (.erase b) [] false s.fresh m = Nand.tearBlock m b := by
    simp only [afterOperation, Bool.false_eq_true, if_false]
  simp only [withArrayAfter, harray, leftWith, stepFresh, modifyFlash]

theorem exec_eraseFailed (ha : alive s.part = true) (hf : s.part.power.forcedOff = false)
    (hx : s.part.flash.running = some ⟨.erase b, j, true, rs⟩)
    (hq : jobEnd ⟨.erase b, j, true, rs⟩ .erased [] false (leftWith (Nand.tearBlock s.part.flash.nand b) s.part) = q) :
    exec (.eraseEnd false) s = .next { s with part := ringSpace s.part (arbitrate (finishAbandon q)) } := by
  refine exec_of_blind_end (kinds := [3]) (ecc := []) (ok := false) (fun _ => rfl) ha hf hx (by simp [operationCode]) rfl ?_
  rw [withArrayAfter_erase_failed]
  exact hq

/-- What is known of a page once its read has ended. -/
def notedRead (rs : Option (Nat × Word)) (b k : Nat) (ecc : List Sector) (s : Part) (t : Part) : Part :=
  noteRead rs b k (readOutcome (Nand.page s.flash.nand (64 * b + k)) s.fresh (64 * b + k) ecc) t

theorem exec_readDone (ha : alive s.part = true) (hf : s.part.power.forcedOff = false)
    (hx : s.part.flash.running = some ⟨.read b k, j, true, rs⟩)
    (hq : jobEnd ⟨.read b k, j, true, rs⟩ (readOutcome (Nand.page s.part.flash.nand (64 * b + k)) s.part.fresh (64 * b + k) ecc)
        (readBytes (Nand.page s.part.flash.nand (64 * b + k)) s.part.fresh (64 * b + k) ecc) true
        (notedRead rs b k ecc s.part (leftWith s.part.flash.nand s.part)) = q) :
    exec (.readEnd ecc) s = .next { s with part := ringSpace s.part (arbitrate (finishAbandon q)) } :=
  exec_of_read_end (fun _ => rfl) ha hf hx (by simp [operationCode]) rfl hq

theorem exec_moveDone (ha : alive s.part = true) (hf : s.part.power.forcedOff = false)
    (hx : s.part.flash.running = some ⟨.move src b k, j, true, rs⟩)
    (hq : jobEnd ⟨.move src b k, j, true, rs⟩ (readOutcome (Nand.page s.part.flash.nand (64 * src + k)) s.part.fresh (64 * src + k) ecc)
        (readBytes (Nand.page s.part.flash.nand (64 * src + k)) s.part.fresh (64 * src + k) ecc) true
        (notedRead rs src k ecc s.part (leftWith (Nand.put s.part.flash.nand (64 * b + k)
          (programmedPage (readBytes (Nand.page s.part.flash.nand (64 * src + k)) s.part.fresh (64 * src + k) ecc))) s.part)) = q) :
    exec (.moveEnd ecc true) s = .next { s with part := ringSpace s.part (arbitrate (finishAbandon q)) } :=
  exec_of_read_end (fun _ => rfl) ha hf hx (by simp [operationCode]) rfl hq

theorem exec_moveFailed (ha : alive s.part = true) (hf : s.part.power.forcedOff = false)
    (hx : s.part.flash.running = some ⟨.move src b k, j, true, rs⟩)
    (hq : jobEnd ⟨.move src b k, j, true, rs⟩ (readOutcome (Nand.page s.part.flash.nand (64 * src + k)) s.part.fresh (64 * src + k) ecc)
        (readBytes (Nand.page s.part.flash.nand (64 * src + k)) s.part.fresh (64 * src + k) ecc) false
        (notedRead rs src k ecc s.part (leftWith (Nand.put s.part.flash.nand (64 * b + k) .torn) s.part)) = q) :
    exec (.moveEnd ecc false) s = .next { s with part := ringSpace s.part (arbitrate (finishAbandon q)) } :=
  exec_of_read_end (fun _ => rfl) ha hf hx (by simp [operationCode]) rfl hq

end

/-! ### A programmed staging entry (R142, R145, R147) -/

/-- The part with a programmed entry out of the ring and counted in its record (R142). -/
def entryProgrammed (r page : Nat) (e : Staged) (s : Part) : Part :=
  { s with spool := { s.spool with
    ring := s.spool.ring.filter fun x => !(decide (x.record = r) && decide (x.page = page))
    records := tableSet s.spool.records r { record s r with programmed := (record s r).programmed + e.fill } } }

/-- With the BLOCK entry that follows the 64th page of a block (R145). -/
def blockPlaced (r page : Nat) (e : Staged) (s : Part) : Part :=
  if page % 64 = 63 then
    queueEntry (.block (byteOf r) (BitVec.ofNat 16 (page / 64)) (BitVec.ofNat 16 ((record s r).extent.getD (page / 64) 0)) e.crcAfter)
      (entryProgrammed r page e s)
  else entryProgrammed r page e s

theorem blockPlaced_spool (r page : Nat) (e : Staged) (s : Part) : (blockPlaced r page e s).spool = (entryProgrammed r page e s).spool := by
  unfold blockPlaced
  split <;> rfl

theorem stagingDone_of_none {r page : Nat} {s : Part} (h : stagedEntry r page s = none) : stagingDone r page s = s := by
  unfold stagingDone
  rw [h]

theorem stagingDone_of_found {r page : Nat} {e : Staged} {s : Part} (hr : r < 32) (h : stagedEntry r page s = some e) :
    stagingDone r page s = if (record s r).state = .sealing ∧ (∀ y, y ∈ (entryProgrammed r page e s).spool.ring → y.record ≠ r) then
        queueEntry (.sealed (byteOf r) (decide ((record s r).running.getD 0 ≠ (record s r).expected)) ((record s r).running.getD 0)
          (lastBlock (record s r))) (blockPlaced r page e s)
      else blockPlaced r page e s := by
  have hdone : modifyRecord r (fun v => { v with programmed := v.programmed + e.fill }) (leaveRing r page s) = entryProgrammed r page e s := rfl
  have hrecord (t : Part) (ht : t.spool = (entryProgrammed r page e s).spool) :
      record t r = { record s r with programmed := (record s r).programmed + e.fill } := by
    rw [record, ht]
    exact tableGet_tableSet_same _ _ _ _ hr
  have hplaced : (if page % 64 = 63 then
        queueEntry (.block (byteOf r) (BitVec.ofNat 16 (page / 64))
          (BitVec.ofNat 16 ((record (entryProgrammed r page e s) r).extent.getD (page / 64) 0)) e.crcAfter) (entryProgrammed r page e s)
      else entryProgrammed r page e s) = blockPlaced r page e s := by
    rw [hrecord _ rfl]
    rfl
  have hstaged : (!hasStaged r (blockPlaced r page e s)) = true ↔ ∀ y, y ∈ (entryProgrammed r page e s).spool.ring → y.record ≠ r := by
    rw [Bool.not_eq_true', ← Bool.not_eq_true, hasStaged_iff, blockPlaced_spool, not_exists]
    simp only [not_and, ne_eq]
  have hseal : compareSeal r (blockPlaced r page e s)
      = queueEntry (.sealed (byteOf r) (decide ((record s r).running.getD 0 ≠ (record s r).expected)) ((record s r).running.getD 0)
          (lastBlock (record s r))) (blockPlaced r page e s) := by
    rw [compareSeal, hrecord _ (blockPlaced_spool r page e s)]
    rfl
  unfold stagingDone
  rw [h]
  dsimp only
  rw [hdone, hplaced, hseal, hrecord _ rfl]
  exact if_congr (and_congr_right fun _ => hstaged) rfl rfl

/-! ### A written entry (R145, R147, R161, R165, R169) -/

/-- The part with an entry in what replay rebuilds (R169). -/
def journaledEntry (i : JItem) (s : Part) : Part :=
  modifyJournal (fun j => { j with journaled := applyEntry s.flash.factoryBad j.journaled i.entry }) s

theorem setRecord_record {r : Nat} (hr : r < 32) (s : Part) : setRecord r (record s r) s = s := by
  have hset : tableSet s.spool.records r (record s r) = s.spool.records :=
    tableSet_get s.spool.records hr ((tableGet_of_lt _ _ _ hr).trans (tableGet_of_lt _ _ _ hr).symm)
  rw [setRecord, hset]

section

variable {i : JItem} {s : Part}

theorem writtenEntry_sealed {r : Byte} {c : Bool} {z : Word} {l : Option (Half × Half)} (h : i.entry = .sealed r c z l) :
    writtenEntry s i = modifyFlash (endHolds (.entry i.serial))
      (if i.live = true ∧ (record s r.toNat).state = .sealing then
        raiseBoth .download (downloadDetail r.toNat (if c then 2 else 1) (record s r.toNat).title)
          (setRecord r.toNat
            { record s r.toNat with state := if c then .corrupt else .sealed, durable := (record s r.toNat).received,
                                    checkpoint := (record s r.toNat).running.getD 0 } (journaledEntry i s))
      else journaledEntry i s) := by
  have hwritten : writtenSeal r.toNat c (journaledEntry i s)
      = if (record s r.toNat).state = .sealing then
        raiseBoth .download (downloadDetail r.toNat (if c then 2 else 1) (record s r.toNat).title)
          (setRecord r.toNat
            { record s r.toNat with state := if c then .corrupt else .sealed, durable := (record s r.toNat).received,
                                    checkpoint := (record s r.toNat).running.getD 0 } (journaledEntry i s))
      else journaledEntry i s := rfl
  have hentry : writtenEntry s i = modifyFlash (endHolds (.entry i.serial))
      (if i.live = true then writtenSeal r.toNat c (journaledEntry i s) else journaledEntry i s) := by
    simp only [writtenEntry, h, journaledEntry]
  rw [hentry, hwritten]
  by_cases hl : i.live = true
  · rw [if_pos hl]
    exact congrArg _ (if_congr (and_iff_right hl).symm rfl rfl)
  · rw [if_neg hl, if_neg fun h => hl h.1]

theorem writtenEntry_block {r : Byte} {k b : Half} {z : Word} (h : i.entry = .block r k b z) (hr : r.toNat < 32) :
    writtenEntry s i = modifyFlash (endHolds (.entry i.serial))
      (if i.live = true ∧ (record s r.toNat).durable < min (262144 * (k.toNat + 1)) (record s r.toNat).declared then
        setRecord r.toNat { record s r.toNat with durable := min (262144 * (k.toNat + 1)) (record s r.toNat).declared, checkpoint := z }
          (journaledEntry i s)
      else journaledEntry i s) := by
  have hentry : writtenEntry s i = modifyFlash (endHolds (.entry i.serial))
      (if i.live = true then modifyRecord r.toNat (writtenBlock k z) (journaledEntry i s) else journaledEntry i s) := by
    simp only [writtenEntry, h, journaledEntry]
  have hblock : modifyRecord r.toNat (writtenBlock k z) (journaledEntry i s)
      = setRecord r.toNat (writtenBlock k z (record (journaledEntry i s) r.toNat)) (journaledEntry i s) := rfl
  rw [hentry, hblock]
  have hsame : record (journaledEntry i s) r.toNat = record s r.toNat := rfl
  by_cases hl : i.live = true
  · rw [if_pos hl]
    by_cases hd : (record s r.toNat).durable < min (262144 * (k.toNat + 1)) (record s r.toNat).declared
    · have hraised : writtenBlock k z (record s r.toNat)
          = { record s r.toNat with durable := min (262144 * (k.toNat + 1)) (record s r.toNat).declared, checkpoint := z } := if_pos hd
      rw [if_pos ⟨hl, hd⟩, hsame, hraised]
    · have hstays : writtenBlock k z (record s r.toNat) = record s r.toNat := if_neg hd
      rw [if_neg fun h => hd h.2, hsame, hstays, ← hsame, setRecord_record hr]
  · rw [if_neg hl, if_neg fun h => hl h.1]

/-- A REPLACE of no relocation in hand. -/
theorem writtenEntry_replace_other {r : Byte} {k old new : Half} (h : i.entry = .replace r k old new)
    (hs : ∀ x, s.flash.scrub = some x → x.replace ≠ some i.serial) :
    writtenEntry s i = modifyFlash (endHolds (.entry i.serial)) (journaledEntry i s) := by
  have hentry : writtenEntry s i = modifyFlash (endHolds (.entry i.serial)) (writtenReplace i.serial (journaledEntry i s)) := by
    simp only [writtenEntry, h, journaledEntry]
  have hscrub : (journaledEntry i s).flash.scrub = s.flash.scrub := rfl
  have hstays : writtenReplace i.serial (journaledEntry i s) = journaledEntry i s := by
    unfold writtenReplace
    rw [hscrub]
    cases hx : s.flash.scrub with
    | none => rfl
    | some x => exact if_neg (hs x hx)
  rw [hentry, hstays]

/-- An entry of another kind is only part of what replay rebuilds (R169). -/
theorem writtenEntry_other (hseal : ∀ r c z l, i.entry ≠ .sealed r c z l) (hblock : ∀ r k b z, i.entry ≠ .block r k b z)
    (hreplace : ∀ r k old new, i.entry ≠ .replace r k old new) :
    writtenEntry s i = modifyFlash (endHolds (.entry i.serial)) (journaledEntry i s) := by
  unfold writtenEntry
  cases he : i.entry with
  | sealed r c z l => exact absurd he (hseal r c z l)
  | block r k b z => exact absurd he (hblock r k b z)
  | replace r k old new => exact absurd he (hreplace r k old new)
  | _ => simp only [journaledEntry, he]

end

/-! ### Fetches -/

theorem worstSector_le {ecc : List Sector} {k : Nat} (h : ∀ n, .corrected n ∈ ecc → n ≤ k) (hk : anyFails ecc = false) : worstSector ecc ≤ k := by
  rcases (worstSector_spec hk).2 with h0 | hm
  · omega
  · exact h _ (List.mem_of_mem_take hm)

/-- A read that needs little correction tells the engine nothing (R159). -/
theorem noteRead_of_light (rs : Option (Nat × Word)) (b page : Nat) {n : Nat} (hn : n ≤ 5) (s : Part) : noteRead rs b page (.corrected n) s = s := by
  have hlight : heavy (.corrected n) = false := decide_eq_false (by omega)
  unfold noteRead
  split
  · rfl
  · simp [hlight]

/-- What is noted leaves the fetch buffers as they are. -/
theorem noteRead_fetch (rs : Option (Nat × Word)) (b page : Nat) (e : Ecc) (s : Part) (p : Port) :
    (port (noteRead rs b page e s) p).fetch = (port s p).fetch := by
  have hjoin : (if heavy e = true then joinScrub b s else s).ports = s.ports := by
    unfold joinScrub
    split
    · split <;> rfl
    · rfl
  have hdamage (q : Nat) (seq : Word) (t : Part) : (countDamage q seq t).ports = t.ports := by
    unfold countDamage
    split <;> rfl
  unfold noteRead
  split
  · rfl
  · next q seq =>
    dsimp only
    split
    · cases p
      · change ((countDamage q seq _).ports.a).fetch = _
        rw [hdamage, hjoin]
        rfl
      · change ((countDamage q seq _).ports.b).fetch = _
        rw [hdamage, hjoin]
        rfl
    · rw [port, hjoin]
      rfl

/-- A fetch whose page read ended (R152). -/
theorem fetchEnd_of_waiting {p : Port} {s : Part} {r offset n : Nat} (h : (port s p).fetch = .waiting r offset n false) (e : Ecc) (data : List Byte) :
    fetchEnd p e data s = { s with ports := s.ports.set p { raiseIn .fetchReady ([byteOf r] ++ le4 offset ++ le2 n ++ [byteOf (eccCode e)]) (port s p) with
      fetch := .ready r offset n e ((data.drop (offset % 4096)).take n) true } } := by
  unfold fetchEnd
  rw [h]
  cases p <;> rfl

/-! ### System writes -/

/-- The end of a system write, with its outcome (R70, R131, R166). -/
theorem endSystem_eq (k : SysKind) (outcome : List Byte) (s : Part) :
    endSystem k outcome s = setOutstanding k false { s with
      flash := { s.flash with system := s.flash.system.tail }
      ports := ⟨raiseIn .flash ([byteOf (systemCode k)] ++ outcome) s.ports.a, raiseIn .flash ([byteOf (systemCode k)] ++ outcome) s.ports.b⟩ } := rfl

theorem systemEnd_of_failed {job : SysJob} {rest : List SysJob} {s : Part} (h : s.flash.system = job :: rest) (code b : Nat) :
    systemEnd false code b s = endSystem job.kind ([1, byteOf code] ++ le2 b) s := by
  unfold systemEnd
  rw [h]
  rfl

theorem systemEnd_of_last {job : SysJob} {rest : List SysJob} {s : Part} (h : s.flash.system = job :: rest) (hs : systemSteps job.kind ≤ job.step + 1)
    (code b : Nat) : systemEnd true code b s = endSystem job.kind [0] s := by
  unfold systemEnd
  rw [h]
  exact if_pos hs

theorem systemEnd_of_more {job : SysJob} {rest : List SysJob} {s : Part} (h : s.flash.system = job :: rest) (hs : ¬ systemSteps job.kind ≤ job.step + 1)
    (code b : Nat) :
    systemEnd true code b s = { s with flash := { s.flash with system := { job with step := job.step + 1 } :: rest } } := by
  unfold systemEnd
  rw [h]
  exact if_neg hs

theorem runningCrc (x : Option Word) : (match x with
    | some w => w
    | none => 0) = x.getD 0 := by cases x <;> rfl

/-- Settles O40: each job's own lemma at the end of its operation, and the cases of a written entry. -/
theorem flashJobsEnd : Obligations.FlashJobsEnd := by
  refine ⟨?_, fun i s => ?_⟩
  · intro o j rs s ha hf hx m base settled queued becomes
    have hbecomes (i : Instr) (q : Part) (h : exec i s = .next { s with part := ringSpace s.part (arbitrate (finishAbandon q)) }) : becomes i q := h
    clear_value becomes
    refine ⟨?_, ?_, ?_, ?_, ?_, ?_, ?_⟩
    · rintro p r offset n b page data spare ecc rfl rfl hfetch hpage hlen hecc k detail ready
      have hreads : anyFails ecc = false := anyFails_eq_false.mpr fun y hy => by
        obtain ⟨c, hc, rfl⟩ := hecc y (List.mem_of_mem_take hy)
        exact ⟨c, by omega, rfl⟩
      have hk : worstSector ecc ≤ 5 := worstSector_le (fun c hc => by
        obtain ⟨d, hd, h⟩ := hecc _ hc
        cases h
        exact hd) hreads
      have houtcome : readOutcome (Nand.page m (64 * b + page)) s.part.fresh (64 * b + page) ecc = .corrected (worstSector ecc) := by
        rw [hpage]
        exact (readOutcome_of_reads _ _ hreads).1 data spare
      have hbytes : readBytes (Nand.page m (64 * b + page)) s.part.fresh (64 * b + page) ecc = data := by
        rw [hpage]
        exact page_ext (readBytes_length _ _ _ _) hlen fun i hi => byteAt_readBytes data spare _ _ ecc hi (byteFails_of_anyFails hreads hi)
      refine hbecomes _ _ (exec_readDone ha hf hx ?_)
      rw [notedRead, houtcome, hbytes, noteRead_of_light rs b page hk]
      exact fetchEnd_of_waiting (s := base m) hfetch (.corrected (worstSector ecc)) data
    · rintro p r offset n b page ecc rfl rfl hfetch a e code bytes noted told
      refine hbecomes _ _ (exec_readDone ha hf hx ?_)
      have hbuffer : (port noted p).fetch = .waiting r offset n false := (noteRead_fetch rs b page e (base m) p).trans hfetch
      have hcodes (e : Ecc) : byteOf (eccCode e) = match e with
          | .corrected k => byteOf k
          | .uncorrectable => 0xFE
          | .erased => 0 := by cases e <;> rfl
      have hcode : byteOf (eccCode e) = code := hcodes e
      refine (fetchEnd_of_waiting hbuffer e _).trans ?_
      rw [hcode]
    · rintro r page b k data e rfl rfl hr hfind v n ring x programmed entry placed crc final last done
      have hdone : stagingDone r page (base n) = done := by
        have hcrc : crc = v.running.getD 0 := runningCrc v.running
        have hplaced : placed = blockPlaced r page e (base n) := rfl
        refine (stagingDone_of_found (s := base n) hr hfind).trans (if_congr Iff.rfl ?_ hplaced.symm)
        rw [hplaced, hcrc]
        rfl
      clear_value done
      have hend : jobEnd ⟨.program b k data, .staging r page, true, rs⟩ .erased [] true (leftWith n s.part) = if v.ending = true then freeDownload r done else done := by
        rw [← hdone]
        rfl
      refine ⟨fun he => ?_, fun he => ?_⟩
      · refine hbecomes _ _ (exec_programDone ha hf hx ?_)
        rw [hend, if_neg (by simp [he])]
      · refine hbecomes _ _ (exec_programDone ha hf hx ?_)
        rw [hend, if_pos he]
    · rintro r page b k data rfl rfl he hroom hworn x begun
      refine hbecomes _ _ (exec_programFailed ha hf hx ?_)
      have hfails : ¬ (!(record s.part r).ending && (retiredFull x || decide (s.part.flash.spool = .worn))) = true := by
        have hfull : retiredFull x = false := decide_eq_false (by
          change ¬ 40 ≤ s.part.flash.retired.length
          omega)
        simp [he, hfull, hworn]
      exact if_neg hfails
    · rintro b rfl rfl x
      exact hbecomes _ _ (exec_eraseDone ha hf hx rfl)
    · rintro ⟨kind', step, image⟩ rest rfl hsys last kind ended goes
      have hended (y : Part) (hy : y.flash.system = ⟨kind', step, image⟩ :: rest) (outcome : List Byte) : endSystem kind' outcome y = ended outcome y := by
        rw [endSystem_eq, hy]
        cases kind' <;> rfl
      have hsteps : systemSteps kind' ≤ step + 1 ↔ ¬ step < last := by
        have hlast : systemSteps kind' = last + 1 := by cases kind' <;> rfl
        omega
      have hgoes (y : Part) (hy : y.flash.system = ⟨kind', step, image⟩ :: rest) (code b : Nat) : systemEnd true code b y = goes y := by
        by_cases hl : step < last
        · exact (systemEnd_of_more hy (fun h => hsteps.mp h hl) code b).trans (if_pos hl).symm
        · exact (systemEnd_of_last hy (hsteps.mpr hl) code b).trans ((hended y hy [0]).trans (if_neg hl).symm)
      have hfailed (y : Part) (hy : y.flash.system = ⟨kind', step, image⟩ :: rest) (code b : Nat) :
          systemEnd false code b y = ended ([1, byteOf code] ++ le2 b) y := (systemEnd_of_failed hy code b).trans (hended y hy _)
      refine ⟨?_, ?_⟩
      · rintro b k data rfl
        exact ⟨hbecomes _ _ (exec_programDone ha hf hx (hgoes (base (Nand.put m (64 * b + k) (programmedPage data))) hsys 1 b)),
          hbecomes _ _ (exec_programFailed ha hf hx (hfailed (base (Nand.put m (64 * b + k) .torn)) hsys 1 b))⟩
      · rintro b rfl
        exact ⟨hbecomes _ _ (exec_eraseDone ha hf hx (hgoes (base (Nand.eraseBlock m b)) hsys 0 b)),
          hbecomes _ _ (exec_eraseFailed ha hf hx (hfailed (base (Nand.tearBlock m b)) hsys 0 b))⟩
    · rintro b k data count rfl rfl x g written
      exact hbecomes _ _ (exec_programDone ha hf hx rfl)
  · intro t f kept
    have hkept : modifyFlash (endHolds (.entry i.serial)) (journaledEntry i s) = kept := rfl
    refine ⟨?_, ?_, fun r k old new hi hs => ?_, fun hseal hblock hreplace => ?_⟩
    · intro r c z l hi hr v crc detail settled
      have hdetail : downloadDetail r.toNat (if c then 2 else 1) v.title = detail := by
        have hr' : byteOf r.toNat = r := BitVec.ofNat_toNat 8 r |>.trans (BitVec.setWidth_eq r)
        rw [downloadDetail, hr']
        cases c <;> rfl
      refine (writtenEntry_sealed hi).trans ?_
      by_cases h : i.live = true ∧ v.state = .sealing
      · have hsettled : { v with state := if c then .corrupt else .sealed, durable := v.received, checkpoint := v.running.getD 0 } = settled :=
          congrArg (fun w => { v with state := if c then .corrupt else .sealed, durable := v.received, checkpoint := w }) (runningCrc v.running).symm
        rw [if_pos h, if_pos h, hdetail, hsettled]
        rfl
      · rw [if_neg h, if_neg h, hkept]
    · intro r k b z hi hr v length raised
      refine (writtenEntry_block hi hr).trans ?_
      by_cases h : i.live = true ∧ v.durable < length
      · rw [if_pos h, if_pos h]
        rfl
      · rw [if_neg h, if_neg h, hkept]
    · exact (writtenEntry_replace_other hi hs).trans hkept
    · exact (writtenEntry_other hseal hblock hreplace).trans hkept

end Sys2Proof.Machine
end

section
/-! PROOFS. The parts of maintenance: the block that the scrubber may take, a retirement (R162), what a read notes (R159), and
a written REPLACE of a scrub (R165). -/

namespace Sys2Proof.Machine

/-! ### The record and position of a block -/

theorem blockOwner_eq (b : Nat) (s : Part) :
    blockOwner b s = ((List.range 32).find? fun i => decide (b ∈ (record s i).extent)).map fun i => (i, (record s i).extent.idxOf b) := by
  rw [blockOwner, records_eq, List.find?_map, Option.map_map]
  rfl

/-- Blocks are in one place of one extent at most. -/
def PlacedOnce (b : Nat) (s : Part) : Prop :=
  (∀ i j, i < 32 → j < 32 → b ∈ (record s i).extent → b ∈ (record s j).extent → i = j) ∧ ∀ i, i < 32 → (record s i).extent.Nodup

theorem blockOwner_eq_some {b r k : Nat} {s : Part} (h : PlacedOnce b s) :
    blockOwner b s = some (r, k) ↔ r < 32 ∧ (record s r).extent[k]? = some b := by
  rw [blockOwner_eq, Option.map_eq_some_iff]
  constructor
  · rintro ⟨i, hi, heq⟩
    cases heq
    have hmem : b ∈ (record s r).extent := by simpa using List.find?_some hi
    exact ⟨List.mem_range.mp (List.mem_of_find?_eq_some hi), List.getElem?_idxOf hmem⟩
  · rintro ⟨hr, hk⟩
    have hmem : b ∈ (record s r).extent := List.mem_of_getElem? hk
    obtain ⟨i, hi⟩ : ∃ i, ((List.range 32).find? fun i => decide (b ∈ (record s i).extent)) = some i := by
      rw [← Option.isSome_iff_exists, List.find?_isSome]
      exact ⟨r, List.mem_range.mpr hr, decide_eq_true hmem⟩
    have hin : b ∈ (record s i).extent := by simpa using List.find?_some hi
    have hir : i = r := h.1 i r (List.mem_range.mp (List.mem_of_find?_eq_some hi)) hr hin hmem
    subst hir
    obtain ⟨hlt, hget⟩ := List.getElem?_eq_some_iff.mp hk
    refine ⟨_, hi, ?_⟩
    rw [← hget, (h.2 _ hr).idxOf_getElem k hlt]

/-- R165: the record and position of a block that the scrubber may take. -/
theorem scrubbable_eq_some {b r k : Nat} {s : Part} (h : PlacedOnce b s) :
    scrubbable b s = some (r, k) ↔ r < 32 ∧ (record s r).extent[k]? = some b ∧ k + 1 < (record s r).extent.length := by
  have howner := blockOwner_eq_some (r := r) (k := k) h
  unfold scrubbable
  cases ho : blockOwner b s with
  | none =>
    rw [ho] at howner
    refine iff_of_false (fun h => nomatch h) fun ⟨hr, hk, _⟩ => ?_
    cases howner.mpr ⟨hr, hk⟩
  | some x =>
    obtain ⟨q, m⟩ := x
    rw [ho] at howner
    dsimp only
    constructor
    · intro hs
      have hlen : m + 1 < (record s q).extent.length := by
        by_contra hn
        rw [if_neg hn] at hs
        cases hs
      rw [if_pos hlen] at hs
      cases hs
      obtain ⟨hr, hk⟩ := howner.mp rfl
      exact ⟨hr, hk, hlen⟩
    · rintro ⟨hr, hk, hlen⟩
      cases howner.mpr ⟨hr, hk⟩
      exact if_pos hlen

/-- The scrubber may take a block that is in an extent and not its last entry. -/
theorem scrubbable_isSome {b : Nat} {s : Part} (h : PlacedOnce b s) :
    (scrubbable b s).isSome = true ↔ ∃ i, i < 32 ∧ b ∈ (record s i).extent ∧ (record s i).extent.getLast? ≠ some b := by
  rw [Option.isSome_iff_exists]
  constructor
  · rintro ⟨⟨r, k⟩, hs⟩
    obtain ⟨hr, hk, hlen⟩ := (scrubbable_eq_some h).mp hs
    refine ⟨r, hr, List.mem_of_getElem? hk, fun hlast => ?_⟩
    rw [List.getLast?_eq_getElem?] at hlast
    obtain ⟨hlt, hget⟩ := List.getElem?_eq_some_iff.mp hk
    obtain ⟨hlt', hget'⟩ := List.getElem?_eq_some_iff.mp hlast
    have hsame := (h.2 r hr).getElem_inj_iff.mp (hget.trans hget'.symm)
    omega
  · rintro ⟨i, hi, hmem, hlast⟩
    obtain ⟨k, hlt, hget⟩ := List.getElem_of_mem hmem
    refine ⟨(i, k), (scrubbable_eq_some h).mpr ⟨hi, List.getElem?_eq_some_iff.mpr ⟨hlt, hget⟩, ?_⟩⟩
    by_contra hn
    refine hlast ?_
    rw [List.getLast?_eq_getElem?, List.getElem?_eq_some_iff]
    have hk : (record s i).extent.length - 1 = k := by omega
    exact ⟨by omega, by simp only [hk, hget]⟩

/-! ### Retirement (R162) -/

/-- The part with a block retired, before reservations are cut. -/
def retiredPart (b cause : Nat) (s : Part) : Part :=
  raiseBoth .flash ([1] ++ le2 b ++ [byteOf cause, byteOf (s.flash.retired.length + 1)])
    { s with flash := { s.flash with
      journal := appendEntry (.retire (BitVec.ofNat 16 b) false) s.flash.journal
      retired := s.flash.retired ++ [b]
      erasePending := s.flash.erasePending.filter fun e => decide (e.block ≠ b)
      free := s.flash.free.filter fun x => decide (x ≠ b) } }

theorem retiredFull_iff {s : Part} : retiredFull s = true ↔ 40 ≤ s.flash.retired.length := decide_eq_true_iff

theorem retire_of_full {b cause : Nat} {s : Part} (h : 40 ≤ s.flash.retired.length) :
    retire b cause s = raiseBoth .flash ([2] ++ le2 b)
      { s with flash := { s.flash with
        journal := appendEntry (.retire (BitVec.ofNat 16 b) true) s.flash.journal, spool := if s.flash.spool = .ready then .worn else s.flash.spool } } :=
  if_pos (retiredFull_iff.mpr h)

theorem retire_of_room {b cause : Nat} {s : Part} (h : s.flash.retired.length < 40) :
    retire b cause s = cutReservations (retiredPart b cause s) := by
  have hroom : ¬ retiredFull s = true := fun hf => absurd (retiredFull_iff.mp hf) (by omega)
  refine (if_neg hroom).trans ?_
  have hlen : (s.flash.retired ++ [b]).length = s.flash.retired.length + 1 := List.length_append
  rw [retiredPart, ← hlen]
  rfl

/-- What a retirement with room in the list leaves (R162). -/
theorem retire_spec {b cause : Nat} {s : Part} (h : s.flash.retired.length < 40) :
    let t := retire b cause s
    let u := retiredPart b cause s
    t = { u with spool := { u.spool with records := t.spool.records } }
      ∧ (∀ r, r < 32 → ∃ n, n ≤ (record s r).reservation ∧ record t r = { record s r with reservation := n })
      ∧ (totalReservation s ≤ poolBlocks t → t.spool = s.spool)
      ∧ (poolBlocks t < totalReservation s →
          (totalReservation t = poolBlocks t ∨ ∀ r, r < 32 → drawing (record s r) → (record t r).reservation = 0)
          ∧ ∀ r, r < 32 → (record t r).reservation ≠ (record s r).reservation →
              drawing (record s r) ∧ ∀ i, i < 32 → (record s r).seq < (record s i).seq → drawing (record s i) → (record t i).reservation = 0) := by
  intro t u
  have ht : t = cutReservations u := retire_of_room h
  obtain ⟨hcut, hend⟩ := cutReservations_spec u
  rw [← ht] at hcut hend
  have hpool : poolBlocks t = poolBlocks u := by rw [hcut.frame]; rfl
  have hrecord (r : Nat) : record u r = record s r := rfl
  have htotal : totalReservation u = totalReservation s := rfl
  refine ⟨hcut.frame, hcut.each, fun hfits => ?_, fun hover => ⟨?_, hcut.order⟩⟩
  · rw [hpool, ← htotal] at hfits
    rw [ht, cutReservations_of_fits hfits]
    rfl
  · rcases hend with hle | hnone
    · rcases hcut.short with hsame | hge
      · rw [hpool, ← htotal] at hover
        rw [hsame] at hle
        omega
      · exact .inl (by omega)
    · refine .inr fun r hr hdraw => ?_
      obtain ⟨n, _, hn⟩ := hcut.each r hr
      have hstate : drawing (record t r) := by rw [hn]; exact hdraw
      by_contra hzero
      exact absurd (cuttable_iff.mpr ⟨by omega, hstate⟩) (by simp [hnone r hr])

/-! ### What a read of a page notes (R159) -/

theorem heavy_iff {e : Ecc} : heavy e = true ↔ e = .uncorrectable ∨ ∃ n, e = .corrected n ∧ 6 ≤ n := by
  cases e <;> simp [heavy]

theorem concerns_iff {r : Nat} {seq : Word} {s : Part} : concerns r seq s = true ↔ (record s r).state ≠ .free ∧ (record s r).seq = seq := by
  simp only [concerns, Bool.and_eq_true, decide_eq_true_eq]

theorem min_succ_eq (n : Nat) : min 255 (n + 1) = if n < 255 then n + 1 else 255 := by
  split <;> omega

section

variable {r : Nat} {seq : Word} {b page : Nat} {e : Ecc} {s : Part}

/-- The part with the block on the scrub list, where the outcome and the list call for it. -/
def scrubNoted (e : Ecc) (b : Nat) (s : Part) : Part := if heavy e = true then joinScrub b s else s

theorem scrubNoted_of_joins (he : heavy e = true) (hs : (scrubbable b s).isSome = true) (hb : b ∉ s.flash.scrubList) (hl : s.flash.scrubList.length < 8) :
    scrubNoted e b s = { s with flash := { s.flash with scrubList := s.flash.scrubList ++ [b] } } :=
  (if_pos he).trans (if_pos ⟨hs, hb, hl⟩)

theorem scrubNoted_of_not (h : ¬ (heavy e = true ∧ (scrubbable b s).isSome = true ∧ b ∉ s.flash.scrubList ∧ s.flash.scrubList.length < 8)) :
    scrubNoted e b s = s := by
  unfold scrubNoted
  split
  · next he => exact if_neg fun hj => h ⟨he, hj⟩
  · rfl

theorem scrubNoted_spool (e : Ecc) (b : Nat) (s : Part) : (scrubNoted e b s).spool = s.spool := by
  unfold scrubNoted joinScrub
  split
  · split <;> rfl
  · rfl

theorem noteRead_of_readable (he : e ≠ .uncorrectable) : noteRead (some (r, seq)) b page e s = scrubNoted e b s := if_neg he

theorem noteRead_of_damaged (hr : concerns r seq s = true) :
    noteRead (some (r, seq)) b page .uncorrectable s = raiseBoth .flash ([0, byteOf r] ++ le2 b ++ [byteOf page])
      (setRecord r { record s r with damaged := if (record s r).damaged < 255 then (record s r).damaged + 1 else 255 } (scrubNoted .uncorrectable b s)) := by
  have hspool := scrubNoted_spool .uncorrectable b s
  have hsame : record (scrubNoted .uncorrectable b s) r = record s r := by rw [record, hspool]; rfl
  have hcounted : countDamage r seq (scrubNoted .uncorrectable b s)
      = modifyRecord r (fun v => { v with damaged := min 255 (v.damaged + 1) }) (scrubNoted .uncorrectable b s) := by
    refine if_pos ?_
    rw [concerns_iff, hsame]
    exact concerns_iff.mp hr
  have hnoted : noteRead (some (r, seq)) b page .uncorrectable s
      = raiseFlash ([0, byteOf r] ++ le2 b ++ [byteOf page]) (countDamage r seq (scrubNoted .uncorrectable b s)) := rfl
  rw [hnoted, hcounted, modifyRecord, hsame, min_succ_eq]
  rfl

theorem noteRead_of_freed (hr : ¬ concerns r seq s = true) :
    noteRead (some (r, seq)) b page .uncorrectable s = raiseBoth .flash ([0, byteOf r] ++ le2 b ++ [byteOf page]) (scrubNoted .uncorrectable b s) := by
  have hspool := scrubNoted_spool .uncorrectable b s
  have hsame : record (scrubNoted .uncorrectable b s) r = record s r := by rw [record, hspool]; rfl
  have hcounted : countDamage r seq (scrubNoted .uncorrectable b s) = scrubNoted .uncorrectable b s := by
    refine if_neg ?_
    rw [concerns_iff, hsame]
    exact fun h => hr (concerns_iff.mpr h)
  have hnoted : noteRead (some (r, seq)) b page .uncorrectable s
      = raiseFlash ([0, byteOf r] ++ le2 b ++ [byteOf page]) (countDamage r seq (scrubNoted .uncorrectable b s)) := rfl
  rw [hnoted, hcounted]
  rfl

end

/-! ### A written REPLACE of a scrub (R165) -/

section

variable {i : JItem} {x : Scrub} {s : Part}

/-- The relocation in hand ended, and its head off the scrub list. -/
def scrubSettled (x : Scrub) (s : Part) : Part :=
  { s with flash := { s.flash with scrub := none, scrubList := s.flash.scrubList.filter fun b => decide (b ≠ x.old) } }

theorem writtenEntry_replace (he : ∃ r k old new, i.entry = .replace r k old new) (hs : s.flash.scrub = some x) (hx : x.replace = some i.serial) :
    writtenEntry s i = modifyFlash (endHolds (.entry i.serial))
      (if (record s x.record).extent[x.position]? = some x.old then
        raiseBoth .flash ([3, byteOf x.record] ++ le2 x.old ++ le2 x.target) (modifyFlash (pendBlocks .free [x.old])
          (setRecord x.record { record s x.record with extent := (record s x.record).extent.set x.position x.target } (scrubSettled x (journaledEntry i s))))
      else modifyFlash (pendBlocks .free [x.target]) (scrubSettled x (journaledEntry i s))) := by
  obtain ⟨r, k, old, new, he⟩ := he
  have hentry : writtenEntry s i = modifyFlash (endHolds (.entry i.serial)) (writtenReplace i.serial (journaledEntry i s)) := by
    simp only [writtenEntry, he, journaledEntry]
  have hscrub : (journaledEntry i s).flash.scrub = some x := hs
  have hreplace : writtenReplace i.serial (journaledEntry i s)
      = if (record s x.record).extent[x.position]? = some x.old then
        raiseBoth .flash ([3, byteOf x.record] ++ le2 x.old ++ le2 x.target) (modifyFlash (pendBlocks .free [x.old])
          (setRecord x.record { record s x.record with extent := (record s x.record).extent.set x.position x.target } (scrubSettled x (journaledEntry i s))))
      else modifyFlash (pendBlocks .free [x.target]) (scrubSettled x (journaledEntry i s)) := by
    unfold writtenReplace
    rw [hscrub]
    exact if_pos hx
  rw [hentry, hreplace]

end

end Sys2Proof.Machine
end

section
/-! PROOFS. What an ended operation does for a compaction, a failed journal write, an allocation and a scrub
(`MaintenanceJobsEnd`). -/

namespace Sys2Proof.Machine

/-! ### Compaction (R170) -/

section

variable {c : Compaction} {s : Part}

theorem compactionStep_of_erased (h : s.flash.journal.compaction = some c) (he : c.isErased = false) (hp : c.page < c.pages.length) :
    compactionStep s = modifyJournal (fun j => { j with compaction := some { c with isErased := true } }) s := by
  have hstep : (if c.isErased = true then { c with page := c.page + 1 } else { c with isErased := true } : Compaction) = { c with isErased := true } :=
    if_neg (by simp [he])
  unfold compactionStep
  rw [h]
  dsimp only
  rw [hstep]
  exact if_neg (by simpa using hp)

theorem compactionStep_of_more (h : s.flash.journal.compaction = some c) (he : c.isErased = true) (hp : c.page + 1 < c.pages.length) :
    compactionStep s = modifyJournal (fun j => { j with compaction := some { c with page := c.page + 1 } }) s := by
  have hstep : (if c.isErased = true then { c with page := c.page + 1 } else { c with isErased := true } : Compaction) = { c with page := c.page + 1 } :=
    if_pos he
  unfold compactionStep
  rw [h]
  dsimp only
  rw [hstep]
  exact if_neg (by simpa using hp)

theorem compactionStep_of_last (h : s.flash.journal.compaction = some c) (he : c.isErased = true) (hp : c.pages.length ≤ c.page + 1) :
    compactionStep s = compactionWritten c s := by
  have hstep : (if c.isErased = true then { c with page := c.page + 1 } else { c with isErased := true } : Compaction) = { c with page := c.page + 1 } :=
    if_pos he
  unfold compactionStep
  rw [h]
  dsimp only
  rw [hstep]
  exact if_pos hp

end

/-! ### A journal failure (R171) -/

/-- A port's unit after the ring was emptied: Port B's may have RING_SPACE raised (R141). -/
def ringToldUnit (s : Part) (p : Port) : PortUnit :=
  if p = .B ∧ s.spool.arm = true ∧ 32 ≤ s.spool.ring.length then raiseIn .ringSpace [0] (port s p) else port s p

theorem ringToldUnit_fetch (s : Part) (p : Port) : (ringToldUnit s p).fetch = (port s p).fetch := by
  unfold ringToldUnit
  split <;> rfl

theorem port_emptySpool (s : Part) (p : Port) : port (emptySpool s) p = endedUnit (inUse s) (ringToldUnit s p) := by
  rw [emptySpool_eq]
  cases p with
  | A =>
    have hsame : ringToldUnit s .A = s.ports.a := if_neg fun h => nomatch h.1
    rw [hsame]
    rfl
  | B =>
    have hraised : ringToldUnit s .B = ringEmptiedUnit s := by
      simp only [ringToldUnit, ringEmptiedUnit, true_and]
      rfl
    rw [hraised]
    rfl

theorem notice_raiseIn_same (k : NoticeKind) (d : List Byte) (u : PortUnit) : notice (raiseIn k d u).notices k = some (raised (notice u.notices k) d) :=
  notice_setNotice_same _ _ _

theorem notice_raiseIn_other {j k : NoticeKind} (h : j ≠ k) (d : List Byte) (u : PortUnit) : notice (raiseIn k d u).notices j = notice u.notices j :=
  notice_setNotice_other h _ _

theorem notice_endedUnit {k : NoticeKind} (h : k ≠ .fetchReady) (freed : Nat → Bool) (u : PortUnit) :
    notice (endedUnit freed u).notices k = notice u.notices k := by
  unfold endedUnit
  split
  · split
    · exact notice_raiseIn_other h _ u
    · rfl
  · rfl

/-- What a failed journal write or compaction step makes of the part (R171). -/
theorem journalFailure_eq (b code : Nat) (s : Part) :
    journalFailure b code s = raiseBoth .flash ([7] ++ le2 b ++ [byteOf code]) { emptySpool s with
      flash := { s.flash with
        running := (emptySpool s).flash.running, spool := .faulted, scrubList := [], scrub := none, recovery := none
        journal := { s.flash.journal with batch := [], compaction := none }
        erasePending := s.flash.erasePending
          ++ ((s.flash.scrub.map Scrub.target).toList ++ (s.flash.recovery.bind Recovery.target).toList).map
            (fun x => { block := x, hold := .free })
          ++ (s.spool.records.toList.flatMap Record.extent).map fun x => { block := x, hold := .unrecorded } } } := by
  have hflash : (emptySpool s).flash = { s.flash with running := (emptySpool s).flash.running } := by rw [emptySpool_eq]
  unfold journalFailure
  dsimp only [modifyFlash, pendBlocks, raiseFlash]
  rw [hflash]
  rfl

/-! ### Allocation and scrub targets (R143, R165) -/

section

variable {r b : Nat} {s : Part}

theorem needsBlock_iff {e : Staged} : needsBlock e s = true ↔ e.page % 64 = 0 ∧ (record s e.record).extent.length ≤ e.page / 64 := by
  simp only [needsBlock, Bool.and_eq_true, decide_eq_true_eq]

theorem allocationErased_of_needed {e : Staged} (h : oldestFullOf r s = some e) (hn : needsBlock e s = true ∧ mayDraw r s = true ∧ s.flash.recovery = none)
    (hr : r < 32) :
    allocationErased r b s = { s with
      flash := { s.flash with erasePending := s.flash.erasePending.filter fun e => decide (e.block ≠ b) }
      spool := { s.spool with
        records := tableSet s.spool.records r { record s r with extent := (record s r).extent ++ [b], reservation := (record s r).reservation - 1 } } } := by
  obtain ⟨hneeds, hdraws, hrec⟩ := hn
  have htaken : allocationErased r b s = takeBlock r b (modifyFlash (unpend b) s) := by
    unfold allocationErased
    rw [h]
    exact if_pos ⟨hneeds, hdraws, by simp [hrec]⟩
  have hdrawn : drawReservation r (modifyFlash (unpend b) s)
      = setRecord r { record s r with reservation := (record s r).reservation - 1 } (modifyFlash (unpend b) s) := rfl
  rw [htaken, takeBlock, hdrawn, extend, modifyRecord, record_setRecord_same _ _ _ hr, setRecord, setRecord_spool]
  simp only [tableSet_tableSet]
  rfl

theorem allocationErased_of_not {e : Staged} (h : oldestFullOf r s = some e) (hn : ¬ (needsBlock e s = true ∧ mayDraw r s = true ∧ s.flash.recovery = none)) :
    allocationErased r b s = modifyFlash (joinFree b) s := by
  unfold allocationErased
  rw [h]
  exact if_neg fun hc => hn ⟨hc.1, hc.2.1, Option.isNone_iff_eq_none.mp hc.2.2⟩

theorem allocationErased_of_none (h : oldestFullOf r s = none) : allocationErased r b s = modifyFlash (joinFree b) s := by
  unfold allocationErased
  rw [h]

theorem scrubTargetErased_of_taken {h k : Nat} {rest : List Nat} (hl : s.flash.scrubList = h :: rest) (hs : scrubbable h s = some (r, k))
    (hp : totalReservation s < poolBlocks s) :
    scrubTargetErased b s = { s with flash := { s.flash with
      erasePending := s.flash.erasePending.filter fun e => decide (e.block ≠ b)
      scrub := some { record := r, position := k, old := h, target := b, moved := 0, replace := none } } } := by
  unfold scrubTargetErased
  rw [hl]
  dsimp only
  rw [hs]
  exact if_neg (by omega)

theorem scrubTargetErased_of_dropped {h : Nat} {rest : List Nat} (hl : s.flash.scrubList = h :: rest)
    (hs : scrubbable h s = none ∨ poolBlocks s ≤ totalReservation s) :
    scrubTargetErased b s = { s with flash := { s.flash with
      erasePending := s.flash.erasePending.filter (fun e => decide (e.block ≠ b)), free := insertAscending b s.flash.free
      scrubList := s.flash.scrubList.tail } } := by
  have hpooled : scrubTargetErased b s = modifyFlash (joinFree b) (dropScrubHead s) := by
    unfold scrubTargetErased
    rw [hl]
    dsimp only
    cases hx : scrubbable h s with
    | none => rfl
    | some x =>
      rw [hx] at hs
      exact if_pos (hs.resolve_left fun h => nomatch h)
  exact hpooled

end

/-! ### Scrub moves (R165) -/

/-- What a read notes touches only the scrub list of the flash engine. -/
theorem noteRead_flash (rs : Option (Nat × Word)) (b page : Nat) (e : Ecc) (s : Part) :
    (noteRead rs b page e s).flash = { s.flash with scrubList := (noteRead rs b page e s).flash.scrubList } := by
  have hjoin : (scrubNoted e b s).flash = { s.flash with scrubList := (scrubNoted e b s).flash.scrubList } := by
    unfold scrubNoted joinScrub
    split
    · split <;> rfl
    · rfl
  have hdamage (q : Nat) (seq : Word) (t : Part) : (countDamage q seq t).flash = t.flash := by
    unfold countDamage
    split <;> rfl
  cases rs with
  | none =>
    have hsame : noteRead none b page e s = s := rfl
    rw [hsame]
  | some x =>
    obtain ⟨r, seq⟩ := x
    by_cases he : e = .uncorrectable
    · have hflash : (noteRead (some (r, seq)) b page e s).flash = (scrubNoted e b s).flash := by
        have hnoted : noteRead (some (r, seq)) b page e s = raiseFlash ([0, byteOf r] ++ le2 b ++ [byteOf page]) (countDamage r seq (scrubNoted e b s)) :=
          if_pos he
        rw [hnoted]
        exact hdamage r seq (scrubNoted e b s)
      rw [hflash]
      exact hjoin
    · rw [noteRead_of_readable he]
      exact hjoin

section

variable {x : Scrub} {s : Part}

theorem scrubEnd_of_more (h : s.flash.scrub = some x) (hm : x.moved + 1 < 64) :
    scrubEnd true s = { s with flash := { s.flash with scrub := some { x with moved := x.moved + 1 } } } := by
  unfold scrubEnd
  rw [h]
  exact if_pos hm

theorem scrubEnd_of_last (h : s.flash.scrub = some x) (hm : 64 ≤ x.moved + 1) :
    scrubEnd true s = { s with flash := { s.flash with
      scrub := some { x with moved := x.moved + 1, replace := some s.flash.journal.nextSerial }
      journal := appendEntry (.replace (byteOf x.record) (BitVec.ofNat 16 x.position) (BitVec.ofNat 16 x.old) (BitVec.ofNat 16 x.target))
        s.flash.journal } } := by
  have hm' : ¬ x.moved + 1 < Config.blockPages := Nat.not_lt.mpr hm
  unfold scrubEnd
  rw [h]
  exact if_neg hm'

theorem scrubEnd_of_failed (h : s.flash.scrub = some x) :
    scrubEnd false s = retire x.target 0
      (if retiredFull (scrubSettled x s) then modifyFlash (pendBlocks .free [x.target]) (scrubSettled x s) else scrubSettled x s) := by
  unfold scrubEnd
  rw [h]
  rfl

end

/-- What a failed journal write leaves in a port's unit: FLASH, RING_SPACE for an armed ring, and its fetch ended. -/
theorem port_journalFailure (b code : Nat) (s : Part) (p : Port) :
    port (journalFailure b code s) p
      = raiseIn .flash ([7] ++ le2 b ++ [byteOf code]) (endedUnit (inUse s) (ringToldUnit s p)) := by
  have hport : port (journalFailure b code s) p = raiseIn .flash ([7] ++ le2 b ++ [byteOf code]) (port (emptySpool s) p) := by
    rw [journalFailure_eq]
    cases p <;> rfl
  rw [hport, port_emptySpool]

/-- A queued fetch leaves no trace in the notices but its own. -/
theorem notice_ringToldUnit (s : Part) (p : Port) (k : NoticeKind) :
    notice (ringToldUnit s p).notices k = if k = .ringSpace ∧ p = .B ∧ s.spool.arm = true ∧ 32 ≤ s.spool.ring.length then
        some (raised (notice (port s p).notices .ringSpace) [0])
      else notice (port s p).notices k := by
  unfold ringToldUnit
  by_cases hc : p = .B ∧ s.spool.arm = true ∧ 32 ≤ s.spool.ring.length
  · rw [if_pos hc]
    by_cases hk : k = .ringSpace
    · subst hk
      rw [if_pos ⟨rfl, hc⟩]
      exact notice_raiseIn_same _ _ _
    · rw [if_neg fun h => hk h.1]
      exact notice_raiseIn_other hk _ _
  · rw [if_neg hc, if_neg fun h => hc h.2]

/-- Port by port, what a failed journal write raises, and how a fetch ends (R141, R152, R171). -/
theorem failedUnit_spec (s : Part) (p : Port) (detail : List Byte) :
    let u := port s p
    let w := raiseIn .flash detail (endedUnit (inUse s) (ringToldUnit s p))
    notice w.notices .flash = some (raised (notice u.notices .flash) detail)
      ∧ (∀ k, k ≠ .flash → k ≠ .fetchReady → notice w.notices k =
          if k = .ringSpace ∧ p = .B ∧ s.spool.arm = true ∧ 32 ≤ s.spool.ring.length then some (raised (notice u.notices .ringSpace) [0])
          else notice u.notices k)
      ∧ (match u.fetch with
        | .waiting r a _ _ =>
            if (record s r).state = .free then w.fetch = u.fetch
            else w.fetch = .empty ∧ notice w.notices .fetchReady
              = some (raised (notice u.notices .fetchReady) ([BitVec.ofNat 8 r] ++ le4 a ++ [0, 0, 0xFD]))
        | _ => w.fetch = u.fetch) := by
  intro u w
  refine ⟨?_, fun k hk hk' => ?_, ?_⟩
  · have hflash : notice w.notices .flash = _ := notice_raiseIn_same _ _ _
    rw [hflash, notice_endedUnit (by decide), notice_ringToldUnit, if_neg fun h => nomatch h.1]
  · have hother : notice w.notices k = _ := notice_raiseIn_other hk _ _
    rw [hother, notice_endedUnit hk', notice_ringToldUnit]
  · have hfetch : (ringToldUnit s p).fetch = u.fetch := ringToldUnit_fetch s p
    have hw : w.fetch = (endedUnit (inUse s) (ringToldUnit s p)).fetch := rfl
    split
    · next r a n b hwait =>
      split
      · next hfree =>
        have hkept : fetchEnds (inUse s) (ringToldUnit s p) = false := by
          rw [fetchEnds, hfetch, hwait]
          exact decide_eq_false fun h => h hfree
        rw [hw, endedUnit_of_not hkept]
        exact hfetch
      · next hfree =>
        have hother : notice w.notices .fetchReady = _ := notice_raiseIn_other (by decide) _ _
        rw [hw, hother, endedUnit_of_waiting (hfetch.trans hwait) (decide_eq_true hfree)]
        refine ⟨rfl, (notice_raiseIn_same _ _ _).trans ?_⟩
        rw [notice_ringToldUnit, if_neg fun h => nomatch h.1]
        rfl
    · next hnot =>
      have hkept : fetchEnds (inUse s) (ringToldUnit s p) = false := by
        rw [← Bool.not_eq_true, fetchEnds_iff]
        rintro ⟨r, a, n, b, hwait, -⟩
        exact hnot r a n b (hfetch.symm.trans hwait)
      rw [hw, endedUnit_of_not hkept]
      exact hfetch

/-- The erase-pending list with the holds of one kind ended (R161). -/
def endedHolds (h : Hold) (es : List ErasePending) : List ErasePending := es.map fun e => if e.hold = h then { e with hold := .free } else e

section

variable {i : JItem} {x : Scrub} {s : Part}

/-- The flash engine after a written REPLACE, with the block that it gives back (R165). -/
def relocatedFlash (i : JItem) (x : Scrub) (given : Nat) (s : Part) : Flash :=
  { s.flash with
    scrub := none, scrubList := s.flash.scrubList.filter fun b => decide (b ≠ x.old)
    erasePending := endedHolds (.entry i.serial) (s.flash.erasePending ++ [{ block := given, hold := .free }])
    journal := { s.flash.journal with journaled := applyEntry s.flash.factoryBad s.flash.journal.journaled i.entry } }

theorem writtenEntry_replace_held (he : ∃ r k old new, i.entry = .replace r k old new) (hs : s.flash.scrub = some x) (hx : x.replace = some i.serial)
    (h : (record s x.record).extent[x.position]? = some x.old) :
    writtenEntry s i = { s with
      flash := relocatedFlash i x x.old s
      spool := { s.spool with
        records := tableSet s.spool.records x.record { record s x.record with extent := (record s x.record).extent.set x.position x.target } }
      ports := ⟨raiseIn .flash ([3, byteOf x.record] ++ le2 x.old ++ le2 x.target) s.ports.a,
        raiseIn .flash ([3, byteOf x.record] ++ le2 x.old ++ le2 x.target) s.ports.b⟩ } := by
  rw [writtenEntry_replace he hs hx, if_pos h]
  simp only [modifyFlash, pendBlocks, endHolds, setRecord, scrubSettled, journaledEntry, modifyJournal, relocatedFlash, endedHolds, raiseBoth, raise, modifyPort]
  rfl

theorem writtenEntry_replace_gone (he : ∃ r k old new, i.entry = .replace r k old new) (hs : s.flash.scrub = some x) (hx : x.replace = some i.serial)
    (h : ¬ (record s x.record).extent[x.position]? = some x.old) :
    writtenEntry s i = { s with flash := relocatedFlash i x x.target s } := by
  rw [writtenEntry_replace he hs hx, if_neg h]
  rfl

/-- What a written REPLACE does for the relocation in hand (R165). -/
theorem writtenEntry_replace_spec (he : ∃ r k old new, i.entry = .replace r k old new) (hs : s.flash.scrub = some x) (hx : x.replace = some i.serial)
    (hr : x.record < 32) :
    let t := writtenEntry s i
    let held : Bool := decide ((record s x.record).extent[x.position]? = some x.old)
    t.flash = relocatedFlash i x (if held = true then x.old else x.target) s
      ∧ (held = true → record t x.record = { record s x.record with extent := (record s x.record).extent.set x.position x.target })
      ∧ (∀ j, j ≠ x.record ∨ held = false → record t j = record s j)
      ∧ (∀ p, notice (port t p).notices .flash =
          if held = true then some (raised (notice (port s p).notices .flash) ([3, byteOf x.record] ++ le2 x.old ++ le2 x.target))
          else notice (port s p).notices .flash)
      ∧ t = { s with ports := t.ports, spool := t.spool, flash := t.flash } := by
  intro t held
  by_cases h : (record s x.record).extent[x.position]? = some x.old
  · have ht : t = _ := writtenEntry_replace_held he hs hx h
    have hheld : held = true := decide_eq_true h
    clear_value t
    subst ht
    refine ⟨by rw [if_pos hheld], fun _ => tableGet_tableSet_same _ _ _ _ hr, fun j hj => ?_, fun p => ?_, rfl⟩
    · rcases hj with hj | hj
      · exact tableGet_tableSet_other _ _ _ _ _ hj.symm
      · rw [hheld] at hj
        cases hj
    · rw [if_pos hheld]
      cases p
      · exact notice_raiseIn_same _ _ _
      · exact notice_raiseIn_same _ _ _
  · have ht : t = _ := writtenEntry_replace_gone he hs hx h
    have hnot : ¬ held = true := fun h' => h (of_decide_eq_true h')
    clear_value t
    subst ht
    exact ⟨by rw [if_neg hnot], fun h' => absurd h' hnot, fun _ _ => rfl, fun p => by rw [if_neg hnot]; rfl, rfl⟩

end

/-- Settles O41: each maintenance job's own lemma at the end of its operation, a retirement, a noted read and a written REPLACE. -/
theorem maintenanceJobsEnd : Obligations.MaintenanceJobsEnd := by
  refine ⟨?_, ?_, ?_, ?_⟩
  · intro o j rs s ha hf hx f m base settled becomes journal
    have hbecomes (i : Instr) (q : Part) (h : exec i s = .next { s with part := ringSpace s.part (arbitrate (finishAbandon q)) }) : becomes i q := h
    clear_value becomes
    refine ⟨?_, ?_, ?_, ?_, ?_, ?_⟩
    · rintro c rfl hc
      refine ⟨?_, ?_⟩
      · rintro b rfl he hp
        exact hbecomes _ _ (exec_eraseDone ha hf hx (compactionStep_of_erased (s := base (Nand.eraseBlock m b)) hc he hp))
      · rintro b k data rfl he n written
        refine ⟨fun hp => ?_, fun hp hform => ?_, fun hp hform => ?_⟩
        · exact hbecomes _ _ (exec_programDone ha hf hx (compactionStep_of_more (s := base n) hc he hp))
        · refine hbecomes _ _ (exec_programDone ha hf hx ((compactionStep_of_last (s := base n) hc he hp).trans ?_))
          exact if_neg (by simp [hform])
        · refine hbecomes _ _ (exec_programDone ha hf hx ((compactionStep_of_last (s := base n) hc he hp).trans ?_))
          exact if_pos hform
    · intro b code i hi
      obtain ⟨n, hq⟩ : ∃ n, becomes i (journalFailure b code (leftWith n s.part)) := by
        rcases hi with ⟨count, k, data, rfl, rfl | rfl, rfl, rfl⟩ | ⟨rfl, rfl, rfl, rfl⟩
        · exact ⟨_, hbecomes _ _ (exec_programFailed ha hf hx rfl)⟩
        · exact ⟨_, hbecomes _ _ (exec_programFailed ha hf hx rfl)⟩
        · exact ⟨_, hbecomes _ _ (exec_eraseFailed ha hf hx rfl)⟩
      have hfailed := journalFailure_eq b code (leftWith n s.part)
      have hports (p : Port) : port (journalFailure b code (leftWith n s.part)) p
          = raiseIn .flash ([7] ++ le2 b ++ [byteOf code]) (endedUnit (inUse s.part) (ringToldUnit s.part p)) := port_journalFailure b code (leftWith n s.part) p
      rw [emptySpool_eq] at hfailed
      obtain ⟨q, hqe⟩ : ∃ q, q = journalFailure b code (leftWith n s.part) := ⟨_, rfl⟩
      rw [← hqe] at hq hfailed hports
      refine ⟨q, hq, ?_, fun p => ?_⟩
      · rw [hfailed]
        rfl
      · intro u
        rw [hports]
        exact failedUnit_spec s.part p _
    · rintro r b rfl rfl hr x pooled v needed
      have hneeded (e : Staged) (he : e.record = r) : needed e ↔ (needsBlock e x = true ∧ mayDraw r x = true ∧ x.flash.recovery = none) := by
        rw [needsBlock_iff, he, and_assoc]
        exact Iff.rfl
      refine ⟨fun before e after hring he hfull hb => ?_, fun hnone => ?_⟩
      · have hold : oldestFullOf r x = some e := oldestFullOf_of_split r x before after e hring he hfull hb
        refine ⟨fun h => ?_, fun h => ?_⟩
        · exact hbecomes _ _ (exec_eraseDone ha hf hx (allocationErased_of_needed (s := x) hold ((hneeded e he).mp h) hr))
        · exact hbecomes _ _ (exec_eraseDone ha hf hx (allocationErased_of_not (s := x) hold fun h' => h ((hneeded e he).mpr h')))
      · exact hbecomes _ _ (exec_eraseDone ha hf hx (allocationErased_of_none (s := x) (oldestFullOf_eq_none.mpr hnone)))
    · rintro b rfl (⟨r, rfl⟩ | rfl | rfl)
      · exact hbecomes _ _ (exec_eraseFailed ha hf hx rfl)
      · exact hbecomes _ _ (exec_eraseFailed ha hf hx rfl)
      · exact hbecomes _ _ (exec_eraseFailed ha hf hx rfl)
    · rintro b h rfl rfl hh x rest
      obtain ⟨tail, htail⟩ : ∃ tail, f.scrubList = h :: tail := List.head?_eq_some_iff.mp hh
      refine ⟨fun r k hs hp => ?_, fun hs => ?_⟩
      · exact hbecomes _ _ (exec_eraseDone ha hf hx (scrubTargetErased_of_taken (s := x) htail hs hp))
      · exact hbecomes _ _ (exec_eraseDone ha hf hx (scrubTargetErased_of_dropped (s := x) htail hs))
    · rintro x src dst p ecc rfl rfl hscrub a noted done torn entry given
      have hflash (y : Page) : (noted y).flash = { (base (Nand.put m (64 * dst + p) y)).flash with scrubList := (noted y).flash.scrubList } :=
        noteRead_flash _ _ _ _ _
      have hscrubbed (y : Page) : (noted y).flash.scrub = some x := by rw [hflash]; exact hscrub
      have hretired (y : Page) : (noted y).flash.retired = f.retired := by rw [hflash]
      refine ⟨fun hm => ?_, fun hm => ?_, fun hroom => ?_, fun hfull => ?_⟩
      · exact hbecomes _ _ (exec_moveDone ha hf hx (scrubEnd_of_more (hscrubbed _) hm))
      · refine hbecomes _ _ (exec_moveDone ha hf hx ((scrubEnd_of_last (hscrubbed _) hm).trans ?_))
        have hjournal : done.flash.journal = f.journal := by rw [hflash]
        change { done with flash := { done.flash with
          scrub := some { x with moved := x.moved + 1, replace := some done.flash.journal.nextSerial }
          journal := appendEntry entry done.flash.journal } } = _
        rw [hjournal]
        rfl
      · refine hbecomes _ _ (exec_moveFailed ha hf hx ((scrubEnd_of_failed (hscrubbed .torn)).trans (congrArg (retire x.target 0) (if_neg ?_))))
        rw [retiredFull_iff]
        change ¬ 40 ≤ (noted .torn).flash.retired.length
        rw [hretired]
        omega
      · refine hbecomes _ _ (exec_moveFailed ha hf hx ((scrubEnd_of_failed (hscrubbed .torn)).trans (congrArg (retire x.target 0) ((if_pos ?_).trans ?_))))
        · rw [retiredFull_iff]
          change 40 ≤ (noted .torn).flash.retired.length
          rw [hretired]
          exact hfull
        · have hpending : torn.flash.erasePending = f.erasePending := by rw [hflash]
          rw [← hpending]
          rfl
  · intro b cause s t f entry queued told
    refine ⟨fun hfull => retire_of_full hfull, fun hroom => ?_⟩
    exact retire_spec hroom
  · intro r seq b page e s hr hinj hnodup f inside high joins x hj hn detail told v
    have hplaced : PlacedOnce b s := ⟨hinj, hnodup⟩
    have hx : scrubNoted e b s = x := by
      have hiff : (heavy e = true ∧ (scrubbable b s).isSome = true ∧ b ∉ s.flash.scrubList ∧ s.flash.scrubList.length < 8) ↔ joins := by
        rw [heavy_iff, scrubbable_isSome hplaced]
      by_cases h : joins
      · obtain ⟨he, hs, hb, hl⟩ := hiff.mpr h
        exact (scrubNoted_of_joins he hs hb hl).trans (hj h).symm
      · exact (scrubNoted_of_not fun h' => h (hiff.mp h')).trans (hn h).symm
    have hspool : x.spool = s.spool := hx ▸ scrubNoted_spool e b s
    refine ⟨rfl, fun he => (noteRead_of_readable he).trans hx, ?_, ?_⟩
    · rintro rfl hstate hseq
      refine (noteRead_of_damaged (concerns_iff.mpr ⟨hstate, hseq⟩)).trans ?_
      rw [hx, setRecord, hspool]
      rfl
    · rintro rfl hgone
      refine (noteRead_of_freed fun hc => ?_).trans (by rw [hx]; rfl)
      obtain ⟨hs, hq⟩ := concerns_iff.mp hc
      exact hgone.elim hs fun h => h hq
  · intro i x r k old new s he hs hx hr t held rest given freed
    obtain ⟨hflash, hrec, hother, hnotice, hframe⟩ := writtenEntry_replace_spec ⟨r, k, old, new, he⟩ hs hx hr
    refine ⟨?_, hrec, hother, hnotice, hframe⟩
    change t.flash = relocatedFlash i x (if held = true then x.old else x.target) s at hflash
    rw [hflash]
    rfl

end Sys2Proof.Machine
end

section
/-! PROOFS. The parts of a recovery: what a retirement leaves of the recovery in hand, entering FAULT, an abandon that completes
(R144, R148, R163, R164). -/

namespace Sys2Proof.Machine

/-! ### A retirement beside a recovery -/

section

variable {b cause : Nat} {s : Part}

theorem retire_recovery (b cause : Nat) (s : Part) : (retire b cause s).flash.recovery = s.flash.recovery := by
  by_cases h : 40 ≤ s.flash.retired.length
  · rw [retire_of_full h]
    rfl
  · rw [(retire_spec (b := b) (cause := cause) (Nat.not_le.mp h)).1]
    rfl

theorem retire_ending (b cause : Nat) (s : Part) (r : Nat) : (record (retire b cause s) r).ending = (record s r).ending := by
  by_cases h : 40 ≤ s.flash.retired.length
  · rw [retire_of_full h]
    rfl
  · by_cases hr : r < 32
    · obtain ⟨n, _, hn⟩ := (retire_spec (b := b) (cause := cause) (Nat.not_le.mp h)).2.1 r hr
      rw [hn]
    · rw [record, record, tableGet_of_ge _ _ _ (by omega), tableGet_of_ge _ _ _ (by omega)]

/-- A retirement with no room in the list does not look at the recovery. -/
theorem retire_setRecovery_of_full (h : 40 ≤ s.flash.retired.length) (x : Option Recovery) :
    retire b cause (setRecovery x s) = setRecovery x (retire b cause s) := by
  have hx : 40 ≤ (setRecovery x s).flash.retired.length := h
  rw [retire_of_full h, retire_of_full hx]
  rfl

/-- The cut of the reservations does not look at the ring. -/
theorem cutReservations_leaveRing (r page : Nat) (s : Part) : cutReservations (leaveRing r page s) = leaveRing r page (cutReservations s) := by
  have hcut (n : Nat) : ∀ t, cutReservationsBy n (leaveRing r page t) = leaveRing r page (cutReservationsBy n t) := by
    induction n with
    | zero => exact fun _ => rfl
    | succ n ih =>
      intro t
      have hfits : (totalReservation (leaveRing r page t) ≤ poolBlocks (leaveRing r page t)) = (totalReservation t ≤ poolBlocks t) := rfl
      have hopen : highestOpen (leaveRing r page t) = highestOpen t := rfl
      by_cases h : totalReservation t ≤ poolBlocks t
      · exact (if_pos (hfits ▸ h)).trans (congrArg _ (if_pos h).symm)
      · refine (if_neg (hfits ▸ h)).trans (Eq.trans ?_ (congrArg _ (if_neg h).symm))
        rw [hopen]
        cases highestOpen t with
        | none => rfl
        | some q => exact ih (modifyRecord q (fun v => { v with reservation := v.reservation - (totalReservation t - poolBlocks t) }) t)
  exact hcut 32 s

theorem retire_leaveRing (b cause r page : Nat) (s : Part) : retire b cause (leaveRing r page s) = leaveRing r page (retire b cause s) := by
  by_cases h : 40 ≤ s.flash.retired.length
  · have hx : 40 ≤ (leaveRing r page s).flash.retired.length := h
    rw [retire_of_full h, retire_of_full hx]
    rfl
  · have hx : (leaveRing r page s).flash.retired.length < 40 := Nat.not_le.mp h
    rw [retire_of_room (Nat.not_le.mp h), retire_of_room hx, ← cutReservations_leaveRing]
    rfl

end

/-! ### The ends of a recovery (R144, R148, R164) -/

/-- An abandon that completes ends the recovery, whatever stands in its place. -/
theorem endRecovery_setRecovery (x : Recovery) (z : Option Recovery) (s : Part) : endRecovery x (setRecovery z s) = endRecovery x s := rfl

theorem failRecovery_setRecovery (x : Recovery) (z : Option Recovery) (s : Part) : failRecovery x (setRecovery z s) = failRecovery x s := rfl

theorem failRecovery_recovery (x : Recovery) (s : Part) : (failRecovery x s).flash.recovery = none := rfl

theorem finishAbandon_of_none {s : Part} (h : s.flash.recovery = none) : finishAbandon s = s := by
  unfold finishAbandon
  rw [h]

theorem finishAbandon_of_some {x : Recovery} {s : Part} (h : s.flash.recovery = some x) (he : (record s x.record).ending = true) :
    finishAbandon s = endRecovery x s := by
  unfold finishAbandon
  rw [h]
  exact if_pos he

theorem finishAbandon_of_standing {x : Recovery} {s : Part} (h : s.flash.recovery = some x) (he : (record s x.record).ending = false) :
    finishAbandon s = s := by
  unfold finishAbandon
  rw [h]
  exact if_neg (by simp [he])

/-- A recovery whose record is ending, in the order of R164. -/
theorem endRecovery_eq (x : Recovery) (s : Part) :
    endRecovery x s = freeDownload x.record (retire x.failed 0 (leaveRing x.record (64 * x.position + x.page)
      (let t := modifyFlash (fun f => { pendBlocks .free x.target.toList f with recovery := none }) s
       if s.flash.retired.length < 40 then modifyRecord x.record (fun v => { v with extent := v.extent.eraseIdx x.position }) t else t))) := by
  have hlisted (t : Part) (ht : t.flash.retired = s.flash.retired) :
      (if (!retiredFull t) = true then modifyRecord x.record (fun v => { v with extent := v.extent.eraseIdx x.position }) t else t)
        = if s.flash.retired.length < 40 then modifyRecord x.record (fun v => { v with extent := v.extent.eraseIdx x.position }) t else t := by
    refine if_congr ?_ rfl rfl
    rw [Bool.not_eq_true', ← Bool.not_eq_true, retiredFull_iff, ht, Nat.not_le]
  rw [retire_leaveRing, endRecovery]
  dsimp only
  rw [hlisted (modifyFlash _ s) rfl]

theorem filter_map_of_fixed {α : Type} {p q : α → Bool} {g : α → α} (hkeep : ∀ x, q x = true → g x = x ∧ p x = true)
    (hdrop : ∀ x, q x = false → p (g x) = false) (l : List α) : (l.map g).filter p = l.filter q := by
  induction l with
  | nil => rfl
  | cons x l ih =>
    rw [List.map_cons, List.filter_cons, List.filter_cons, ih]
    cases hq : q x with
    | true => rw [(hkeep x hq).1, (hkeep x hq).2]
    | false => rw [hdrop x hq]; rfl

/-- The ring after a recovery ended in FAULT: of its record only a PROGRAMMING entry of another page stays (R144, R164). -/
theorem ring_failRecovery (x : Recovery) (s : Part) :
    (failRecovery x s).spool.ring = s.spool.ring.filter fun e =>
      decide (e.record ≠ x.record) || (decide (e.state = .programming) && decide (e.page ≠ 64 * x.position + x.page)) := by
  have hring : (failRecovery x s).spool.ring = (s.spool.ring.map fun e =>
      if e.record = x.record ∧ e.page = 64 * x.position + x.page then { e with state := .full } else e).filter fun e =>
        decide (e.record ≠ x.record) || decide (e.state = .programming) := rfl
  rw [hring]
  refine filter_map_of_fixed (fun e hq => ?_) (fun e hq => ?_) _
  · simp only [Bool.or_eq_true, Bool.and_eq_true, decide_eq_true_eq] at hq
    have hother : ¬ (e.record = x.record ∧ e.page = 64 * x.position + x.page) := by
      rintro ⟨hr, hp⟩
      rcases hq with h | h
      · exact h hr
      · exact h.2 hp
    refine ⟨if_neg hother, ?_⟩
    simp only [Bool.or_eq_true, decide_eq_true_eq]
    exact hq.imp_right And.left
  · simp only [Bool.or_eq_false_iff, Bool.and_eq_false_iff, decide_eq_false_iff_not, not_not] at hq
    obtain ⟨hr, hq⟩ := hq
    by_cases hp : e.page = 64 * x.position + x.page
    · rw [if_pos ⟨hr, hp⟩]
      simp [hr]
    · rw [if_neg fun h => hp h.2]
      simp [hr, hq.resolve_right hp]

/-- Entering FAULT at the end of a recovery (R144). -/
theorem failRecovery_eq (x : Recovery) (s : Part) :
    failRecovery x s = raiseBoth .download (downloadDetail x.record 3 (record s x.record).title)
      { s with
        spool := { s.spool with
          ring := (failRecovery x s).spool.ring
          records := tableSet s.spool.records x.record
            { record s x.record with state := .fault, received := (record s x.record).programmed, reservation := 0, running := none } }
        flash := { s.flash with recovery := none, journal := appendEntry (.faulted (byteOf x.record)) s.flash.journal } } := by
  obtain ⟨t, ht⟩ : ∃ t, t = setStaged x.record (64 * x.position + x.page) .full (setRecovery none s) := ⟨_, rfl⟩
  have hring : (failRecovery x s).spool.ring = t.spool.ring.filter fun e => decide (e.record ≠ x.record) || decide (e.state = .programming) := by
    rw [ht]
    rfl
  have hfail : failRecovery x s = faultRecord x.record t := by
    rw [ht]
    rfl
  have hframe : t = { s with spool := { s.spool with ring := t.spool.ring }, flash := { s.flash with recovery := none } } := by
    rw [ht]
    rfl
  have hrecord : record t x.record = record s x.record := by
    rw [hframe]
    rfl
  rw [hring, hfail, faultRecord, hrecord]
  dsimp only [dropStaged, modifyRing, modifySpool, setRecord, queueEntry, modifyJournal, modifyFlash]
  rw [hframe]

/-! ### What the ends of operations keep of a recovery -/

theorem stagingDone_recovery (r page : Nat) (s : Part) : (stagingDone r page s).flash.recovery = s.flash.recovery := by
  unfold stagingDone
  split
  · rfl
  · dsimp only
    split
    · split <;> rfl
    · split <;> rfl

section

variable {x : Recovery} {y : Nat} {s : Part}

/-- A failed operation of a recovery, with room in the retired list: the replacement is retired and the recovery begins
again (R164). -/
theorem replacementFailed_of_room (h : s.flash.retired.length < 40) :
    replacementFailed x y s = retire y 0 (setRecovery (some { x with target := none, moved := 0 }) s) := by
  have hroom : retiredFull s = false := decide_eq_false (Nat.not_le.mpr h)
  unfold replacementFailed
  simp only [hroom, Bool.false_eq_true, if_false, Bool.false_and]

theorem replacementFailed_of_full (h : 40 ≤ s.flash.retired.length) :
    replacementFailed x y s =
      (let t := retire y 0 (modifyFlash (pendBlocks .free [y]) (setRecovery (some { x with target := none, moved := 0 }) s))
       if (!(record t x.record).ending) = true then failRecovery x t else t) := by
  have hfull : retiredFull s = true := retiredFull_iff.mpr h
  unfold replacementFailed
  simp only [hfull, if_true, Bool.true_and]

end

end Sys2Proof.Machine
end

section
/-! PROOFS. Allocation (R143) and the steps of a program-failure recovery (`RecoverySteps`). -/

namespace Sys2Proof.Machine

/-! ### Allocation (R143) -/

section

variable {r : Nat} {s : Part}

theorem mayDraw_iff : mayDraw r s = true ↔ 0 < (record s r).reservation ∨ totalReservation s < poolBlocks s := by
  simp only [mayDraw, Bool.or_eq_true, decide_eq_true_eq]

theorem allocate_of_draws (h : mayDraw r s = true) : allocate r s = findBlock s := if_pos h

theorem allocate_of_not (h : ¬ mayDraw r s = true) : allocate r s = .nothing := if_neg h

theorem oldestUnheld_of_split {f : Flash} {before after : List ErasePending} {e : ErasePending} (h : f.erasePending = before ++ e :: after)
    (he : e.hold = .free) (hb : ∀ y, y ∈ before → y.hold ≠ .free) : oldestUnheld f = some e.block := by
  have hnone : before.find? (fun e => decide (e.hold = .free)) = none := by simpa [List.find?_eq_none] using hb
  simp [oldestUnheld, h, List.find?_append, hnone, he]

theorem oldestUnheld_of_held {f : Flash} (h : ∀ y, y ∈ f.erasePending → y.hold ≠ .free) : oldestUnheld f = none := by
  simpa [oldestUnheld, List.find?_eq_none] using h

theorem findBlock_of_free {b : Nat} (h : firstFree s.spool.pointer s.flash.free = some b) : findBlock s = .taken b := by
  rw [findBlock, h]

theorem findBlock_of_nothing (h : firstFree s.spool.pointer s.flash.free = none) (hn : s.flash.spool = .worn ∨ s.flash.erasePending = []) :
    findBlock s = .nothing := by
  rw [findBlock, h]
  exact if_pos (hn.imp_right List.isEmpty_iff.mpr)

theorem findBlock_of_oldest {b : Nat} (h : firstFree s.spool.pointer s.flash.free = none) (hw : s.flash.spool ≠ .worn) (ho : oldestUnheld s.flash = some b) :
    findBlock s = .erase b := by
  have hpending : ¬ (s.flash.spool = .worn ∨ s.flash.erasePending.isEmpty = true) := by
    rintro (hc | hc)
    · exact hw hc
    · rw [oldestUnheld, List.isEmpty_iff.mp hc] at ho
      cases ho
  rw [findBlock, h]
  dsimp only
  rw [if_neg hpending, ho]

theorem findBlock_of_held (h : firstFree s.spool.pointer s.flash.free = none) (hw : s.flash.spool ≠ .worn) (hp : s.flash.erasePending ≠ [])
    (ho : oldestUnheld s.flash = none) : findBlock s = .waits := by
  have hpending : ¬ (s.flash.spool = .worn ∨ s.flash.erasePending.isEmpty = true) := fun hc => hc.elim hw fun he => hp (List.isEmpty_iff.mp he)
  rw [findBlock, h]
  dsimp only
  rw [if_neg hpending, ho]

end

/-! ### What class 4 begins for a recovery (R163) -/

section

variable {x : Recovery} {s : Part}

theorem serveSpool_of_recovery (h : s.flash.recovery = some x) : serveSpool s = serveRecovery x s := by
  rw [serveSpool, h]

theorem serveRecovery_of_target {y : Nat} (h : x.target = some y) : serveRecovery x s = (beginRecoveryStep x y s, false) := by
  rw [serveRecovery, h]

theorem serveRecovery_of_queued (h : x.target = none) (hq : replaceQueued s = true) : serveRecovery x s = (s, false) := by
  rw [serveRecovery, h]
  exact if_pos hq

/-- With no target yet and no REPLACE queued, a block is allocated after the relocation in hand is given up. -/
theorem serveRecovery_of_allocates (h : x.target = none) (hq : ¬ replaceQueued s = true) {t : Part} (ht : giveUpScrub s = t) :
    (∀ b, allocate x.record t = .taken b → serveRecovery x s = (beginRecoveryStep x b (drawReservation x.record (takeFree b t)), false))
      ∧ (∀ b, allocate x.record t = .erase b → serveRecovery x s = (beginOperation (.erase b) .replacement t, false))
      ∧ (allocate x.record t = .waits → serveRecovery x s = (t, false))
      ∧ (allocate x.record t = .nothing → serveRecovery x s = (failRecovery x t, true)) := by
  have hserve : serveRecovery x s = match allocate x.record t with
      | .taken b => (beginRecoveryStep x b (drawReservation x.record (takeFree b t)), false)
      | .erase b => (beginOperation (.erase b) .replacement t, false)
      | .waits => (t, false)
      | .nothing => (failRecovery x t, true) := by
    rw [serveRecovery, h]
    refine (if_neg hq).trans ?_
    rw [ht] <;> rfl
  rw [hserve]
  exact ⟨fun b hb => by rw [hb], fun b hb => by rw [hb], fun hb => by rw [hb], fun hb => by rw [hb]⟩

theorem replaceQueued_iff : replaceQueued s = true ↔ ∃ z n, s.flash.scrub = some z ∧ z.replace = some n := by
  rw [replaceQueued, Option.isSome_iff_exists]
  simp only [Option.bind_eq_some_iff]
  constructor
  · rintro ⟨n, z, hz, hn⟩
    exact ⟨z, n, hz, hn⟩
  · rintro ⟨z, n, hz, hn⟩
    exact ⟨n, z, hz, hn⟩

end

/-! ### What the ends of a recovery's operations do (R163, R164) -/

/-- The replacement retired after a failed operation (R164). -/
def failedStep (x : Recovery) (y : Nat) (s : Part) : Part :=
  if s.flash.retired.length < 40 then retire y 0 (setRecovery (some { x with target := none, moved := 0 }) s)
  else retire y 0 (modifyFlash (pendBlocks .free [y]) s)

section

variable {x : Recovery} {y : Nat} {s : Part}

/-- How far a recovery's moves had come does not matter to its end. -/
theorem endRecovery_moved (x : Recovery) (s : Part) : endRecovery { x with target := none, moved := 0 } s = endRecovery { x with target := none } s := rfl

/-- After a failure: an abandon that waits completes, the recovery begins again, or the record is in FAULT (R164). -/
theorem finishAbandon_replacementFailed (x : Recovery) (y : Nat) (s : Part) :
    finishAbandon (replacementFailed x y s) = if (record s x.record).ending = true then endRecovery { x with target := none } (failedStep x y s)
      else if s.flash.retired.length < 40 then failedStep x y s
      else failRecovery x (failedStep x y s) := by
  by_cases h : s.flash.retired.length < 40
  · have hstep : failedStep x y s = retire y 0 (setRecovery (some { x with target := none, moved := 0 }) s) := if_pos h
    have hrec : (retire y 0 (setRecovery (some { x with target := none, moved := 0 }) s)).flash.recovery = some { x with target := none, moved := 0 } :=
      retire_recovery _ _ _
    have hend : (record (retire y 0 (setRecovery (some { x with target := none, moved := 0 }) s)) x.record).ending = (record s x.record).ending :=
      retire_ending _ _ _ _
    rw [replacementFailed_of_room h, if_pos h, hstep]
    cases he : (record s x.record).ending with
    | true =>
      rw [if_pos rfl]
      exact (finishAbandon_of_some hrec (hend.trans he)).trans (endRecovery_moved _ _)
    | false =>
      rw [if_neg (by decide)]
      exact finishAbandon_of_standing hrec (hend.trans he)
  · have hfull : 40 ≤ (modifyFlash (pendBlocks .free [y]) s).flash.retired.length := Nat.not_lt.mp h
    have hstep : failedStep x y s = retire y 0 (modifyFlash (pendBlocks .free [y]) s) := if_neg h
    have hset : retire y 0 (modifyFlash (pendBlocks .free [y]) (setRecovery (some { x with target := none, moved := 0 }) s))
        = setRecovery (some { x with target := none, moved := 0 }) (failedStep x y s) := by
      rw [hstep, ← retire_setRecovery_of_full hfull]
      rfl
    have hend : (record (setRecovery (some { x with target := none, moved := 0 }) (failedStep x y s)) x.record).ending = (record s x.record).ending := by
      rw [hstep]
      exact retire_ending _ _ _ _
    rw [replacementFailed_of_full (Nat.not_lt.mp h), hset, if_neg h]
    dsimp only
    rw [hend]
    cases he : (record s x.record).ending with
    | true =>
      rw [if_neg (by decide), if_pos rfl]
      have hsome : finishAbandon (setRecovery (some { x with target := none, moved := 0 }) (failedStep x y s))
          = endRecovery { x with target := none, moved := 0 } (setRecovery (some { x with target := none, moved := 0 }) (failedStep x y s)) :=
        finishAbandon_of_some rfl (hend.trans he)
      rw [hsome, endRecovery_setRecovery, endRecovery_moved]
    | false =>
      rw [if_pos (by decide), if_neg (by decide), failRecovery_setRecovery]
      exact finishAbandon_of_none (failRecovery_recovery _ _)

theorem recoveryEnd_of_failed (isMove : Bool) (h : s.flash.recovery = some x) (ht : x.target = some y) : recoveryEnd isMove false s = replacementFailed x y s := by
  rw [recoveryEnd, h]
  dsimp only
  rw [ht]
  rfl

theorem recoveryEnd_of_ending (isMove : Bool) (h : s.flash.recovery = some x) (ht : x.target = some y) (he : (record s x.record).ending = true) :
    recoveryEnd isMove true s = s := by
  rw [recoveryEnd, h]
  dsimp only
  rw [ht]
  exact if_pos he

theorem recoveryEnd_of_moved (h : s.flash.recovery = some x) (ht : x.target = some y) (he : (record s x.record).ending = false) :
    recoveryEnd true true s = setRecovery (some { x with moved := x.moved + 1 }) s := by
  have hgoes : ¬ (record s x.record).ending = true := by simp [he]
  rw [recoveryEnd, h]
  dsimp only
  rw [ht]
  exact if_neg hgoes

theorem recoveryEnd_of_done (h : s.flash.recovery = some x) (ht : x.target = some y) (he : (record s x.record).ending = false) :
    recoveryEnd false true s = recoveryDone x y s := by
  have hgoes : ¬ (record s x.record).ending = true := by simp [he]
  rw [recoveryEnd, h]
  dsimp only
  rw [ht]
  exact if_neg hgoes

/-- A recovery's final program done (R163). -/
theorem recoveryDone_eq (x : Recovery) (y : Nat) (s : Part) :
    recoveryDone x y s = stagingDone x.record (64 * x.position + x.page) (retire x.failed 0 { s with
      spool := { s.spool with records := tableSet s.spool.records x.record { record s x.record with extent := (record s x.record).extent.set x.position y } }
      flash := { s.flash with
        recovery := none
        erasePending := if s.flash.retired.length < 40 then s.flash.erasePending else s.flash.erasePending ++ [{ block := x.failed, hold := .free }]
        journal := appendEntry (.replace (byteOf x.record) (BitVec.ofNat 16 x.position) (BitVec.ofNat 16 x.failed) (BitVec.ofNat 16 y))
          s.flash.journal } }) := by
  have hpended (t : Part) (ht : t.flash.retired = s.flash.retired) :
      (if retiredFull t = true then modifyFlash (pendBlocks .free [x.failed]) t else t) = { t with flash := { t.flash with
        erasePending := if s.flash.retired.length < 40 then t.flash.erasePending else t.flash.erasePending ++ [{ block := x.failed, hold := .free }] } } := by
    by_cases h : s.flash.retired.length < 40
    · rw [if_pos h, if_neg fun hf => absurd (retiredFull_iff.mp hf) (by rw [ht]; exact Nat.not_le.mpr h)]
    · rw [if_neg h, if_pos (retiredFull_iff.mpr (by rw [ht]; exact Nat.not_lt.mp h))]
      rfl
  unfold recoveryDone
  dsimp only
  rw [hpended (queueEntry _ (modifyRecord _ _ (setRecovery none s))) rfl]
  rfl

theorem replacementErased_of_taken {b : Nat} (h : s.flash.recovery = some x) (he : (record s x.record).ending = false) (hd : mayDraw x.record s = true) :
    replacementErased b s = setRecovery (some { x with target := some b }) (drawReservation x.record (modifyFlash (unpend b) s)) := by
  rw [replacementErased, h]
  exact if_pos (by simp [he, hd])

theorem replacementErased_of_not {b : Nat} (h : s.flash.recovery = some x) (hn : (record s x.record).ending = true ∨ mayDraw x.record s = false) :
    replacementErased b s = modifyFlash (joinFree b) s := by
  rw [replacementErased, h]
  refine if_neg ?_
  rcases hn with hn | hn <;> simp [hn]

end

end Sys2Proof.Machine
end

section
/-! PROOFS. The steps of a program-failure recovery, assembled (`RecoverySteps`). -/

namespace Sys2Proof.Machine

theorem record_leftWith (m : List (Nat × Page)) (s : Part) (r : Nat) : record (leftWith m s) r = record s r := rfl

/-- Giving up a relocation touches neither the spool nor the free pool. -/
theorem giveUpScrub_frame (s : Part) :
    giveUpScrub s = { s with flash := { s.flash with scrub := (giveUpScrub s).flash.scrub, erasePending := (giveUpScrub s).flash.erasePending } } := by
  unfold giveUpScrub
  split <;> rfl

section

variable {x : Recovery} {y : Nat} {o : Operation} {rs : Option (Nat × Word)} {s : State}

/-- A move of a recovery ended, whatever its read told (R163, R164). -/
theorem exec_recoveryMove {src dst p : Nat} (ecc : List Sector) (ha : alive s.part = true) (hf : s.part.power.forcedOff = false) (hrec : s.part.flash.recovery = some x)
    (ht : x.target = some y) (hx : s.part.flash.running = some ⟨.move src dst p, .recovery, true, rs⟩) :
    let noted : Page → Part := fun z => notedRead rs src p ecc s.part (leftWith (Nand.put s.part.flash.nand (64 * dst + p) z) s.part)
    let moved := noted (programmedPage (readBytes (Nand.page s.part.flash.nand (64 * src + p)) s.part.fresh (64 * src + p) ecc))
    let becomes : Instr → Part → Prop := fun i q => exec i s = .next { s with part := ringSpace s.part (arbitrate q) }
    ((record s.part x.record).ending = false → becomes (.moveEnd ecc true) (setRecovery (some { x with moved := x.moved + 1 }) moved))
      ∧ ((record s.part x.record).ending = true → becomes (.moveEnd ecc true) (endRecovery x moved))
      ∧ becomes (.moveEnd ecc false) (finishAbandon (replacementFailed x y (noted .torn))) := by
  intro noted moved becomes
  have hnoted (z : Page) : (noted z).flash.recovery = some x ∧ ∀ r, (record (noted z) r).ending = (record s.part r).ending := by
    obtain ⟨h, h'⟩ := noteRead_keeps rs src p (readOutcome (Nand.page s.part.flash.nand (64 * src + p)) s.part.fresh (64 * src + p) ecc)
      (leftWith (Nand.put s.part.flash.nand (64 * dst + p) z) s.part)
    exact ⟨h.trans hrec, h'⟩
  refine ⟨fun he => ?_, fun he => ?_, ?_⟩
  · have hend : (record moved x.record).ending = false := ((hnoted _).2 x.record).trans he
    have hexec := exec_moveDone ha hf hx (recoveryEnd_of_moved (hnoted _).1 ht hend)
    have hstands : finishAbandon (setRecovery (some { x with moved := x.moved + 1 }) moved) = setRecovery (some { x with moved := x.moved + 1 }) moved :=
      finishAbandon_of_standing (x := { x with moved := x.moved + 1 }) rfl hend
    rw [← hstands]
    exact hexec
  · have hend : (record moved x.record).ending = true := ((hnoted _).2 x.record).trans he
    have hexec := exec_moveDone ha hf hx (recoveryEnd_of_ending true (hnoted _).1 ht hend)
    have hcompletes : finishAbandon moved = endRecovery x moved := finishAbandon_of_some (hnoted _).1 hend
    rw [← hcompletes]
    exact hexec
  · exact exec_moveFailed ha hf hx (recoveryEnd_of_failed true (hnoted .torn).1 ht)

end

/-- A failure of a recovery's operation, in the words of `RecoverySteps`. -/
theorem replacementFailed_spelled (x : Recovery) (y : Nat) {s q : Part} (hret : q.flash.retired = s.flash.retired)
    (hpend : q.flash.erasePending = s.flash.erasePending) (hend : (record q x.record).ending = (record s x.record).ending) :
    let failed : Part :=
      if s.flash.retired.length < 40 then
        retire y 0 { q with flash := { q.flash with recovery := some { x with target := none, moved := 0 } } }
      else retire y 0 { q with flash := { q.flash with erasePending := s.flash.erasePending ++ [{ block := y, hold := .free }] } }
    finishAbandon (replacementFailed x y q) = if (record s x.record).ending = true then endRecovery { x with target := none } failed
      else if s.flash.retired.length < 40 then failed
      else failRecovery x failed := by
  intro failed
  have hfailed : failedStep x y q = failed := by
    unfold failedStep
    rw [hret]
    refine if_congr Iff.rfl rfl ?_
    rw [← hpend]
    rfl
  rw [finishAbandon_replacementFailed, hfailed, hret, hend]

/-- Settles O42: what class 4 begins, each end of a recovery's operations by `replacementFailed_spelled`, `recoveryDone_eq` and
`finishAbandon`, and what entering FAULT and a programmed entry do. -/
theorem recoverySteps : Obligations.RecoverySteps := by
  refine ⟨?_, ?_, ?_, ?_, ?_, ?_, ?_⟩
  · intro x s hrec f begun first queued cleared
    have hfirst (y : Nat) (t : Part) : beginRecoveryStep x y t = first y t := by
      by_cases h : x.moved < x.page
      · exact (if_pos h).trans (if_pos h).symm
      · refine (if_neg h).trans (Eq.trans ?_ (if_neg h).symm)
        have hsame : stagedEntry x.record (64 * x.position + x.page) (setRecovery (some { x with target := some y }) t)
            = stagedEntry x.record (64 * x.position + x.page) t := rfl
        rw [hsame]
        cases stagedEntry x.record (64 * x.position + x.page) t with
        | none => rfl
        | some e => rfl
    have hcleared : giveUpScrub s = cleared := by
      unfold giveUpScrub
      rfl
    have hframe := giveUpScrub_frame s
    rw [hcleared] at hframe
    rw [serveSpool_of_recovery hrec]
    refine ⟨fun y ht => ?_, fun ht hq => serveRecovery_of_queued ht (replaceQueued_iff.mpr hq), ?_⟩
    · rw [serveRecovery_of_target ht, hfirst]
    · intro ht hq hr g v found draws
      obtain ⟨htaken, herase, hwaits, hnothing⟩ := serveRecovery_of_allocates ht (fun h => hq (replaceQueued_iff.mp h)) hcleared
      clear_value cleared
      have hspool : cleared.spool = s.spool := by rw [hframe]
      have hdraws : mayDraw x.record cleared = true ↔ draws := by
        rw [mayDraw_iff, record, hspool]
        exact Iff.rfl
      have hfound : firstFree cleared.spool.pointer cleared.flash.free = found := by
        rw [hspool]
        rfl
      refine ⟨fun b hd hb => ?_, fun hd hn hw => ⟨fun before e after hsplit hfree hb => ?_, fun hne hheld => ?_⟩, fun hnot => ?_⟩
      · rw [htaken b ((allocate_of_draws (hdraws.mpr hd)).trans (findBlock_of_free (hfound.trans hb))), hfirst]
        have hrecord : record cleared x.record = v := by rw [record, hspool]; rfl
        have hdrawn : drawReservation x.record (takeFree b cleared) = { cleared with
            spool := { s.spool with
              pointer := if b = 1023 then 8 else b + 1
              records := tableSet s.spool.records x.record { v with reservation := v.reservation - 1 } }
            flash := { g with free := g.free.filter fun y => decide (y ≠ b) } } := by
          rw [← hspool, ← hrecord]
          rfl
        rw [hdrawn]
      · exact herase _ ((allocate_of_draws (hdraws.mpr hd)).trans
          (findBlock_of_oldest (hfound.trans hn) hw (oldestUnheld_of_split hsplit hfree hb)))
      · exact hwaits ((allocate_of_draws (hdraws.mpr hd)).trans (findBlock_of_held (hfound.trans hn) hw hne (oldestUnheld_of_held hheld)))
      · refine hnothing ?_
        by_cases hd : draws
        · obtain ⟨hn, hw⟩ := hnot.resolve_left fun h => h hd
          exact (allocate_of_draws (hdraws.mpr hd)).trans (findBlock_of_nothing (hfound.trans hn) hw)
        · exact allocate_of_not fun h => hd (hdraws.mp h)
  · intro r page b k data rs s ha hf hx m q x becomes
    have hq : exec (.programEnd false) s = .next { s with part := ringSpace s.part (arbitrate (finishAbandon (stagingEnd r page b false q))) } :=
      exec_programFailed ha hf hx rfl
    refine ⟨fun he => ?_, fun he hfull => ?_, fun he hroom hworn => ?_⟩
    · have hstaged : stagingEnd r page b false q = setRecovery (some x) q := if_neg (by
        change ¬ (!(record s.part r).ending && (retiredFull q || decide (q.flash.spool = .worn))) = true
        simp [he])
      have hdone : finishAbandon (setRecovery (some x) q) = endRecovery x (setRecovery (some x) q) := finishAbandon_of_some rfl he
      rwa [hstaged, hdone, endRecovery_setRecovery] at hq
    · have hretired : retiredFull q = true := retiredFull_iff.mpr hfull
      have hstaged : stagingEnd r page b false q = failRecovery x (if retiredFull q = true then retire b 0 q else q) := if_pos (by
        change (!(record s.part r).ending && (retiredFull q || decide (q.flash.spool = .worn))) = true
        simp [he, hretired])
      rwa [hstaged, if_pos hretired, finishAbandon_of_none (failRecovery_recovery _ _)] at hq
    · have hretired : ¬ retiredFull q = true := fun h => absurd (retiredFull_iff.mp h) (Nat.not_le.mpr hroom)
      have hspool : q.flash.spool = .worn := hworn
      have hstaged : stagingEnd r page b false q = failRecovery x (if retiredFull q = true then retire b 0 q else q) := if_pos (by
        change (!(record s.part r).ending && (retiredFull q || decide (q.flash.spool = .worn))) = true
        simp [he, hspool])
      rwa [hstaged, if_neg hretired, finishAbandon_of_none (failRecovery_recovery _ _)] at hq
  · intro x y o rs s ha hf hrec ht hr hx f base becomes v failed after
    have hbecomes (i : Instr) (q : Part) (h : exec i s = .next { s with part := ringSpace s.part (arbitrate q) }) : becomes i q := h
    refine ⟨?_, ?_⟩
    · rintro src dst p ecc rfl a noted moved
      obtain ⟨hmoved, hended, hfailed⟩ := exec_recoveryMove ecc ha hf hrec ht hx
      have hflash : (noted .torn).flash = { (base (Nand.put f.nand (64 * dst + p) .torn)).flash with scrubList := (noted .torn).flash.scrubList } :=
        noteRead_flash _ _ _ _ _
      have hspelled : finishAbandon (replacementFailed x y (noted .torn)) = after (failed (noted .torn)) :=
        replacementFailed_spelled x y (s := s.part) (by rw [hflash]) (by rw [hflash]) ((noteRead_keeps _ _ _ _ _).2 x.record)
      refine ⟨hmoved, hended, ?_⟩
      rw [← hspelled]
      exact hfailed
    · rintro b k data rfl q entry placed
      clear_value becomes
      refine ⟨fun he => hbecomes _ _ ?_, fun he => hbecomes _ _ ?_, hbecomes _ _ ?_⟩
      · have hexec := exec_programDone ha hf hx (recoveryEnd_of_done (s := q) hrec ht he)
        have hnone : (recoveryDone x y q).flash.recovery = none := by
          rw [recoveryDone_eq, stagingDone_recovery, retire_recovery]
        rw [finishAbandon_of_none hnone, recoveryDone_eq] at hexec
        exact hexec
      · have hexec := exec_programDone ha hf hx (recoveryEnd_of_ending (s := q) false hrec ht he)
        rwa [finishAbandon_of_some (s := q) hrec he] at hexec
      · have hexec := exec_programFailed ha hf hx (recoveryEnd_of_failed (s := base (Nand.put f.nand (64 * b + k) .torn)) false hrec ht)
        have hspelled : finishAbandon (replacementFailed x y (base (Nand.put f.nand (64 * b + k) .torn)))
            = after (failed (base (Nand.put f.nand (64 * b + k) .torn))) :=
          replacementFailed_spelled x y (s := s.part) rfl rfl rfl
        rw [← hspelled]
        exact hexec
  · intro x b rs s ha hf hrec ht hr hx f base becomes v rest good pooled bad
    have hbecomes (i : Instr) (q : Part) (h : exec i s = .next { s with part := ringSpace s.part (arbitrate q) }) : becomes i q := h
    clear_value becomes
    have hbad : exec (.eraseEnd false) s = .next { s with part := ringSpace s.part (arbitrate (finishAbandon bad)) } := exec_eraseFailed ha hf hx rfl
    have hbadrec : bad.flash.recovery = some x := (retire_recovery _ _ _).trans hrec
    have hbadend : (record bad x.record).ending = v.ending :=
      (retire_ending b 1 (leftWith (Nand.tearBlock f.nand b) s.part) x.record).trans (congrArg Record.ending (record_leftWith _ s.part x.record))
    have hgood : record good x.record = v := record_leftWith _ s.part x.record
    refine ⟨fun he => ⟨hbecomes _ _ ?_, hbecomes _ _ ?_⟩, fun he => ⟨fun hd => hbecomes _ _ ?_, fun hd => hbecomes _ _ ?_, hbecomes _ _ ?_⟩⟩
    · have hexec := exec_eraseDone ha hf hx (replacementErased_of_not (s := good) hrec (.inl he))
      have hsome : finishAbandon pooled = endRecovery x pooled := finishAbandon_of_some hrec he
      rw [← hsome]
      exact hexec
    · rwa [finishAbandon_of_some hbadrec (hbadend.trans he)] at hbad
    · have hexec := exec_eraseDone ha hf hx (replacementErased_of_taken (s := good) hrec he hd)
      have hstands := finishAbandon_of_standing (x := { x with target := some b })
        (s := setRecovery (some { x with target := some b }) (drawReservation x.record (modifyFlash (unpend b) good))) rfl
        ((congrArg Record.ending (record_setRecord_same (modifyFlash (unpend b) good) x.record _ hr)).trans he)
      rw [hstands] at hexec
      exact hexec
    · have hexec := exec_eraseDone ha hf hx (replacementErased_of_not (s := good) hrec (.inr hd))
      have hstands : finishAbandon pooled = pooled := finishAbandon_of_standing hrec he
      rw [← hstands]
      exact hexec
    · rwa [finishAbandon_of_standing hbadrec (hbadend.trans he)] at hbad
  · intro x s hr f v page dropped
    rw [endRecovery_eq]
    refine congrArg (freeDownload x.record) (congrArg (retire x.failed 0) ?_)
    by_cases h : s.flash.retired.length < 40
    · have hdropped : dropped = _ := congrArg (fun records : Vector Record 32 => { s with
          spool := { s.spool with ring := dropped.spool.ring, records := records }
          flash := dropped.flash }) (if_pos h)
      rw [hdropped]
      dsimp only
      rw [if_pos h]
      rfl
    · have hdropped : dropped = _ := congrArg (fun records : Vector Record 32 => { s with
          spool := { s.spool with ring := dropped.spool.ring, records := records }
          flash := dropped.flash }) (if_neg h)
      rw [hdropped]
      dsimp only
      rw [if_neg h]
      rfl
  · intro x s hr v page t j detail
    exact ⟨failRecovery_eq x s, ring_failRecovery x s⟩
  · intro r page s hr v found ring queued crc final last
    refine ⟨fun h => stagingDone_of_none h, ?_⟩
    intro e h programmed k placed
    have hcrc : crc = v.running.getD 0 := runningCrc v.running
    have hplaced : placed = blockPlaced r page e s := rfl
    refine (stagingDone_of_found hr h).trans (if_congr Iff.rfl ?_ hplaced.symm)
    rw [hplaced, hcrc]
    rfl

end Sys2Proof.Machine
end

section
/-! PROOFS. The arbiter class by class (R160): what each class begins, and that the first class with a request is the one that is
served. -/

namespace Sys2Proof.Machine

/-! ### One class after another -/

section

variable {s t : Part} {f : Part → Part} {n : Nat}

theorem engineRuns_iff : engineRuns s = true ↔ alive s = true ∧ s.power.forcedOff = false ∧ (s.power.state = .active ∨ s.power.state = .settling) := by
  simp [engineRuns, and_assoc]

theorem engineIdle_iff : engineIdle s = true ↔ s.flash.running = none := Option.isNone_iff_eq_none

theorem orServe_of_idle (h : s.flash.running = none) : orServe f s = f s := if_pos (engineIdle_iff.mpr h)

theorem orServe_of_busy (h : s.flash.running ≠ none) : orServe f s = s := if_neg fun hi => h (engineIdle_iff.mp hi)

/-- Nothing begins while an operation is in progress, or where the engine does not run. -/
theorem arbitrate_of_not (h : ¬ engineRuns s = true ∨ s.flash.running ≠ none) : arbitrate s = s := by
  refine if_neg ?_
  rw [Bool.and_eq_true, engineIdle_iff]
  rintro ⟨hr, hi⟩
  exact h.elim (fun h => h hr) fun h => h hi

/-- A class above class 4 that begins an operation is the one that is served. -/
theorem serveClasses_of_upper (h : orServe serveFetch (orServe serveSystem (serveJournal s)) = t) (hb : t.flash.running ≠ none) :
    serveClasses (n + 1) s = t := by
  unfold serveClasses
  dsimp only
  rw [h]
  exact if_neg fun hi => hb (engineIdle_iff.mp hi)

theorem serveClasses_of_journal (h : serveJournal s = t) (hb : t.flash.running ≠ none) : serveClasses (n + 1) s = t :=
  serveClasses_of_upper (by rw [h, orServe_of_busy (f := serveSystem) hb, orServe_of_busy hb]) hb

theorem serveClasses_of_system (hj : serveJournal s = s) (hi : s.flash.running = none) (h : serveSystem s = t) (hb : t.flash.running ≠ none) :
    serveClasses (n + 1) s = t :=
  serveClasses_of_upper (by rw [hj, orServe_of_idle hi, h, orServe_of_busy hb]) hb

/-- No class above class 4 holds a request. -/
structure UpperIdle (s : Part) : Prop where
  runs : engineRuns s = true
  idle : s.flash.running = none
  journal : serveJournal s = s
  system : serveSystem s = s
  fetch : serveFetch s = s

theorem arbitrate_of_idle (hr : engineRuns s = true) (hi : s.flash.running = none) : arbitrate s = serveClasses 33 s :=
  if_pos (by rw [Bool.and_eq_true]; exact ⟨hr, engineIdle_iff.mpr hi⟩)

theorem serveClasses_of_upperIdle (h : UpperIdle s) : serveClasses (n + 1) s = match serveSpool s with
    | (t, true) => serveClasses n t
    | (t, false) => orServe serveEraser (orServe serveScrub t) := by
  have hupper : orServe serveFetch (orServe serveSystem (serveJournal s)) = s := by
    rw [h.journal, orServe_of_idle h.idle, h.system, orServe_of_idle h.idle, h.fetch]
  conv_lhs => rw [serveClasses]
  rw [hupper]
  exact if_pos (engineIdle_iff.mpr h.idle)

/-- Class 4 served without a FAULT: classes 5 and 6 follow while the engine is idle. -/
theorem arbitrate_of_spool (h : UpperIdle s) (hs : serveSpool s = (t, false)) : arbitrate s = orServe serveEraser (orServe serveScrub t) := by
  rw [arbitrate_of_idle h.runs h.idle, serveClasses_of_upperIdle h, hs]

theorem arbitrate_of_spool_busy (h : UpperIdle s) (hs : serveSpool s = (t, false)) (hb : t.flash.running ≠ none) : arbitrate s = t := by
  rw [arbitrate_of_spool h hs, orServe_of_busy (f := serveScrub) hb, orServe_of_busy hb]

/-- Where class 4 began nothing and class 5 does, or does not. -/
theorem arbitrate_of_scrub (h : UpperIdle s) (hs : serveSpool s = (t, false)) (hi : t.flash.running = none) {u : Part} (hu : serveScrub t = u) :
    (u.flash.running ≠ none → arbitrate s = u) ∧ (u.flash.running = none → arbitrate s = serveEraser u) := by
  rw [arbitrate_of_spool h hs, orServe_of_idle (f := serveScrub) hi, hu]
  exact ⟨orServe_of_busy, orServe_of_idle⟩

/-- Class 4 ended a record in FAULT, and its journal entry is next (R144, R160). -/
theorem arbitrate_of_fault (h : UpperIdle s) (hs : serveSpool s = (t, true)) (hruns : engineRuns t = true) (hi : t.flash.running = none)
    (hj : (serveJournal t).flash.running ≠ none) : arbitrate s = arbitrate t := by
  rw [arbitrate_of_idle h.runs h.idle, serveClasses_of_upperIdle h, hs, arbitrate_of_idle hruns hi, serveClasses_of_journal rfl hj]
  exact serveClasses_of_journal rfl hj

end

/-! ### Class 1: the journal (R169, R170) -/

section

variable {s : Part}

theorem serveJournal_of_compaction {c : Compaction} (h : s.flash.journal.compaction = some c) :
    serveJournal s = beginOperation (compactionOperation c) .compaction s := by
  have hsame : modifyJournal (fun j => { j with compaction := some c }) s = s := by
    simp only [modifyJournal, modifyFlash, ← h]
  unfold serveJournal
  dsimp only
  rw [h]
  dsimp only
  rw [beginCompactionStep, hsame]

theorem serveJournal_of_empty (hc : s.flash.journal.compaction = none) (hb : s.flash.journal.batch = []) : serveJournal s = s := by
  unfold serveJournal
  dsimp only
  rw [hc]
  exact if_pos (by rw [hb]; rfl)

theorem serveJournal_of_batch {b : Nat} (hc : s.flash.journal.compaction = none) (hb : s.flash.journal.batch ≠ []) (ha : s.flash.journal.active = some b) :
    serveJournal s = if s.flash.journal.due = true then beginCompactionStep (beginCompaction s.flash.journal) s
      else beginOperation (.program b s.flash.journal.nextPage (journalPage ((s.flash.journal.batch.take 128).map JItem.entry)))
        (.journal (s.flash.journal.batch.take 128).length) s := by
  have hne : ¬ s.flash.journal.batch.isEmpty = true := fun h => hb (List.isEmpty_iff.mp h)
  unfold serveJournal
  dsimp only
  rw [hc]
  dsimp only
  rw [if_neg hne, ha]

/-- With entries queued and an active block, class 1 has an operation to begin. -/
theorem serveJournal_busy {b : Nat} (hc : s.flash.journal.compaction = none) (hb : s.flash.journal.batch ≠ []) (ha : s.flash.journal.active = some b) :
    (serveJournal s).flash.running ≠ none := by
  rw [serveJournal_of_batch hc hb ha]
  split
  · exact Option.some_ne_none _
  · exact Option.some_ne_none _

end

/-! ### Classes 2 and 3 (R160) -/

section

variable {s : Part}

theorem serveSystem_of_none (h : s.flash.system = []) : serveSystem s = s := by rw [serveSystem, h]

theorem serveSystem_of_cons {x : SysJob} {xs : List SysJob} (h : s.flash.system = x :: xs) : serveSystem s = beginOperation (systemOperation s x) .system s := by
  rw [serveSystem, h]

theorem queuedFetch_of_queued {b : FetchBuffer} {r o n : Nat} (h : b = .waiting r o n true) : queuedFetch b = some (r, o) := by rw [h]; rfl

theorem queuedFetch_of_none {b : FetchBuffer} (h : ¬ ∃ r o n, b = .waiting r o n true) : queuedFetch b = none := by
  unfold queuedFetch
  split
  · next r o n => exact absurd ⟨r, o, n, rfl⟩ h
  · rfl

theorem serveFetch_of_turn {r o : Nat} (h : queuedFetch (port s s.flash.fetchTurn).fetch = some (r, o)) : serveFetch s = beginFetch s.flash.fetchTurn r o s := by
  rw [serveFetch]
  rw [h]

theorem serveFetch_of_peer {r o : Nat} (h : queuedFetch (port s s.flash.fetchTurn).fetch = none)
    (hp : queuedFetch (port s (peer s.flash.fetchTurn)).fetch = some (r, o)) : serveFetch s = beginFetch (peer s.flash.fetchTurn) r o s := by
  rw [serveFetch]
  rw [h]
  dsimp only
  rw [hp]

theorem serveFetch_of_none (h : queuedFetch (port s s.flash.fetchTurn).fetch = none) (hp : queuedFetch (port s (peer s.flash.fetchTurn)).fetch = none) :
    serveFetch s = s := by
  rw [serveFetch]
  rw [h]
  dsimp only
  rw [hp]

/-- A fetch's page read begun, and the turn passed to the other port (R160). -/
theorem beginFetch_eq {p : Port} {r o n : Nat} (h : (port s p).fetch = .waiting r o n true) :
    beginFetch p r o s = { s with
      ports := s.ports.set p { port s p with fetch := .waiting r o n false }
      flash := { s.flash with
        fetchTurn := peer p
        running := some { operation := .read ((record s r).extent.getD (o / 262144) 0) (o / 4096 % 64), job := .fetch p, live := true,
                          reads := some (r, (record s r).seq) } } } := by
  have hmark : markBegun (port s p) = { port s p with fetch := .waiting r o n false } := by
    rw [markBegun, h]
  have hport : modifyPort p markBegun s = { s with ports := s.ports.set p { port s p with fetch := .waiting r o n false } } := by
    rw [← hmark]
    rfl
  rw [beginFetch, hport]
  rfl

end

/-! ### Class 4: staging (R142, R143) -/

section

variable {s : Part} {e : Staged}

theorem oldestFull_of_split {before after : List Staged} (h : s.spool.ring = before ++ e :: after) (he : e.state = .full)
    (hb : ∀ x, x ∈ before → x.state ≠ .full) : oldestFull s = some e := by
  have hnone : before.find? (fun e => decide (e.state = .full)) = none := by simpa [List.find?_eq_none] using hb
  simp [oldestFull, h, List.find?_append, hnone, he]

theorem oldestFull_of_none (h : ∀ x, x ∈ s.spool.ring → x.state ≠ .full) : oldestFull s = none := by
  simpa [oldestFull, List.find?_eq_none] using h

theorem serveSpool_of_staging (h : s.flash.recovery = none) : serveSpool s = serveStaging s := by
  rw [serveSpool, h]

theorem serveStaging_of_none (h : oldestFull s = none) : serveStaging s = (s, false) := by rw [serveStaging, h]

theorem serveStaging_of_placed (h : oldestFull s = some e) (hn : needsBlock e s = false) : serveStaging s = (beginStaging e s, false) := by
  rw [serveStaging, h]
  exact if_pos (by rw [hn]; rfl)

/-- An entry whose position has no block is given one (R143). -/
theorem serveStaging_of_needs (h : oldestFull s = some e) (hn : needsBlock e s = true) :
    (∀ b, allocate e.record s = .taken b → serveStaging s = (beginStaging e (takeBlock e.record b (takeFree b s)), false))
      ∧ (∀ b, allocate e.record s = .erase b → serveStaging s = (beginOperation (.erase b) (.allocation e.record) s, false))
      ∧ (allocate e.record s = .waits → serveStaging s = (s, false))
      ∧ (allocate e.record s = .nothing → serveStaging s = (faultRecord e.record s, true)) := by
  have hserve : serveStaging s = match allocate e.record s with
      | .taken b => (beginStaging e (takeBlock e.record b (takeFree b s)), false)
      | .erase b => (beginOperation (.erase b) (.allocation e.record) s, false)
      | .waits => (s, false)
      | .nothing => (faultRecord e.record s, true) := by
    rw [serveStaging, h]
    exact if_neg (by rw [hn]; decide)
  rw [hserve]
  exact ⟨fun b hb => by rw [hb], fun b hb => by rw [hb], fun hb => by rw [hb], fun hb => by rw [hb]⟩

end

/-! ### Class 5: the scrubber, and class 6: the eraser (R161, R165) -/

section

variable {s : Part} {x : Scrub}

theorem serveScrub_of_hand (h : s.flash.scrub = some x) (hr : x.replace = none) :
    serveScrub s = beginReading x.record (.move x.old x.target x.moved) .scrub s := by
  rw [serveScrub, h]
  exact if_neg (by rw [hr]; decide)

theorem serveScrub_of_queued (h : s.flash.scrub = some x) (hr : x.replace ≠ none) : serveScrub s = s := by
  rw [serveScrub, h]
  exact if_pos (Option.isSome_iff_ne_none.mpr hr)

theorem serveScrub_of_waiting (h : s.flash.scrub = none) (hw : spoolWaits s = true) : serveScrub s = s := by
  rw [serveScrub, h]
  exact if_pos hw

theorem serveScrub_of_heads (h : s.flash.scrub = none) (hw : spoolWaits s = false) : serveScrub s = serveScrubHeads s.flash.scrubList.length s := by
  rw [serveScrub, h]
  exact if_neg (by rw [hw]; decide)

theorem serveEraser_of_oldest {b : Nat} (hr : s.flash.spool = .ready) (ho : oldestUnheld s.flash = some b) :
    serveEraser s = beginOperation (.erase b) .eraser s := by
  rw [serveEraser, if_pos hr, ho]

theorem serveEraser_of_none (h : s.flash.spool ≠ .ready ∨ oldestUnheld s.flash = none) : serveEraser s = s := by
  unfold serveEraser
  by_cases hr : s.flash.spool = .ready
  · rw [if_pos hr, h.resolve_left fun h => h hr]
  · exact if_neg hr

/-- The head of the scrub list removed, or taken up (R165). -/
theorem serveScrubHeads_of_cons {b : Nat} {rest : List Nat} (h : s.flash.scrubList = b :: rest) (n : Nat) :
    (scrubbable b s = none ∨ poolBlocks s ≤ totalReservation s → serveScrubHeads (n + 1) s = serveScrubHeads n (dropScrubHead s))
      ∧ ∀ r k, scrubbable b s = some (r, k) → totalReservation s < poolBlocks s →
        (∀ t, findBlock s = .taken t → serveScrubHeads (n + 1) s = beginScrub r k b t (takeFree t s))
          ∧ (∀ t, findBlock s = .erase t → serveScrubHeads (n + 1) s = beginOperation (.erase t) .scrubTarget s)
          ∧ ((findBlock s = .waits ∨ findBlock s = .nothing) → serveScrubHeads (n + 1) s = serveScrubHeads n (dropScrubHead s)) := by
  refine ⟨fun hs => ?_, fun r k hs hp => ⟨fun t ht => ?_, fun t ht => ?_, fun ht => ?_⟩⟩
  · rw [serveScrubHeads, h]
    dsimp only
    cases hx : scrubbable b s with
    | none => rfl
    | some x =>
      rw [hx] at hs
      exact if_pos (hs.resolve_left fun h => nomatch h)
  · rw [serveScrubHeads, h]
    dsimp only
    rw [hs]
    dsimp only
    rw [if_neg (Nat.not_le.mpr hp), ht]
  · rw [serveScrubHeads, h]
    dsimp only
    rw [hs]
    dsimp only
    rw [if_neg (Nat.not_le.mpr hp), ht]
  · rw [serveScrubHeads, h]
    dsimp only
    rw [hs]
    dsimp only
    rw [if_neg (Nat.not_le.mpr hp)]
    rcases ht with ht | ht
    · rw [ht]
    · rw [ht]

end

end Sys2Proof.Machine
end

section
/-! PROOFS. The snapshot that a compaction writes, entry by entry (R170), and a part in which no class above class 4 holds a request. -/

namespace Sys2Proof.Machine

/-! ### The snapshot (R170) -/

/-- The entries of one record, as R170 lists them. -/
theorem recordSnapshot_eq (i : Nat) (v : JRecord) :
    recordSnapshot i v =
      if v.state = .free then []
      else [.opened (byteOf i) v.title v.writer (BitVec.ofNat 32 v.declared) v.seq (BitVec.ofNat 16 v.extent.length) v.checkpoint]
        ++ ((List.range ((v.extent.length + 11) / 12)).map fun c =>
          .extent (byteOf i) (BitVec.ofNat 16 (12 * c)) (((v.extent.drop (12 * c)).take 12).map (BitVec.ofNat 16)))
        ++ (match v.state with
          | .sealed => [.sealed (byteOf i) v.corrupt v.running none]
          | .corrupt => [.sealed (byteOf i) v.corrupt v.running none]
          | .claimed => [.sealed (byteOf i) v.corrupt v.running none, .claimed (byteOf i)]
          | .fault => [.faulted (byteOf i)]
          | _ => []) := by
  unfold recordSnapshot
  refine if_congr Iff.rfl rfl ?_
  rw [List.append_assoc, List.append_assoc]
  refine congrArg _ ?_
  cases v.state <;> rfl

/-- A table with its indexes. -/
theorem zipIdx_toList {α : Type} {n : Nat} (t : Vector α n) (d : α) : t.toList.zipIdx = (List.range n).map fun i => (tableGet t i d, i) := by
  refine List.ext_getElem (by simp) fun i h1 h2 => ?_
  have hi : i < n := by simpa using h2
  simp [tableGet, List.getD, hi]

theorem snapshotEntries_eq (g : Word) (r : Replay) :
    snapshotEntries g r = .snapBegin g ::
      ((List.range 32).flatMap (fun i => recordSnapshot i (tableGet r.records i freeJRecord)) ++ retireSnapshot r.retired r.worn)
        ++ [.snapEnd g (BitVec.ofNat 16
          (((List.range 32).flatMap (fun i => recordSnapshot i (tableGet r.records i freeJRecord)) ++ retireSnapshot r.retired r.worn).length + 2))] := by
  rw [snapshotEntries, zipIdx_toList r.records freeJRecord, List.flatMap_map]
  rfl

theorem snapshotPages_length (es : List JEntry) : (snapshotPages es).length = (es.length + 127) / 128 := by
  rw [snapshotPages, List.length_map, List.length_range]

/-- Every page of a snapshot but the last is full. -/
theorem snapshotPages_page (es : List JEntry) (k : Nat) (h : k < (snapshotPages es).length) :
    (snapshotPages es)[k].length ≤ 128 ∧ (k + 1 < (snapshotPages es).length → (snapshotPages es)[k].length = 128) := by
  have hpage : (snapshotPages es)[k] = (es.drop (128 * k)).take 128 := by
    simp only [snapshotPages, List.getElem_map, List.getElem_range]
  rw [hpage, List.length_take, List.length_drop, snapshotPages_length]
  omega

/-! ### No request above class 4 -/

/-- The engine is idle, and the journal, the system writes and the fetches hold no request. -/
structure SpoolTurn (s : Part) : Prop where
  runs : engineRuns s = true
  idle : s.flash.running = none
  compaction : s.flash.journal.compaction = none
  batch : s.flash.journal.batch = []
  system : s.flash.system = []
  fetch : ¬ ∃ r o n, (port s s.flash.fetchTurn).fetch = .waiting r o n true
  peerFetch : ¬ ∃ r o n, (port s (peer s.flash.fetchTurn)).fetch = .waiting r o n true

theorem SpoolTurn.upperIdle {s : Part} (h : SpoolTurn s) : UpperIdle s where
  runs := h.runs
  idle := h.idle
  journal := serveJournal_of_empty h.compaction h.batch
  system := serveSystem_of_none h.system
  fetch := serveFetch_of_none (queuedFetch_of_none h.fetch) (queuedFetch_of_none h.peerFetch)

theorem SpoolTurn.dropScrubHead {s : Part} (h : SpoolTurn s) : SpoolTurn (dropScrubHead s) := ⟨h.runs, h.idle, h.compaction, h.batch, h.system, h.fetch, h.peerFetch⟩

/-- A record that entered FAULT in class 4 leaves the journal the next request (R144, R160). -/
theorem arbitrate_of_faulted {s t : Part} {e : JEntry} (h : SpoolTurn s) (hs : serveSpool s = (t, true)) (ha : s.flash.journal.active ≠ none)
    (hruns : engineRuns t = engineRuns s) (hi : t.flash.running = s.flash.running) (hj : t.flash.journal = appendEntry e s.flash.journal) :
    arbitrate s = arbitrate t := by
  obtain ⟨b, hb⟩ := Option.ne_none_iff_exists'.mp ha
  refine arbitrate_of_fault h.upperIdle hs (hruns.trans h.runs) (hi.trans h.idle) (serveJournal_busy (b := b) ?_ ?_ ?_)
  · rw [hj]; exact h.compaction
  · rw [hj]; exact List.append_ne_nil_of_right_ne_nil _ (List.cons_ne_nil _ _)
  · rw [hj]; exact hb

/-- Entering FAULT (R144). -/
theorem faultRecord_eq (r : Nat) (s : Part) :
    faultRecord r s = raiseBoth .download (downloadDetail r 3 (record s r).title)
      { s with
        spool := { s.spool with
          ring := s.spool.ring.filter fun e => decide (e.record ≠ r) || decide (e.state = .programming)
          records := tableSet s.spool.records r
            { record s r with state := .fault, received := (record s r).programmed, reservation := 0, running := none } }
        flash := { s.flash with journal := appendEntry (.faulted (byteOf r)) s.flash.journal } } := rfl

/-- Whatever class 4 makes of a recovery without a FAULT, the recovery stands afterwards. -/
theorem serveRecovery_stands {x : Recovery} {s t : Part} (hx : s.flash.recovery = some x) (h : serveRecovery x s = (t, false)) :
    t.flash.recovery ≠ none := by
  have hstep (y : Nat) (u : Part) : (beginRecoveryStep x y u).flash.recovery ≠ none := by
    unfold beginRecoveryStep
    dsimp only
    split
    · exact Option.some_ne_none _
    · split
      · exact Option.some_ne_none _
      · exact Option.some_ne_none _
  have hgiven : (giveUpScrub s).flash.recovery ≠ none := by
    rw [giveUpScrub_frame]
    change s.flash.recovery ≠ none
    rw [hx]
    exact Option.some_ne_none _
  unfold serveRecovery at h
  split at h
  · cases h
    exact hstep _ _
  · split at h
    · cases h
      rw [hx]
      exact Option.some_ne_none _
    · dsimp only at h
      split at h
      · cases h
        exact hstep _ _
      · cases h
        exact hgiven
      · cases h
        exact hgiven
      · cases h

/-- A recovery that class 4 ended in FAULT. -/
theorem serveRecovery_faults {x : Recovery} {s t : Part} (h : serveRecovery x s = (t, true)) : t = failRecovery x (giveUpScrub s) := by
  unfold serveRecovery at h
  split at h
  · cases h
  · split at h
    · cases h
    · dsimp only at h
      split at h
      · cases h
      · cases h
      · cases h
      · cases h
        rfl

end Sys2Proof.Machine
end

section
/-! PROOFS. The arbiter begins the next operation of the lowest-numbered class that holds a request (`ArbiterOrder`). -/

namespace Sys2Proof.Machine

section

variable {s : Part} {e : Staged} {b r : Nat}

/-- A free block taken for a record (R143). -/
theorem takeBlock_takeFree (hr : r < 32) :
    takeBlock r b (takeFree b s) = { s with
      spool := { s.spool with
        pointer := if b = 1023 then 8 else b + 1
        records := tableSet s.spool.records r { record s r with extent := (record s r).extent ++ [b], reservation := (record s r).reservation - 1 } }
      flash := { s.flash with free := s.flash.free.filter fun x => decide (x ≠ b) } } := by
  have hdrawn : drawReservation r (takeFree b s) = setRecord r { record s r with reservation := (record s r).reservation - 1 } (takeFree b s) := rfl
  rw [takeBlock, hdrawn, extend, modifyRecord, record_setRecord_same _ _ _ hr, setRecord, setRecord_spool]
  simp only [tableSet_tableSet]
  rfl

/-- The entry programmed into the block that its position was given (R142, R143). -/
theorem beginStaging_taken (hr : e.record < 32) (hp : e.page % 64 = 0) (hlen : (record s e.record).extent.length = e.page / 64) :
    beginStaging e (takeBlock e.record b (takeFree b s)) = { s with
      spool := { s.spool with
        pointer := if b = 1023 then 8 else b + 1
        ring := s.spool.ring.map fun x => if x.record = e.record ∧ x.page = e.page then { x with state := .programming } else x
        records := tableSet s.spool.records e.record
          { record s e.record with extent := (record s e.record).extent ++ [b], reservation := (record s e.record).reservation - 1 } }
      flash := { s.flash with
        free := s.flash.free.filter fun x => decide (x ≠ b)
        running := some { operation := .program b 0 e.data, job := .staging e.record e.page, live := true, reads := none } } } := by
  have htaken := takeBlock_takeFree (s := s) (b := b) hr
  have hrecord : record (takeBlock e.record b (takeFree b s)) e.record
      = { record s e.record with extent := (record s e.record).extent ++ [b], reservation := (record s e.record).reservation - 1 } := by
    rw [htaken]
    exact tableGet_tableSet_same _ _ _ _ hr
  have hblock : ((record s e.record).extent ++ [b]).getD (e.page / 64) 0 = b := by
    rw [← hlen, List.getD_eq_getElem?_getD, List.getElem?_append_right (Nat.le_refl _), Nat.sub_self]
    rfl
  rw [beginStaging, hrecord, hblock, hp, htaken]
  rfl

/-- What stands in the pool, where nothing free is to be had: every pending block is held, or there is none (R143). -/
theorem findBlock_waits_or_nothing (h : firstFree s.spool.pointer s.flash.free = none)
    (hn : (s.flash.spool = .worn ∨ s.flash.erasePending = []) ∨ (s.flash.spool ≠ .worn ∧ s.flash.erasePending ≠ [] ∧ ∀ x, x ∈ s.flash.erasePending → x.hold ≠ .free)) :
    findBlock s = .waits ∨ findBlock s = .nothing := by
  rcases hn with hn | ⟨hw, hp, hheld⟩
  · exact .inr (findBlock_of_nothing h hn)
  · exact .inl (findBlock_of_held h hw hp (oldestUnheld_of_held hheld))

theorem spoolWaits_of_recovery (h : s.flash.recovery ≠ none) : spoolWaits s = true := by
  rw [spoolWaits, Bool.or_eq_true]
  exact .inl (Option.isSome_iff_ne_none.mpr h)

theorem spoolWaits_of_full (h : oldestFull s = some e) : spoolWaits s = true := by
  rw [spoolWaits, h, Bool.or_eq_true]
  exact .inr rfl

theorem spoolWaits_of_none (h : s.flash.recovery = none) (ho : oldestFull s = none) : spoolWaits s = false := by
  rw [spoolWaits, h, ho]
  rfl

/-- Class 5 and class 6 after a class 4 that began nothing but still holds a request (R160). -/
theorem arbitrate_of_waiting {t : Part} (h : UpperIdle s) (hs : serveSpool s = (t, false)) (hi : t.flash.running = none) (hw : spoolWaits t = true) :
    (∀ z, t.flash.scrub = some z → z.replace = none → arbitrate s = beginReading z.record (.move z.old z.target z.moved) .scrub t)
      ∧ ((∀ z, t.flash.scrub = some z → z.replace ≠ none) → arbitrate s = serveEraser t) := by
  refine ⟨fun z hz hr => (arbitrate_of_scrub h hs hi (serveScrub_of_hand hz hr)).1 (Option.some_ne_none _), fun hnone => ?_⟩
  have hstays : serveScrub t = t := by
    cases hz : t.flash.scrub with
    | none => exact serveScrub_of_waiting hz hw
    | some z => exact serveScrub_of_queued hz (hnone z hz)
  exact (arbitrate_of_scrub h hs hi hstays).2 hi

/-- With no FULL entry and no recovery, class 5 takes the head of its list (R165). -/
theorem arbitrate_of_heads (h : SpoolTurn s) (hrec : s.flash.recovery = none) (hnone : ∀ x, x ∈ s.spool.ring → x.state ≠ .full) (hz : s.flash.scrub = none) :
    arbitrate s = orServe serveEraser (serveScrubHeads s.flash.scrubList.length s) := by
  have ho := oldestFull_of_none hnone
  have hs : serveSpool s = (s, false) := (serveSpool_of_staging hrec).trans (serveStaging_of_none ho)
  rw [arbitrate_of_spool h.upperIdle hs, orServe_of_idle (f := serveScrub) h.idle, serveScrub_of_heads hz (spoolWaits_of_none hrec ho)]

/-- The head of the scrub list is given up, or relocated (R165). -/
theorem arbitrate_of_head (h : SpoolTurn s) (hrec : s.flash.recovery = none) (hnone : ∀ x, x ∈ s.spool.ring → x.state ≠ .full) (hz : s.flash.scrub = none)
    {head : Nat} {rest : List Nat} (hl : s.flash.scrubList = head :: rest) :
    (scrubbable head s = none ∨ poolBlocks s ≤ totalReservation s → arbitrate s = arbitrate (dropScrubHead s))
      ∧ ∀ r k, scrubbable head s = some (r, k) → totalReservation s < poolBlocks s →
        (∀ t, findBlock s = .taken t → arbitrate s = beginScrub r k head t (takeFree t s))
          ∧ (∀ t, findBlock s = .erase t → arbitrate s = beginOperation (.erase t) .scrubTarget s)
          ∧ ((findBlock s = .waits ∨ findBlock s = .nothing) → arbitrate s = arbitrate (dropScrubHead s)) := by
  have hheads : arbitrate s = orServe serveEraser (serveScrubHeads (rest.length + 1) s) := by
    rw [arbitrate_of_heads h hrec hnone hz, hl]
    rfl
  have hdropped : arbitrate (dropScrubHead s) = orServe serveEraser (serveScrubHeads rest.length (dropScrubHead s)) := by
    have hrest : (dropScrubHead s).flash.scrubList = rest := congrArg List.tail hl
    rw [arbitrate_of_heads (s := dropScrubHead s) h.dropScrubHead hrec hnone hz, hrest]
  obtain ⟨hdrop, htake⟩ := serveScrubHeads_of_cons hl rest.length
  rw [hheads, hdropped]
  refine ⟨fun hs => by rw [hdrop hs], fun r k hs hp => ?_⟩
  obtain ⟨htaken, herase, hgone⟩ := htake r k hs hp
  refine ⟨fun t ht => ?_, fun t ht => ?_, fun ht => by rw [hgone ht]⟩
  · rw [htaken t ht]
    exact orServe_of_busy (Option.some_ne_none _)
  · rw [herase t ht]
    exact orServe_of_busy (Option.some_ne_none _)

end

/-- Settles O43: class by class, by what each class begins and by `SpoolTurn` for the classes from 4 on. -/
theorem arbiterOrder : Obligations.ArbiterOrder := by
  refine ⟨?_, ?_, ?_⟩
  · intro s runs f j begunFor begun reading found after pool reserved oldest none_ held programming wants
    have hruns : engineRuns s = true ↔ runs := engineRuns_iff
    refine ⟨fun h => arbitrate_of_not (h.imp_left fun h hr => h (hruns.mp hr)), fun hr hi => ?_⟩
    have hidle : arbitrate s = serveClasses 33 s := arbitrate_of_idle (hruns.mpr hr) hi
    refine ⟨fun c hc => ?_, fun hc hb b ha hd => ?_, fun hc hb b ha hd => ?_, fun hc hb => ⟨fun x xs hsys => ?_, fun hsys => ⟨fun r o n hq => ?_, fun hn r o n hq => ?_, fun hn hn' x hrec => ?_, fun hn hn' hrec => ?_⟩⟩⟩
    · exact hidle.trans (serveClasses_of_journal (serveJournal_of_compaction hc) (Option.some_ne_none _))
    · have hserve := serveJournal_of_batch hc hb ha
      rw [if_neg (by rw [hd]; decide), List.length_take] at hserve
      exact hidle.trans (serveClasses_of_journal hserve (Option.some_ne_none _))
    · intro g recorded retired body entries other
      have hserve := serveJournal_of_batch hc hb ha
      rw [if_pos hd] at hserve
      have hrecorded : recorded = fun i => recordSnapshot i (tableGet j.journaled.records i freeJRecord) := funext fun i => (recordSnapshot_eq i _).symm
      have hbody : body = (List.range 32).flatMap (fun i => recordSnapshot i (tableGet j.journaled.records i freeJRecord))
          ++ retireSnapshot retired j.journaled.worn :=
        (congrArg (fun f => (List.range 32).flatMap f ++ retired.map (fun x => JEntry.retire (BitVec.ofNat 16 x) false)
          ++ (if j.journaled.worn = true then [JEntry.retire (BitVec.ofNat 16 (retired.getLastD 0xFFFF)) true] else [])) hrecorded).trans
          (List.append_assoc _ _ _)
      have hentries : entries = snapshotEntries g j.journaled :=
        (congrArg (fun x => JEntry.snapBegin g :: x ++ [JEntry.snapEnd g (BitVec.ofNat 16 (x.length + 2))]) hbody).trans (snapshotEntries_eq g j.journaled).symm
      have hother : otherBlock j.active = other := by
        rw [ha, otherBlock]
        exact if_congr Option.some_inj rfl rfl
      have hcompaction : beginCompaction j = { dest := other, generation := g, isErased := false, pages := snapshotPages entries, page := 0, format := false } := by
        rw [hentries, beginCompaction, hother]
      rw [hcompaction] at hserve
      exact ⟨snapshotPages entries, snapshotPages_flatten entries, snapshotPages_length entries, snapshotPages_page entries,
        hidle.trans (serveClasses_of_journal hserve (Option.some_ne_none _))⟩
    · exact hidle.trans (serveClasses_of_system (serveJournal_of_empty hc hb) hi (serveSystem_of_cons hsys) (Option.some_ne_none _))
    · have hfetch := (serveFetch_of_turn (queuedFetch_of_queued hq)).trans (beginFetch_eq hq)
      refine hidle.trans (serveClasses_of_upper ?_ (Option.some_ne_none _))
      rw [serveJournal_of_empty hc hb, orServe_of_idle (f := serveSystem) hi, serveSystem_of_none hsys, orServe_of_idle hi, hfetch]
    · have hfetch := (serveFetch_of_peer (queuedFetch_of_none hn) (queuedFetch_of_queued hq)).trans (beginFetch_eq hq)
      refine hidle.trans (serveClasses_of_upper ?_ (Option.some_ne_none _))
      rw [serveJournal_of_empty hc hb, orServe_of_idle (f := serveSystem) hi, serveSystem_of_none hsys, orServe_of_idle hi, hfetch]
    · have hturn : SpoolTurn s := ⟨hruns.mpr hr, hi, hc, hb, hsys, hn, hn'⟩
      have hserve := serveSpool_of_recovery hrec
      refine ⟨fun t ht hbusy => arbitrate_of_spool_busy hturn.upperIdle ht hbusy, fun t ht hrest => ?_, fun t ht ha => ?_⟩
      · have hwaits : spoolWaits t = true := spoolWaits_of_recovery (serveRecovery_stands hrec (hserve.symm.trans ht))
        obtain ⟨hscrub, hstays⟩ := arbitrate_of_waiting hturn.upperIdle ht hrest hwaits
        refine ⟨hscrub, fun hnone => ⟨fun hready before e rest hsplit hfree hb' => ?_, fun hnot => ?_⟩⟩
        · exact (hstays hnone).trans (serveEraser_of_oldest hready (oldestUnheld_of_split hsplit hfree hb'))
        · exact (hstays hnone).trans (serveEraser_of_none (hnot.imp_right oldestUnheld_of_held))
      · obtain rfl := serveRecovery_faults (hserve.symm.trans ht)
        have hframe := giveUpScrub_frame s
        refine arbitrate_of_faulted (e := .faulted (byteOf x.record)) hturn ht ha ?_ ?_ ?_
        · rw [failRecovery_eq, hframe]; rfl
        · rw [failRecovery_eq, hframe]; rfl
        · rw [failRecovery_eq, hframe]; rfl
    · have hturn : SpoolTurn s := ⟨hruns.mpr hr, hi, hc, hb, hsys, hn, hn'⟩
      have hserve := serveSpool_of_staging hrec
      refine ⟨fun before e rest hring hfull hb' hplace => ?_, ?_, fun hnone => ⟨fun x hx hrep => ?_, fun hscrub h rest hlist => ?_, fun hscrub hlist => ?_⟩⟩
      · have ho := oldestFull_of_split hring hfull hb'
        have hneeds : needsBlock e s = false := by
          rw [← Bool.not_eq_true, needsBlock_iff]
          rintro ⟨hp, hlen⟩
          exact hplace.elim (fun h => h hp) fun h => absurd hlen (Nat.not_le.mpr h)
        exact arbitrate_of_spool_busy hturn.upperIdle (hserve.trans (serveStaging_of_placed ho hneeds)) (Option.some_ne_none _)
      · intro before e rest hring hfull hb' hlt hp v hlen draws detail faulted
        have ho := oldestFull_of_split hring hfull hb'
        have hneeds : needsBlock e s = true := needsBlock_iff.mpr ⟨hp, Nat.le_of_eq hlen⟩
        obtain ⟨htaken, herase, hwaits, hnothing⟩ := serveStaging_of_needs ho hneeds
        have hdraws : mayDraw e.record s = true ↔ draws := mayDraw_iff
        refine ⟨fun b hd hf => ?_, fun hd hf hw x hx => ?_, fun hd hf hh => ?_, fun hnot ha => ?_⟩
        · have hall : allocate e.record s = .taken b := (allocate_of_draws (hdraws.mpr hd)).trans (findBlock_of_free hf)
          rw [arbitrate_of_spool_busy hturn.upperIdle (hserve.trans (htaken b hall)) (Option.some_ne_none _)]
          exact beginStaging_taken hlt hp hlen
        · obtain ⟨front, back, hsplit, hfree, hfront⟩ := hx
          have hall : allocate e.record s = .erase x.block :=
            (allocate_of_draws (hdraws.mpr hd)).trans (findBlock_of_oldest hf hw (oldestUnheld_of_split hsplit hfree hfront))
          exact arbitrate_of_spool_busy hturn.upperIdle (hserve.trans (herase _ hall)) (Option.some_ne_none _)
        · obtain ⟨hw, hne, hheld⟩ := hh
          have hall : allocate e.record s = .waits := (allocate_of_draws (hdraws.mpr hd)).trans (findBlock_of_held hf hw hne (oldestUnheld_of_held hheld))
          obtain ⟨hscrub, hstays⟩ := arbitrate_of_waiting hturn.upperIdle (hserve.trans (hwaits hall)) hi (spoolWaits_of_full ho)
          exact ⟨hscrub, fun h => (hstays h).trans (serveEraser_of_none (.inr (oldestUnheld_of_held hheld)))⟩
        · have hall : allocate e.record s = .nothing := by
            by_cases hd : draws
            · obtain ⟨hf, hnone⟩ := hnot.resolve_left fun h => h hd
              exact (allocate_of_draws (hdraws.mpr hd)).trans (findBlock_of_nothing hf hnone)
            · exact allocate_of_not fun h => hd (hdraws.mp h)
          have hfaulted : faultRecord e.record s = faulted := by
            have hjournal : appendEntry (.faulted (byteOf e.record)) j = { j with
                batch := [{ serial := j.nextSerial, entry := .faulted (byteOf e.record), live := true }], nextSerial := j.nextSerial + 1 } := by
              rw [appendEntry, hb, List.nil_append]
            rw [faultRecord_eq, hjournal]
            rfl
          rw [← hfaulted]
          exact arbitrate_of_faulted (e := .faulted (byteOf e.record)) hturn (hserve.trans (hnothing hall)) ha rfl rfl rfl
      · have ho := oldestFull_of_none hnone
        exact (arbitrate_of_scrub hturn.upperIdle (hserve.trans (serveStaging_of_none ho)) hi (serveScrub_of_hand hx hrep)).1 (Option.some_ne_none _)
      · intro dropped
        obtain ⟨hdrop, htake⟩ := arbitrate_of_head hturn hrec hnone hscrub hlist
        have hdropped : arbitrate (dropScrubHead s) = dropped := by
          have htail : f.scrubList.tail = rest := congrArg List.tail hlist
          exact congrArg (fun l => arbitrate { s with flash := { f with scrubList := l } }) htail
        rw [hdropped] at hdrop
        refine ⟨hdrop, fun r k hs hp => ?_⟩
        obtain ⟨htaken, herase, hgone⟩ := htake r k hs hp
        refine ⟨fun b hf => htaken b (findBlock_of_free hf), fun hf hw x hx => ?_, fun hf hnot => ?_⟩
        · obtain ⟨front, back, hsplit, hfree, hfront⟩ := hx
          exact herase _ (findBlock_of_oldest hf hw (oldestUnheld_of_split hsplit hfree hfront))
        · exact (hgone (findBlock_waits_or_nothing hf hnot)).trans hdropped
      · have hheads : arbitrate s = serveEraser s := by
          rw [arbitrate_of_heads hturn hrec hnone hscrub, hlist]
          exact orServe_of_idle hi
        refine ⟨fun hready x hx => ?_, fun hnot => ?_⟩
        · obtain ⟨front, back, hsplit, hfree, hfront⟩ := hx
          exact hheads.trans (serveEraser_of_oldest hready (oldestUnheld_of_split hsplit hfree hfront))
        · exact hheads.trans (serveEraser_of_none (hnot.imp_right oldestUnheld_of_held))
  · intro b r k s hinj hnodup
    exact scrubbable_eq_some ⟨hinj, hnodup⟩
  · rintro ⟨kind, step, image⟩ s page k
    cases kind with
    | rights => rfl
    | waveform =>
      have hpage (i : Nat) : waveformPage s i
          = page ((List.range (min 4096 (53040 - 4096 * i))).map fun x => cell s 29 (524288 + 4096 * i + x)) := by
        have hbyte : (fun x => incomingByte s (4096 * i + x)) = fun x => cell s 29 (524288 + 4096 * i + x) :=
          funext fun x => congrArg (cell s 29) (Nat.add_assoc 524288 (4096 * i) x).symm
        rw [waveformPage, hbyte]
        rfl
      exact if_congr Iff.rfl rfl (congrArg (Operation.program 1 (step - 1)) (hpage (step - 1)))
    | sleepScreen => rfl

end Sys2Proof.Machine
end

section
/-! PROOFS. `SpoolStaysLegal` fails: `spoolCore` says nothing of the record, the position and the head of a scrub relocation, so
its states include one in which a relocation whose REPLACE is queued and a recovery stand for the same position of a record. When the
REPLACE is written, the position holds the relocation's target, and the recovery's failed block is no longer there. -/

namespace Sys2Proof.Machine

/-! ### The state (`spoolLegal` holds there) -/

/-- Record 0 has one block, 8, of its two, whose first page is being programmed. -/
def clashRecord : Record := { freeRecord with state := .opened, declared := 524288, received := 4096, reservation := 1, running := some 0, checkpoint := 0, extent := [8] }

/-- The entry whose program failed. -/
def clashEntry : Staged := { record := 0, page := 0, data := List.replicate 4096 0, fill := 4096, crcAfter := 0, state := .programming }

/-- The recovery of that program, with no replacement yet. -/
def clashRecovery : Recovery := { record := 0, position := 0, failed := 8, page := 0, target := none, moved := 0 }

/-- A relocation of the same block to block 9, its REPLACE queued with serial 0. -/
def clashScrub : Scrub := { record := 0, position := 0, old := 8, target := 9, moved := 64, replace := some 0 }

def clashItem : JItem := { serial := 0, entry := .replace 0 0 8 9, live := true }

/-- Every spool block but 8 and 9. -/
def clashBad : List Nat := (List.range 1014).map (· + 10)

/-- A part in ACTIVE that writes the journal page with that REPLACE. -/
def clashPart : Part :=
  { State.reset.part with
    power := { State.reset.part.power with state := .active }
    spool := { State.reset.part.spool with records := tableSet (Vector.replicate 32 freeRecord) 0 clashRecord, ring := [clashEntry] }
    flash := { State.reset.part.flash with
      free := [], erasePending := [], retired := [], scrubList := [], spool := .ready, system := []
      factoryBad := clashBad
      recovery := some clashRecovery
      scrub := some clashScrub
      running := some { operation := .program 6 1 [], job := .journal 1, live := true, reads := none }
      journal := { State.reset.part.flash.journal with active := some 6, nextPage := 1, batch := [clashItem], due := false, compaction := none } } }

theorem record_clashPart (r : Nat) (hr : r < 32) : record clashPart r = if r = 0 then clashRecord else freeRecord := by
  by_cases h : r = 0
  · subst h
    exact (tableGet_tableSet_same _ _ _ _ (by decide)).trans (if_pos rfl).symm
  · refine (tableGet_tableSet_other _ _ _ _ _ (Ne.symm h)).trans ?_
    rw [if_neg h, tableGet_of_lt _ _ _ hr]
    exact Vector.getElem_replicate _

theorem placedBlocks_clashPart : placedBlocks clashPart = 8 :: clashBad ++ [9] := by
  have hextents : allExtents clashPart = [8] := by
    rw [allExtents, toList_records, List.flatMap_map]
    have hrest : (List.range 32).flatMap (fun i => (record clashPart i).extent) = (List.range 32).flatMap fun i => if i = 0 then [8] else [] := by
      refine List.flatMap_congr fun i hi => ?_
      rw [record_clashPart i (List.mem_range.mp hi)]
      split <;> rfl
    rw [hrest]
    rfl
  have hfree : clashPart.flash.free = [] := rfl
  have hpending : clashPart.flash.erasePending = [] := rfl
  have hretired : clashPart.flash.retired = [] := rfl
  have hbad : clashPart.flash.factoryBad = clashBad := by simp only [clashPart]
  have hscrub : clashPart.flash.scrub = some clashScrub := rfl
  have hrecovery : clashPart.flash.recovery = some clashRecovery := rfl
  rw [placedBlocks, hextents, hfree, hpending, hretired, hbad, hscrub, hrecovery]
  simp [clashScrub, clashRecovery]

/-- Each spool block is in one place. -/
theorem blocksLegal_clashPart : blocksLegal clashPart = true := by
  have hmem (b : Nat) : b ∈ placedBlocks clashPart ↔ 8 ≤ b ∧ b < 1024 := by
    rw [placedBlocks_clashPart, clashBad]
    simp only [List.cons_append, List.mem_cons, List.mem_append, List.mem_map, List.mem_range, List.not_mem_nil, or_false]
    constructor
    · rintro (h | ⟨i, hi, h⟩ | h) <;> omega
    · rintro ⟨h, h'⟩
      by_cases h8 : b = 8
      · exact .inl h8
      · by_cases h9 : b = 9
        · exact .inr (.inr h9)
        · exact .inr (.inl ⟨b - 10, by omega, by omega⟩)
  have hnodup : (placedBlocks clashPart).Nodup := by
    have hrange : ((List.range 1014).map (· + 10)).Nodup := List.nodup_range.map fun a b h => Nat.add_right_cancel h
    rw [placedBlocks_clashPart, clashBad, List.cons_append, List.nodup_cons]
    refine ⟨?_, hrange.append (List.nodup_singleton 9) ?_⟩
    · simp only [List.mem_append, List.mem_map, List.mem_range, List.mem_singleton]
      rintro (⟨i, hi, h⟩ | h) <;> omega
    · intro b hb hb'
      obtain ⟨i, hi, rfl⟩ := List.mem_map.mp hb
      have h9 := List.mem_singleton.mp hb'
      omega
  have hbounds : ((placedBlocks clashPart).all fun b => decide (Config.firstSpool ≤ b) && decide (b < Config.nandBlocks)) = true := by
    rw [List.all_eq_true]
    intro b hb
    rw [Bool.and_eq_true, decide_eq_true_eq, decide_eq_true_eq]
    exact (hmem b).mp hb
  have hcounts : ((List.range (Config.nandBlocks - Config.firstSpool)).all
      fun i => decide ((placedBlocks clashPart).count (Config.firstSpool + i) = 1)) = true := by
    rw [List.all_eq_true]
    intro i hi
    have hlt : i < 1016 := List.mem_range.mp hi
    rw [decide_eq_true_eq]
    refine List.count_eq_one_of_mem hnodup ((hmem _).mpr ?_)
    change 8 ≤ 8 + i ∧ 8 + i < 1024
    omega
  have htarget : (clashPart.flash.recovery.bind Recovery.target).isNone = true := rfl
  have hretired : clashPart.flash.retired = [] := rfl
  have hlist : clashPart.flash.scrubList = [] := rfl
  rw [blocksLegal, hbounds, hcounts]
  rw [htarget, hretired, hlist, Bool.or_true]
  decide

theorem recordLegal_clashPart (r : Nat) (hr : r < 32) : recordLegal clashPart r = true := by
  have hrecord := record_clashPart r hr
  by_cases h : r = 0
  · subst h
    rw [if_pos rfl] at hrecord
    have hring : ringOf clashPart 0 = [clashEntry] := rfl
    have hentry : entryLegal .opened clashEntry = true := by
      have hdata : clashEntry.data.length = 4096 := List.length_replicate
      rw [entryLegal, hdata]
      rfl
    have hstate : clashRecord.state = .opened := rfl
    unfold recordLegal
    rw [hrecord, hring]
    simp only [hstate, List.all_cons, List.all_nil, hentry, pagesRunFrom]
    decide
  · rw [if_neg h] at hrecord
    have hring : ringOf clashPart r = [] := by
      change [clashEntry].filter (fun e => decide (e.record = r)) = []
      have hnot : ¬ decide (clashEntry.record = r) = true := fun hr => h (decide_eq_true_eq.mp hr).symm
      exact List.filter_cons_of_neg hnot
    unfold recordLegal
    rw [hrecord, hring]
    rfl

/-- The state meets every conjunct of `spoolCore`. -/
theorem spoolLegal_clashPart : spoolLegal clashPart = true := by
  have hrecords : (List.range 32).all (recordLegal clashPart) = true :=
    List.all_eq_true.mpr fun r hr => recordLegal_clashPart r (List.mem_range.mp hr)
  have hcore : spoolCore clashPart = true := by
    rw [spoolCore, blocksLegal_clashPart, hrecords]
    rfl
  rw [spoolLegal, hcore, Bool.or_true]

/-! ### What the end of the journal page makes of it -/

/-- The part as the page's end finds it, with the array `m`: the REPLACE is no longer in the batch. -/
def clashEnding (m : List (Nat × Page)) : Part :=
  modifyJournal (fun j => { j with batch := j.batch.drop 1, nextPage := j.nextPage + 1, due := j.due || decide (j.nextPage = 63) })
    (leftWith m clashPart)

/-- The part after the REPLACE is written. -/
def clashWritten (m : List (Nat × Page)) : Part := writtenEntry (clashEnding m) clashItem

section

variable (m : List (Nat × Page))

theorem jobEnd_clashPart : jobEnd ⟨.program 6 1 [], .journal 1, true, none⟩ .erased [] true (leftWith m clashPart) = clashWritten m := rfl

theorem record_clashEnding : record (clashEnding m) 0 = clashRecord := record_clashPart 0 (by decide)

/-- The position of record 0 holds block 9, block 8 is pending, and the relocation is done; the recovery stands as it was. -/
theorem clashWritten_eq : clashWritten m = { clashEnding m with
    flash := relocatedFlash clashItem clashScrub 8 (clashEnding m)
    spool := { (clashEnding m).spool with
      records := tableSet (clashEnding m).spool.records 0 { clashRecord with extent := [9] } }
    ports := ⟨raiseIn .flash [3, 0, 8, 0, 9, 0] (clashEnding m).ports.a, raiseIn .flash [3, 0, 8, 0, 9, 0] (clashEnding m).ports.b⟩ } := by
  have hrecord := record_clashEnding m
  have hblock : (record (clashEnding m) clashScrub.record).extent[clashScrub.position]? = some clashScrub.old := by
    rw [show clashScrub.record = 0 from rfl, hrecord]
    rfl
  rw [clashWritten, writtenEntry_replace_held ⟨_, _, _, _, rfl⟩ (x := clashScrub) rfl rfl hblock, show clashScrub.record = 0 from rfl, hrecord]
  rfl

theorem record_clashWritten : record (clashWritten m) 0 = { clashRecord with extent := [9] } := by
  rw [clashWritten_eq]
  exact tableGet_tableSet_same _ _ _ _ (by decide)

theorem recovery_clashWritten : (clashWritten m).flash.recovery = some clashRecovery := by
  rw [clashWritten_eq]
  rfl

theorem erasePending_clashWritten : (clashWritten m).flash.erasePending = [{ block := 8, hold := .free }] := by
  rw [clashWritten_eq]
  rfl

theorem scrub_clashWritten : (clashWritten m).flash.scrub = none := by
  rw [clashWritten_eq]
  rfl

theorem spoolTurn_clashWritten : SpoolTurn (clashWritten m) := by
  rw [clashWritten_eq]
  refine ⟨rfl, rfl, rfl, rfl, rfl, ?_, ?_⟩
  · rintro ⟨r, o, n, h⟩
    cases h
  · rintro ⟨r, o, n, h⟩
    cases h

/-- The arbiter begins the erase of block 8 as the recovery's replacement (R163). -/
theorem arbitrate_clashWritten : arbitrate (clashWritten m) = beginOperation (.erase 8) .replacement (clashWritten m) := by
  have hscrub := scrub_clashWritten m
  have hrecovery := recovery_clashWritten m
  have hqueued : ¬ replaceQueued (clashWritten m) = true := by simp [replaceQueued, hscrub]
  have hgiven : giveUpScrub (clashWritten m) = clashWritten m := by rw [giveUpScrub, hscrub]
  have hdraws : mayDraw 0 (clashWritten m) = true := by
    refine mayDraw_iff.mpr (.inl ?_)
    rw [record_clashWritten]
    decide
  have hfree : (clashWritten m).flash.free = [] := by
    rw [clashWritten_eq]
    rfl
  have hspool : (clashWritten m).flash.spool = .ready := by
    rw [clashWritten_eq]
    rfl
  have hallocate : allocate clashRecovery.record (clashWritten m) = .erase 8 := by
    refine (allocate_of_draws hdraws).trans (findBlock_of_oldest (by rw [hfree]; rfl) (by rw [hspool]; decide) ?_)
    rw [oldestUnheld, erasePending_clashWritten]
    rfl
  have hserve := (serveRecovery_of_allocates (x := clashRecovery) rfl hqueued hgiven).2.1 8 hallocate
  refine arbitrate_of_spool_busy (spoolTurn_clashWritten m).upperIdle ((serveSpool_of_recovery hrecovery).trans hserve) ?_
  exact Option.some_ne_none _

theorem completes_clashWritten : ringSpace clashPart (arbitrate (finishAbandon (clashWritten m)))
    = beginOperation (.erase 8) .replacement (clashWritten m) := by
  have hending : (record (clashWritten m) clashRecovery.record).ending = false := by
    rw [show clashRecovery.record = 0 from rfl, record_clashWritten]
    rfl
  have harm : (clashWritten m).spool.arm = false := by
    rw [clashWritten_eq]
    rfl
  rw [finishAbandon_of_standing (recovery_clashWritten m) hending, arbitrate_clashWritten, ringSpace_of_not]
  rintro ⟨h, -⟩
  exact Bool.false_ne_true (harm.symm.trans h)

end

theorem exec_clashPart : ∃ m, exec (.programEnd true) { part := clashPart, pending := [] }
    = .next { part := beginOperation (.erase 8) .replacement (clashWritten m), pending := [] } := by
  have hexec := exec_programDone (s := { part := clashPart, pending := [] }) rfl rfl rfl (jobEnd_clashPart _)
  dsimp only at hexec
  rw [completes_clashWritten] at hexec
  exact ⟨_, hexec⟩

theorem record_beginOperation (o : Operation) (j : Job) (s : Part) (r : Nat) : record (beginOperation o j s) r = record s r := rfl

/-- In a legal spool, a recovery's failed block is the one at its position. -/
theorem failed_of_spoolLegal {s : Part} {x : Recovery} (h : spoolLegal s = true) (hs : spoolStands s = true) (hx : s.flash.recovery = some x) :
    (record s x.record).extent[x.position]? = some x.failed := by
  have hcore : spoolCore s = true := by simpa [spoolLegal, hs] using h
  have hrecovery : recoveryLegal s x = true := by
    simp only [spoolCore, Bool.and_eq_true, hx, Option.all_some] at hcore
    exact hcore.1.1.2
  simp only [recoveryLegal, Bool.and_eq_true, decide_eq_true_eq] at hrecovery
  exact hrecovery.1.1.2

/-- Refutes O59: in `clashPart` the spool is legal, and the end of the page with the REPLACE puts block 9 at the recovery's position,
whose failed block stays 8. -/
theorem not_spoolStaysLegal : ¬ Obligations.SpoolStaysLegal := by
  unfold Obligations.SpoolStaysLegal
  rintro ⟨hstep, -⟩
  obtain ⟨m, hexec⟩ := exec_clashPart
  have hlegal := hstep { part := clashPart, pending := [.programEnd true] } _ spoolLegal_clashPart (fun _ _ h => nomatch h) hexec
  have hstands : spoolStands (beginOperation (.erase 8) .replacement (clashWritten m)) = true := by
    rw [clashWritten_eq]
    rfl
  have hrecovery : (beginOperation (.erase 8) .replacement (clashWritten m)).flash.recovery = some clashRecovery := recovery_clashWritten m
  have hblock := failed_of_spoolLegal hlegal hstands hrecovery
  rw [show clashRecovery.record = 0 from rfl, record_beginOperation, record_clashWritten] at hblock
  exact absurd hblock (by decide)

end Sys2Proof.Machine
end
